-- ==== Sys2Proof/Word.lean ====
section
/-!
DEFINITION. The words of the QW7480 (R3, R4): a register or store word of 32 bits, a byte, and the doubleword of
device time. Only the types stand here; every bit-field and byte-order helper is in Sys2Proof/Machine/Bits.lean.
-/
namespace Sys2Proof

/-- A register word or a store word's 32 data bits. -/
abbrev Word := BitVec 32

/-- A byte of payload, image or host memory. -/
abbrev Byte := BitVec 8

/-- A 64-bit quantity: device time, a counter, a host address, a doorbell write. -/
abbrev DWord := BitVec 64

/-- A store word as the store holds it: bit 32 is the parity bit, bits 31..0 the data (R220). -/
abbrev StoreWord := BitVec 33

/-! ## What several commands tell of an event on a medium -/

/-- The instants of a character in picoseconds: the age of its start edge, and from the start edge to the start of data bit 7, which
a synchronisation field is measured by (R252, R269). -/
structure CharTime where
  age : Nat
  sync : Nat
  deriving DecidableEq, Repr

/-- The end of a frame received: whether its FCS is good, and the invalid symbols (R302: SYMBOL_ERR, PCS_ERR) received with it. -/
structure FrameEnd where
  fcsOk : Bool
  errors : Nat
  deriving DecidableEq, Repr

/-- A LIN schedule slot of a port, and the bit of the break whose read-back differed (R268, R273). -/
structure LinSlot where
  port : Fin 48
  mismatch : Option (Fin 26)
  deriving DecidableEq, Repr

/-- The end of a transmission of a 10BASE-T1S port: whether the PHY's jabber timer cut it (R302). -/
structure T1sEnd where
  ts : Fin 4
  jabber : Bool
  deriving DecidableEq, Repr

/-- What an uplink's training found: auto-negotiation complete, remote fault received (R291, R303). -/
structure LinkFound where
  anDone : Bool
  remote : Bool
  deriving DecidableEq, Repr

/-- An uplink whose link goes down, and whether a remote fault was received (R292, R303). -/
structure LinkLoss where
  eu : Fin 2
  remote : Bool
  deriving DecidableEq, Repr

end Sys2Proof
end

