-- ==== Sys2Proof/Syntax.lean ====
section
/-!
DEFINITION. The commands of the QW7480: one constructor per row of spec/opcode_table.json, with what the outside world
supplies for it. An agent of the register fabric (R469) is 0 the host, 1 the partner, 2 the boot controller. A time is
given as an age: how many picoseconds before the command the edge or start fell.
-/
namespace Sys2Proof

/-- A command that the block takes from outside: an event on a pin or medium, an access of an agent, a word of the boot
script, the end of an interval, or a step of one of the device's own engines. -/
inductive Instr where
  /-- COLD_BOOT (R432): BOOT[1:0], PEER_RANK, which of banks A to D are 3.3 V, BIST failures (bit 0 store or checkpoint SRAM,
  bits 3..1 tables of E0 to E2), seam test failures (bit 0 A, bit 1 B, bit 2 an engine lane with both), and the MRAM slots
  that fail an ECC check (bits 7..0 slow checkpoints, 15..8 user records, 23..16 persistent counters). -/
  | coldBoot (boot : BitVec 2) (rank : Bool) (vio33 : BitVec 4) (bist : BitVec 4) (seams : BitVec 3) (mram : BitVec 24)
  /-- IMAGE_READ_COMPLETE (R436): whether the read had no error, and the image. -/
  | imageReadComplete (ok : Bool) (image : List Byte)
  /-- END (R441). -/
  | endScript
  /-- WRITE (R441): BAR0 offset and value. -/
  | write (off : BitVec 17) (val : Word)
  /-- LOAD (R441): table, domain and the words of its entries. -/
  | load (table : BitVec 4) (dom : Fin 8) (words : List Word)
  /-- POLL (R441): offset, mask, value, timeout. -/
  | poll (off : BitVec 17) (mask val : Word) (us : Nat)
  | pollTimeout
  | wait (us : Nat)
  | lock
  | scriptStitch
  | scriptTimeout
  /-- SELVAGE_LOCK (R444): the agent that writes SV_LOCK. -/
  | selvageLock (agent : Fin 3)
  /-- GO (R439): the agent that writes SV_BOOT_CTRL. -/
  | go (agent : Fin 3)
  | bootDataWrite (w : Word)
  | bootDoneWrite
  /-- REGISTER_WRITE (R5): agent, offset, data, access size in bytes, whether every byte is enabled, whether the write TLP
  is poisoned. -/
  | registerWrite (agent : Fin 3) (off : BitVec 17) (data : DWord) (size : Nat) (full : Bool) (poisoned : Bool)
  /-- LO_READ_LATCH (R471): agent, offset of the LO register, and whether the read takes 8 bytes. -/
  | loReadLatch (agent : Fin 3) (off : BitVec 17) (wide : Bool)
  | tpDtLoRead (agent : Fin 3) (wide : Bool)
  /-- HOST_INTERFACE_RESET (R360): 0 Function Level Reset, 1 hot reset, 2 link down. -/
  | hostInterfaceReset (kind : Fin 3)
  /-- PERST (R477): the new level of PERST_N. -/
  | perst (level : Bool)
  | d3hotEntry
  | brownout
  | vaonLoss
  /-- TEST_EN_ASSERT (R475): the new level of TEST_EN. -/
  | testEnAssert (level : Bool)
  /-- DOORBELL_WRITE (R364): page, slot offset in the page, low and high word. -/
  | doorbellWrite (page : Fin 8) (slot : BitVec 12) (lo hi : Word)
  /-- RING_ENABLE_WRITE (R365): agent, ring (0 to 31 HT, 32 to 63 HR, 64 CMD, 65 CPL), value for HI_RING_CFG. -/
  | ringEnableWrite (agent : Fin 3) (ring : Fin 66) (val : Word)
  | genOfferWrite (agent : Fin 3) (val : Word)
  /-- WB_BASE_WRITE (R367): the value for HI_WB_BASE_HI. -/
  | wbBaseWrite (agent : Fin 3) (val : Word)
  /-- HT_FETCH_COMPLETE (R370): ring, descriptor words 0 to 3, payload, and whether the reads succeeded. -/
  | htFetchComplete (ring : Fin 32) (desc : List Word) (payload : List Byte) (ok : Bool)
  /-- HR_DESCRIPTOR_FETCH (R374): ring, descriptor words 0 to 2. -/
  | hrDescriptorFetch (ring : Fin 32) (desc : List Word)
  /-- READ_COMPLETION_ERROR (R358): whose read: 0 to 65 a ring, 66 a pending command's buffer, 67 a boot image. -/
  | readCompletionError (who : Fin 68)
  | cplTimeout (who : Fin 68)
  | imodTimer (ring : Fin 66)
  /-- CMD_FETCH (R378): the eight words of the descriptor. -/
  | cmdFetch (desc : List Word)
  | nop
  /-- LOAD_TABLE (R163): the words of the command's buffer, and whether its reads succeeded. -/
  | loadTable (buf : List Word) (ok : Bool)
  | stitch
  | fitting
  | seamTest
  | power
  /-- CAL_APPLY (R462): the bytes of the command's buffer, whether its reads succeeded, and the user slots that fail ECC. -/
  | calApply (buf : List Byte) (ok : Bool) (mram : BitVec 8)
  | peerFence
  | ringReset
  | portService
  /-- COMMAND_COMPLETION (R378): the CMD index of the command whose completion is written. -/
  | commandCompletion (idx : Word)
  /-- CHARACTER_RECEIVED (R252): port, start bit decided 1, data bits, parity bit, stop bit, unequal samples, early start
  edge, its instants (R269). Data, parity and stop are the ball's levels, data bit i that of the i-th data bit on the line; after a false start the ball is at its idle level. -/
  | characterReceived (port : Fin 48) (falseStart : Bool) (data : BitVec 9) (par : Bool) (stop : Bool) (noisy : Bool)
      (early : Bool) (time : CharTime)
  /-- LIN_BREAK (R269): port, length of the low level in bit times, age of its falling edge. -/
  | linBreak (port : Fin 48) (bits : Nat) (age : Nat)
  | frameCharacter (port : Fin 48)
  | idleGapEnd (port : Fin 48)
  | silenceTimeout (port : Fin 48)
  /-- RATE_WRITE (R263): agent, port, whether AP_CHAR is written rather than AP_RATE, value, and whether a character is in
  the receive shifter. -/
  | rateWrite (agent : Fin 3) (port : Fin 48) (char : Bool) (val : Word) (rx : Bool)
  /-- RATE_APPLY (R263): port, and whether the transmitter is the side. -/
  | rateApply (port : Fin 48) (tx : Bool)
  /-- RATE_NOW (R264): agent, port, value, and whether a character is in the receive shifter. -/
  | rateNow (agent : Fin 3) (port : Fin 48) (val : Word) (rx : Bool)
  /-- TRANSMIT_CHARACTER (R258): port, and the bit whose read-back differed. -/
  | transmitCharacter (port : Fin 48) (mismatch : Option (Fin 12))
  | backoffRetry (port : Fin 48)
  | linHeader (port : Fin 48)
  /-- LIN_SCHEDULE_SLOT (R273): the port, with the outcome of the break's read-back (R268). -/
  | linScheduleSlot (slot : LinSlot)
  | linFrameSlotExpiry (port : Fin 48)
  /-- PORT_WAKE_EDGE (R274): a falling edge on a port. -/
  | portWakeEdge (port : Fin 48)
  | wakeInEdge (rising : Bool)
  | hostWake (agent : Fin 3)
  | timerWake
  /-- CAN_FRAME_RECEIVED (R126): controller; kind 0 classical data, 1 remote, 2 FD, 3 XL; IDE; identifier; DLC of a
  remote frame; SEC, VCID, SDT and AF of an XL frame; data; whether the controller sent it; age of SOF. -/
  | canFrameReceived (cn : Fin 16) (kind : Fin 4) (ide : Bool) (id : BitVec 29) (dlc : BitVec 4) (sec : Bool)
      (vcid sdt : Byte) (af : Word) (data : List Byte) (own : Bool) (age : Nat)
  | canFrameSent (cn : Fin 16)
  | arbitrationLost (cn : Fin 16)
  /-- CAN_ERROR (R286): controller; kind 1 bit, 2 stuff, 3 form, 4 CRC, 5 ACK, 0 overload; whether the controller was
  transmitting; whether the error counters take a further step of 8 for a fault in a flag; whether an exception of ISO 11898-1 holds
  in which TEC stays. -/
  | canError (cn : Fin 16) (kind : Fin 6) (tx : Bool) (flag except : Bool)
  | recover (agent : Fin 3) (cn : Fin 16)
  | busRecovered (cn : Fin 16)
  /-- T1S_FRAME_RECEIVED (R127): port, bytes from the destination address through the FCS, its end, own frame, age. -/
  | t1sFrameReceived (ts : Fin 4) (bytes : List Byte) (fin : FrameEnd) (own : Bool) (age : Nat)
  /-- T1S_FRAME_SENT (R289): the port, with the jabber timer's verdict (R302). -/
  | t1sFrameSent (sent : T1sEnd)
  | t1sCollision (ts : Fin 4)
  | plcaLost (ts : Fin 4)
  | plcaBack (ts : Fin 4)
  /-- UPLINK_FRAME_RECEIVED (R293): uplink, bytes from the destination address to the end of the data, its end: the FCS
  that follows them, lane block or code errors since the last frame; age. -/
  | uplinkFrameReceived (eu : Fin 2) (bytes : List Byte) (fin : FrameEnd) (age : Nat)
  /-- LINK_UP (R291): uplink, and what its training found. -/
  | linkUp (eu : Fin 2) (found : LinkFound)
  /-- LINK_DOWN (R292): the uplink, with a remote fault if one was received. -/
  | linkDown (loss : LinkLoss)
  /-- SPEED_CHANGE (R291): agent, uplink, value for EU_CTRL. -/
  | speedChange (agent : Fin 3) (eu : Fin 2) (val : Word)
  | frameCloseTimer (stream : Fin 16)
  /-- UPLINK_FRAME_SENT (R295): uplink, age of the first bit after the SFD. -/
  | uplinkFrameSent (eu : Fin 2) (age : Nat)
  | txtsPop (agent : Fin 3) (eu : Fin 2)
  /-- HEADER_ISSUE (R19): the merger: 0 in Triple, the engine in Split. -/
  | headerIssue (eng : Fin 3)
  /-- DECISION_ENTRY (R326): engine, and whether the 24 words hold their parity. -/
  | decisionEntry (eng : Fin 3) (parityOk : Bool)
  | parkedResume (eng : Fin 3) (parityOk : Bool)
  /-- SEAM_RELEASE (R330): the engine whose entry is passed in Split. -/
  | seamRelease (eng : Fin 3)
  | entryLateTimer
  /-- SEAM_DISAGREE (R334). -/
  | seamDisagree
  /-- SEAM_ROUND_END (R334): whether A and B passed the injection test, whether the repeated vote agrees. -/
  | seamRoundEnd (aPass bPass agree : Bool)
  | selfFault (eng : Fin 3)
  | resyncCopyComplete
  | resyncJoin
  | checkpointCut
  /-- CHECKPOINT_COMMIT (R343): no uncorrectable ECC error; blocks of the snapshots whose signatures differ, each with the engines in
  the minority. -/
  | checkpointCommit (ok : Bool) (blocks : List (Nat × BitVec 3))
  /-- RESTART_COMPLETE (R345): committed slot readable; table blocks that fail their signature (0 to 383 of bank 0, then bank 1), each
  with the engines; replay agreed. -/
  | restartComplete (slotOk : Bool) (blocks : List (Nat × BitVec 3)) (replayOk : Bool)
  | splitEngineTimeout (eng : Fin 3)
  /-- SCRUB (R347): live blocks whose signatures differ, each with the engines that the difference lies in. -/
  | scrub (blocks : List (Nat × BitVec 3))
  | seamTestEnd (pass : Bool)
  | derivedRecordBuild
  /-- SENTENCE_BOUNDARY (R196): egress point: 0 to 47 AP, 48 to 63 CN, 64 to 67 TS, 68 and 69 EU, 70 host receive,
  71 peer, 72 to 75 internal LQ124 to LQ127. -/
  | sentenceBoundary (ep : Fin 76)
  | heldRelease
  | tpStep (agent : Fin 3) (val : Word)
  | tpFreqWrite (agent : Fin 3) (val : Word)
  | dtValidSet (agent : Fin 3)
  | discSourceWrite (agent : Fin 3) (val : Word)
  | tpOffsSample (agent : Fin 3) (val : Word)
  | ppsInEdge (age : Nat)
  | servoHold
  | ppsOutEdge
  /-- REFERENCE_EVENT (R83): channel; kind 0 the mode's event (ZC edge, PP tooth, forward count), 1 reverse count,
  2 index, 3 illegal transition, 4 a forward and 5 a reverse count that PRn_B makes (R80); age of the edge. -/
  | referenceEvent (ch : Fin 4) (kind : Fin 6) (age : Nat)
  | holdover (ch : Fin 4)
  | lost (ch : Fin 4)
  | qeStillStop (ch : Fin 4)
  /-- PHASE_CHANNEL_CFG_WRITE (R88): agent, channel, whether CPR is written rather than CFG, value. -/
  | phaseChannelCfgWrite (agent : Fin 3) (ch : Fin 4) (cpr : Bool) (val : Word)
  | extSampleWrite (agent : Fin 3) (ch : Fin 4) (val : Word)
  /-- STROBE_WRITE (R100): agent, strobe, register 0 CFG, 1 ANGLE, 2 WIDTH, 3 PERIOD, 4 DT_LO, 5 DT_HI, value. -/
  | strobeWrite (agent : Fin 3) (po : Fin 4) (reg : Fin 6) (val : Word)
  | strobeEdge (po : Fin 4)
  | cellDue (cell : Fin 1024)
  | cellEmission
  | stitchTakesEffect
  | rebaste
  | rebasteDone
  /-- FITTING_CAPTURE (R422): the older or the newer pending fitting. -/
  | fittingCapture (second : Bool)
  | fittingRecordWritten (bank : Bool)
  | leaseLapse (bob : Fin 512)
  | flush (agent : Fin 3) (bob : Fin 512)
  /-- BACKGROUND_SCAN_READ (R240): store address, and the bit that an upset has flipped in that word since it was written. -/
  | backgroundScanRead (addr : Fin 2097152) (upset : Option (Fin 33))
  | pinAged (addr : Fin 2097152)
  | ckStart (agent : Fin 3) (cu : Fin 16)
  | ckFinish (agent : Fin 3) (cu : Fin 16)
  | ckClear (agent : Fin 3) (cu : Fin 16)
  | selftest (agent : Fin 3) (cu : Fin 16)
  | selftestDone (cu : Fin 16) (pass : Bool)
  /-- CK_DATA_WRITE (R308): 0 CK_DATA1, 1 CK_DATA2, 2 CK_DATA4. -/
  | ckDataWrite (agent : Fin 3) (cu : Fin 16) (which : Fin 3) (val : Word)
  | ckCfgWrite (agent : Fin 3) (cu : Fin 16) (val : Word)
  /-- CK_OPEN_PARAM_WRITE (R313): 0 to 5 POLY_LO, POLY_HI, INIT_LO, INIT_HI, XOR_LO, XOR_HI. -/
  | ckOpenParamWrite (agent : Fin 3) (cu : Fin 16) (which : Fin 6) (val : Word)
  | ckRunRestore (agent : Fin 3) (cu : Fin 16) (val : Word)
  | peerLinkEnable (agent : Fin 3)
  | retrain (agent : Fin 3)
  /-- PEER_LINK_UP (R390): the partner's rank, lanes FL0 and FL1 trained. -/
  | peerLinkUp (rank : Bool) (fl0 fl1 : Bool)
  /-- FLIT_RECEIVED (R391): CRC good, the flit header, the 14 payload words, sub-channel of a SENT flit. -/
  | flitReceived (crcOk : Bool) (hdr : Word) (payload : List Word) (sub : Fin 8)
  | replayTimer
  | peerLinkDown
  | sentenceFrameReceived (sub : Fin 8)
  | sentenceFrameAcked (sub : Fin 8)
  /-- BRIDGE_WRITE (R400): window, byte offset in the aperture, data, full 4-byte access. -/
  | bridgeWrite (win : Fin 8) (off : Byte) (data : Word) (full : Bool)
  | bridgeRead (win : Fin 8) (off : Byte)
  /-- INBOUND_REQUEST (R401): write, far offset, data, full 4-byte access, write tag, window, posted. -/
  | inboundRequest (wr : Bool) (off : BitVec 16) (data : Word) (full : Bool) (tag : BitVec 10) (win : Fin 8) (posted : Bool)
  | bridgeTimeout (tag : BitVec 10) (rd : Bool)
  | writeAckTimer
  | faultNotice (tag : BitVec 10) (reason : BitVec 4) (off : BitVec 16)
  /-- FAULT_LOG_POP (R407): agent, inbound log, the read takes 8 bytes. -/
  | faultLogPop (agent : Fin 3) (inbound : Bool)
  | acquire (agent : Fin 3) (win : Fin 8)
  | release (agent : Fin 3) (win : Fin 8)
  | lockRequestReceived (win : Fin 8)
  | lockGrantReceived (granted : Bool)
  | lockRetry
  /-- LOCK_TIMEOUT (R406): this device broke the partner's lock, or learns that its own was broken. -/
  | lockTimeout (own : Bool)
  | napEntry
  | hibernateEntry
  /-- PWR_GOOD (R453): whether the hibernate image passes its checks, and, for the cold boot that follows when it does not, BIST
  and seam test failures; the MRAM slots that fail ECC, all as for COLD_BOOT. -/
  | pwrGood (imageOk : Bool) (bist : BitVec 4) (seams : BitVec 3) (mram : BitVec 24)
  | pmicTimeout
  | persistWrite
  | slowCheckpoint
  /-- THERMAL_SAMPLE (R464): the four sensors in 0.25 degree C. -/
  | thermalSample (t0 t1 t2 t3 : BitVec 12)
  /-- SUPPLY_CHECK (R465): the supplies outside their windows, VDD in bit 0 to VPHY in bit 8. -/
  | supplyCheck (out : BitVec 9)
  | vaonInRange
  | resetNLow
  /-- HEADER_SPAN_END (R108): talker 0x30 to 0x53 (CAN, T1S, raw stream); the header and the unit's first bytes as for
  the frame; CAN: kind, IDE, identifier, DLC-coded length and AF; age of the start. -/
  | headerSpanEnd (talker : Fin 84) (kind : Fin 4) (ide : Bool) (id : BitVec 29) (len : Nat) (sec : Bool) (vcid sdt : Byte)
      (head : List Byte) (age : Nat)
  | d0Return
  | busMasterEnable
  | linkRetrain
  | ifsIdle (port : Fin 48)
  | deLagEnd (port : Fin 16)
  | strobePulseEnd (po : Fin 4)
  | ppsOutPulseEnd
  | t1sBackoffEnd (ts : Fin 4)
  | copyPathParity
  /-- AP_CTRL_EN_WRITE (R246): agent, port, value for AP_CTRL. -/
  | apCtrlEnWrite (agent : Fin 3) (port : Fin 48) (val : Word)
  /-- TAP_TCK_EDGE (R487): rising edge, TMS, TDI, and the levels of the scan chain's input balls. -/
  | tapTckEdge (rising : Bool) (tms tdi : Bool)
  | trstNLow
  deriving DecidableEq, Repr

end Sys2Proof
end

