-- ==== Sys2Proof/Decode.lean ====
section
/-!
DEFINITION. The commands that a word spells by the bits of spec/opcode_table.json. The table gives bits for no row, so no word
spells a command.
-/
namespace Sys2Proof

/-- The command whose bits are w, for the rows to which the table gives bits: none of them. -/
def decodeTableWord (_nbits _w : Nat) : Option Instr := none

end Sys2Proof
end

