-- ==== Sys2Proof/Machine/Bits.lean ====
section
/-!
DEFINITION. Bit fields, byte order (R3: little-endian, bit 0 least significant), two's complement and the CRC-32C
of R66 and R306: the helpers every other file of the machine uses.
-/
namespace Sys2Proof.Machine

/-- Bits [lo + n - 1 : lo] of a word, as a number. -/
def field (w : Word) (lo n : Nat) : Nat := (w.toNat / 2 ^ lo) % 2 ^ n

/-- Bit i of a word. -/
def bit (w : Word) (i : Nat) : Bool := w.getLsbD i

/-- The word w with bits [lo + n - 1 : lo] replaced by v (taken modulo 2^n). -/
def setField (w : Word) (lo n v : Nat) : Word :=
  let m := BitVec.ofNat 32 ((2 ^ n - 1) * 2 ^ lo)
  (w &&& ~~~m) ||| BitVec.ofNat 32 ((v % 2 ^ n) * 2 ^ lo)

/-- A Bool as the number 0 or 1. -/
def b2n (b : Bool) : Nat := if b then 1 else 0

/-- A word from a number. -/
def w32 (n : Nat) : Word := BitVec.ofNat 32 n

/-- A number of n bits read as two's complement. -/
def signed (n v : Nat) : Int :=
  if v % 2 ^ n < 2 ^ (n - 1) then Int.ofNat (v % 2 ^ n) else Int.ofNat (v % 2 ^ n) - 2 ^ n

/-- An integer as an n-bit two's complement number. -/
def unsigned (n : Nat) (i : Int) : Nat := (i % (2 ^ n : Int)).toNat

/-- An integer saturated to the range lo to hi. -/
def clampInt (lo hi i : Int) : Int := if i < lo then lo else if hi < i then hi else i

/-- The low and high words of a doubleword. -/
def loW (d : DWord) : Word := d.setWidth 32
/-- The high word of a doubleword. -/
def hiW (d : DWord) : Word := BitVec.ofNat 32 (d.toNat / 0x100000000)
/-- A doubleword from its high and low words. -/
def mkD (hi lo : Word) : DWord := BitVec.ofNat 64 (hi.toNat * 0x100000000 + lo.toNat)

/-- The four bytes of a word, least significant first (R3). -/
def wordBytes (w : Word) : List Byte :=
  [BitVec.ofNat 8 w.toNat, BitVec.ofNat 8 (w.toNat / 0x100), BitVec.ofNat 8 (w.toNat / 0x10000),
    BitVec.ofNat 8 (w.toNat / 0x1000000)]

/-- A little-endian number from bytes. -/
def leNat : List Byte → Nat
  | [] => 0
  | b :: t => b.toNat + 256 * leNat t

/-- n bytes of a number, least significant first. -/
def natBytes : Nat → Nat → List Byte
  | 0, _ => []
  | n + 1, v => BitVec.ofNat 8 v :: natBytes n (v / 256)

/-- n bytes of a number, most significant first (network order). -/
def natBytesBE (n v : Nat) : List Byte := (natBytes n v).reverse

/-- A big-endian number from bytes. -/
def beNat (bs : List Byte) : Nat := leNat bs.reverse

/-- The bytes of a list of words, each little-endian. -/
def wordsBytes (ws : List Word) : List Byte := ws.flatMap wordBytes

/-- Words from bytes, little-endian, the last word padded with zero bytes (R64). -/
def bytesWords : List Byte → List Word
  | [] => []
  | [a] => [w32 (leNat [a])]
  | [a, b] => [w32 (leNat [a, b])]
  | [a, b, c] => [w32 (leNat [a, b, c])]
  | a :: b :: c :: d :: t => w32 (leNat [a, b, c, d]) :: bytesWords t

/-- The i-th byte of a list, 0 past its end. -/
def byteAt (bs : List Byte) (i : Nat) : Byte := bs.getD i 0

/-- The i-th word of a list, 0 past its end. -/
def wordAt (ws : List Word) (i : Nat) : Word := ws.getD i 0

/-- Reverse the low n bits of a number. -/
def revBits : Nat → Nat → Nat
  | 0, _ => 0
  | n + 1, v => (v % 2) * 2 ^ n + revBits n (v / 2)

/-- One bit step of a reflected CRC of 32 bits with the reflected polynomial p. -/
def crcBit (p : Nat) (c : Nat) : Nat := if c % 2 = 1 then (c / 2) ^^^ p else c / 2

/-- One byte step of the reflected CRC-32 with reflected polynomial p. -/
def crcByte (p : Nat) (c : Nat) (b : Byte) : Nat :=
  let x := c ^^^ b.toNat
  crcBit p (crcBit p (crcBit p (crcBit p (crcBit p (crcBit p (crcBit p (crcBit p x)))))))

/-- CRC-32C of a byte string (R66): polynomial 0x1EDC6F41 reflected, initial and final value all ones. -/
def crc32c (bs : List Byte) : Word :=
  w32 ((bs.foldl (crcByte 0x82F63B78) 0xFFFFFFFF) ^^^ 0xFFFFFFFF)

/-- CRC-32 of IEEE 802.3, the frame check sequence of an Ethernet frame (R214). -/
def crc32eth (bs : List Byte) : Word :=
  w32 ((bs.foldl (crcByte 0xEDB88320) 0xFFFFFFFF) ^^^ 0xFFFFFFFF)

/-- Even parity over the 33 bits of a store word (R220): the number of ones is even. -/
def evenOnes : Nat → Nat → Bool
  | 0, _ => true
  | n + 1, v => if v % 2 = 1 then !evenOnes n (v / 2) else evenOnes n (v / 2)

/-- The store word a writer writes: data and the parity bit that makes the ones even (R220). -/
def withParity (w : Word) : StoreWord :=
  BitVec.ofNat 33 (w.toNat + (if evenOnes 32 w.toNat then 0 else 0x100000000))

/-- Whether a store word passes its parity check (R236). -/
def parityOk (w : StoreWord) : Bool := evenOnes 33 w.toNat

/-- The ASCII code of a character. -/
def asc (c : Char) : Byte := BitVec.ofNat 8 c.toNat

/-- An upper-case hexadecimal digit of a nibble. -/
def hexDigit (n : Nat) : Byte := BitVec.ofNat 8 (if n % 16 < 10 then 48 + n % 16 else 55 + n % 16)

/-- The value of an upper or lower case hexadecimal digit. -/
def hexVal (b : Byte) : Option Nat :=
  let v := b.toNat
  if 48 ≤ v ∧ v ≤ 57 then some (v - 48)
  else if 65 ≤ v ∧ v ≤ 70 then some (v - 55)
  else if 97 ≤ v ∧ v ≤ 102 then some (v - 87)
  else none

/-- The exclusive or of a byte string, as a number. -/
def xorBytes (bs : List Byte) : Nat := bs.foldl (fun a b => a ^^^ b.toNat) 0

/-- Whether bit i of a number is set. -/
def nbit (v i : Nat) : Bool := (v / 2 ^ i) % 2 = 1

/-- The indices below n whose bit is set in a number, rising. -/
def bitsOf (n v : Nat) : List Nat := (List.range n).filter (nbit v)

/-- An element put before the first one that it may precede. -/
def insBy {α : Type} (le : α → α → Bool) (a : α) : List α → List α
  | [] => [a]
  | b :: t => if le a b then a :: b :: t else b :: insBy le a t

/-- A list in the order of a relation; elements that the relation does not separate keep their order. -/
def sortBy {α : Type} (le : α → α → Bool) : List α → List α
  | [] => []
  | a :: t => insBy le a (sortBy le t)

/-- The remainder of an integer by an interval; 0 for interval 0. -/
def intMod (i : Int) (p : Nat) : Nat := if p = 0 then 0 else (i % Int.ofNat p).toNat

end Sys2Proof.Machine
end

