-- ==== Sys2Proof/Machine/State.lean ====
section
/-!
DEFINITION. The state of the QW7480 as plain data: every register, queue, store word, table, counter, pin and engine
that the spec names, with the queue of waiting commands. Finite maps are lists of (key, value) pairs in one canonical
form: keys strictly rising and, where the map has a default, no entry equal to what an unlisted key reads as. The
operations on them stand in Sys2Proof/Machine/Ops.lean.
-/
namespace Sys2Proof.Machine

/-- A finite map from numbers, sorted by key. -/
abbrev SMap (α : Type) := List (Nat × α)

/-- One loaded table entry: the domain that loaded it (R145) and its image words (R163). -/
structure Entry where
  dom : Nat := 0
  img : List Word := []
  deriving DecidableEq, Repr

/-- One bank of every table of R412; the key is the table ID of R163 times 2^16 plus the index. -/
abbrev Bank := SMap Entry

/-- A window slot (R151). -/
structure WinSlot where
  count : Nat := 0
  mn : Int := 0
  mx : Int := 0
  sum : Int := 0
  c0 : Option Nat := none
  deriving DecidableEq, Repr

/-- A SEQ slot that holds a talker and the last number it accepted (R156); an empty slot is unlisted. -/
structure SeqSlot where
  talker : Nat := 0
  seq : Nat := 0
  deriving DecidableEq, Repr

/-- The dynamic state of an engine (R158, R325): window slots, SEQ slots, its copies of cell values, and its counter pool. What a
fitting records, and R428 numbers, are the released counts among the counters (R158, R159). -/
structure EngDyn where
  pool : SMap DWord := []
  win : SMap WinSlot := []
  seq : SMap SeqSlot := []
  cells : SMap Word := []
  deriving DecidableEq, Repr

/-- A hold of a decision (R155): the form, its operands and its late and LOST options. -/
structure HoldSpec where
  form : Nat
  chan : Nat
  late : Nat
  lostDrop : Bool
  w1 : Word
  w2 : Word
  deriving DecidableEq, Repr

/-- A rewrite of a chain, in step order (R148, R149, R154). -/
inductive Rewrite where
  /-- RETAG: type value, type mask, N. -/
  | retag (val mask : Word) (n : Nat)
  /-- SCALE write-back: bit offset, width, MSB-first order, raw value. -/
  | bits (off width : Nat) (be : Bool) (val : Nat)
  /-- STAMP: byte offset and the bytes. -/
  | bytes (off : Nat) (bs : List Byte)
  deriving DecidableEq, Repr

/-- Why a decision drops its sentence (R136, R143). -/
inductive DropCause where
  | none
  | ruleDrop
  | noRule
  deriving DecidableEq, Repr

/-- An egress decision with its side effects (R136, R146, R326): what an entry of an alignment buffer carries. -/
structure Decision where
  lset : BitVec 128 := 0#128
  cls : Nat := 0
  /-- Mirror class of each listener of the mirror set (R152). -/
  mir : SMap Nat := []
  tmpl : Option Nat := none
  hold : Option HoldSpec := none
  rewrites : List Rewrite := []
  f : List Word := [0#32, 0#32, 0#32, 0#32]
  /-- Pool counter and increment of each COUNT and GAP_COUNT. -/
  counts : List (Nat × Nat) := []
  /-- Cell, field mask and values of each CELL step. -/
  cells : List (Nat × Nat × List Word) := []
  drop : DropCause := .none
  chkFail : Bool := false
  /-- Check number and outcome of each CHECK step: 0 pass, 1 failed and flagged, 2 failed and dropped (R318). -/
  checks : List (Nat × Nat) := []
  /-- OUT_OF_ORDER outcomes of SEQ steps (R156). -/
  ooo : Nat := 0
  /-- New contents of the window slots that the chain updated, and of the SEQ slots (R327). -/
  winUpd : SMap WinSlot := []
  seqUpd : SMap SeqSlot := []
  deriving DecidableEq, Repr

/-- A header as the merger issues it to the engines (R19, R104, R108): the index, the six words, and what travels with
them outside the record. -/
structure Header where
  idx : Nat := 0
  addr : Nat := 0
  h : List Word := []
  status : Nat := 0
  hits : Nat := 0
  tagMark : Bool := false
  early : Bool := false
  keyLen : Nat := 0
  /-- Complete payload words when an early header was issued; the engines' view before the first token (R161). -/
  avail : Nat := 0
  /-- The unit had ended in the engines' view when the decision was made. -/
  fin : Bool := false
  /-- The FCLK edge at which the header was complete (R19). -/
  made : Nat := 0
  deriving DecidableEq, Repr

/-- One entry of an alignment buffer (R326): the header it decides, the decision, and whether its words' parity holds. -/
structure DecEntry where
  hdr : Header
  dec : Decision
  bank : Nat
  parityOk : Bool := true
  deriving DecidableEq, Repr

/-- A capture of the tape unit (R89): the stamp in whole nanoseconds, H4 and the four window hits at that instant, and
the port tick count of R91. -/
structure Cap where
  dt : Nat := 0
  h4 : Word := 0#32
  hits : Nat := 0
  tick : Nat := 0
  /-- PRIO and MALF of the talker at the capture point (R107). -/
  tkin : Nat := 0
  deriving DecidableEq, Repr

/-- Where the IEC 61162-1 parser stands inside a unit (R114 to R118). -/
inductive IecPh where
  | tag | tagC1 | tagC2 | tagEnd | tagAfter
  | addr | data | ck1 | ck2 | ckEol | cr
  deriving DecidableEq, Repr

/-- The IEC 61162-1 parser inside a unit: the TAG blocks and sentence kept for the payload, the counts of R115 and R119,
the running exclusive ors, the address field, and the highest status so far (R103). -/
structure Iec where
  ph : IecPh := .addr
  pay : List Byte := []
  tagChars : Nat := 0
  tagX : Nat := 0
  tagDig : Nat := 0
  tagBody : List Byte := []
  cnt : Nat := 0
  x : Nat := 0
  start : Option Byte := none
  addr : List Byte := []
  ck : Nat := 0
  ckSeen : Bool := false
  st : Nat := 0
  deriving DecidableEq, Repr

/-- A unit in progress on an asynchronous port (R102, R112): the settings it began under, its stamp, its reserved number,
and the parser of its framing. -/
structure UnitSt where
  ctrl : Word := 0#32
  len : Word := 0#32
  gap : Word := 0#32
  nine : Bool := false
  prio : Nat := 0
  malf : Bool := false
  cap : Cap := {}
  seq : Nat := 0
  pay : List Byte := []
  st : Nat := 0
  iec : Iec := {}
  /-- SLIP: the last character was ESC. -/
  esc : Bool := false
  /-- COBS: data bytes left in the group, and whether an implied zero follows it. -/
  cobsLeft : Nat := 0
  cobsZero : Bool := false
  /-- LIN: 0 sync expected, 1 protected identifier expected, 2 data, 3 checksum. -/
  linPh : Nat := 0
  linPid : Byte := 0#8
  linLen : Nat := 0
  linModel : Nat := 0
  linOwn : Bool := false
  /-- The store address of the record, once an early header was issued (R108). -/
  early : Option Nat := none
  /-- The early record was refused at admission: the rest of the unit goes nowhere (R206). -/
  dead : Bool := false
  deriving DecidableEq, Repr

/-- A bobbin's dynamic state (R225, R228): the four positions, the notch, and the lease latched at its MARK (R235). In
class S, LP follows RP. -/
structure Bob where
  wp : Nat := 0
  rp : Nat := 0
  lp : Nat := 0
  notch : Option Nat := none
  lapsed : Bool := false
  lease : Word := 0#32
  deriving DecidableEq, Repr

/-- What the release verifier found of a complete record (R215): its words as read, the outcome (0 verified, 1 poison, 2 mismatch),
and whether the check unit repaired it. -/
structure Verified where
  h : List Word := []
  pw : List Word := []
  tr : Word := 0#32
  outcome : Nat := 0
  repaired : Bool := false
  deriving DecidableEq, Repr

/-- A side-table entry of a record (R233, R316): where it lies, what still pins it, its marks, and what travels with it
outside the store. -/
structure Pin where
  bob : Nat := 0
  pos : Nat := 0
  words : Nat := 0
  talker : Nat := 0
  seq : Nat := 0
  /-- Sentence index, once issued, and the merger that issued it. -/
  idx : Nat := 0
  mrg : Nat := 0
  /-- References queued or being emitted; holds pending; 1 while the decision or its fan-out is still to come. -/
  refs : Nat := 0
  holds : Nat := 0
  wait : Nat := 0
  chkFail : Bool := false
  repaired : Bool := false
  /-- The unit has ended and the trailer is written. -/
  complete : Bool := true
  /-- The unit ended with a status other than OK after its early header (R109). -/
  bad : Bool := false
  /-- Sub-channel of a partner record (R430). -/
  sub : Nat := 0
  /-- DT target of the hold that released it (R200). -/
  due : Option Nat := none
  /-- The release verifier's result, and the egress points that were idle when its references came (R215, R236). -/
  ver : Option Verified := none
  handed : List Nat := []
  deriving DecidableEq, Repr

/-- A reference (R188). -/
structure Ref where
  addr : Nat := 0
  cls : Nat := 0
  held : Bool := false
  mirror : Bool := false
  cut : Bool := false
  talker : Nat := 0
  seq : Nat := 0
  deriving DecidableEq, Repr

/-- An element of the merger's order (R19, R161): a header, whose index is preassigned when a restart presents it again
(R345), or a progress token of an early-header unit. -/
inductive MEnt where
  | head (addr : Nat) (h : Header) (idx : Option Nat)
  | token (addr : Nat) (words : Nat) (final : Bool) (made : Nat)
  deriving DecidableEq, Repr

/-- What an engine finds in its input order: a header, a token, the point of a checkpoint cut (R342), or a SLOT_RESET
(R158). -/
inductive EItem where
  | head (h : Header) (bank : Nat)
  | token (addr : Nat) (words : Nat) (final : Bool)
  | cut
  | slots (l : List Word)
  deriving DecidableEq, Repr

/-- A parked decision (R161): its header, bank, and the payload words its last token showed. -/
structure Parked where
  hdr : Header
  bank : Nat
  words : Nat := 0
  final : Bool := false
  deriving DecidableEq, Repr

/-- An engine (R325, R329): its state (0 GOOD, 1 FENCED, 2 RESYNC, 3 RETIRED), its banks, dynamic state, input order,
parked decisions, alignment buffer, and the released entries its own entries are still to be compared with (R330). -/
structure Eng where
  st : Nat := 0
  bank0 : Bank := []
  bank1 : Bank := []
  dyn : EngDyn := {}
  inbox : List EItem := []
  parked : List Parked := []
  align : List DecEntry := []
  owed : List DecEntry := []
  /-- Snapshot of the dynamic state at the pending cut, with the indices parked there (R342). -/
  snap : Option (EngDyn × List Nat) := none
  /-- Failed copies (R339), the join index while a join waits or is under watch, and whether the copy is complete. -/
  tries : Nat := 0
  join : Option Nat := none
  copied : Bool := false
  deriving DecidableEq, Repr

/-- A merger (R19, R20, R205): the order of waiting headers and tokens, the next index, the refused classes. -/
structure Merger where
  q : List MEnt := []
  next : Nat := 0
  refused : Nat := 0
  deriving DecidableEq, Repr

/-- One released decision since the last committed cut, as replay needs it (R345): the header, bank, and the view of the
payload that the engines had. -/
structure LogRec where
  hdr : Header
  bank : Nat
  words : Nat
  final : Bool
  deriving DecidableEq, Repr

/-- A committed checkpoint (R341): the cut index, the dynamic state, the indices then parked. -/
structure Ckpt where
  idx : Nat := 0
  dyn : EngDyn := {}
  parked : List Nat := []
  slot : Nat := 0
  deriving DecidableEq, Repr

/-- A pending cut (R342): its index, and the read position of every ingress bobbin of the merger. -/
structure Cut where
  idx : Nat
  pos : SMap Nat
  deriving DecidableEq, Repr

/-- A released decision on its way to fan-out (R189): the merger, the entry, and whether its derived record is still to be
built (R157); held marks a hold's firing. -/
structure FanJob where
  mrg : Nat
  ent : DecEntry
  derive : Bool
  /-- The listener set goes at P0 with HELD set: a hold that is released at acceptance (R95, R97, R98). -/
  held : Bool := false
  /-- The listener set waits for the tape unit; only the derived record is still to be built. -/
  later : Bool := false
  /-- The DT target of a held release (R200). -/
  due : Option Nat := none
  deriving DecidableEq, Repr

/-- The resolved target of a scheduled action (R93). -/
inductive Target where
  | dt (t : Nat)
  /-- A cycle and angle of a channel, and whether the channel turned in reverse when the target was accepted (R85, R93). -/
  | phase (ch cyc ang : Nat) (rev : Bool)
  deriving DecidableEq, Repr

/-- A held entry (R93 to R98): the record whose references it releases, the decision, and its target. -/
structure Held where
  mrg : Nat
  idx : Nat
  addr : Nat
  orig : Nat
  dec : Decision
  bank : Nat
  target : Target
  /-- The derived record that it releases is still to be built, and whether it has fired meanwhile (R174). -/
  need : Bool := false
  fired : Bool := false
  /-- A step has carried DT past its target (R72, R98). -/
  stepped : Bool := false
  deriving DecidableEq, Repr

/-- A value slot of the cell emitter (R175). -/
structure CellSlot where
  val : Word := 0#32
  wr : Bool := false
  time : Nat := 0
  /-- Restored by a slow checkpoint and not written since: stale at every due instant (R459). -/
  old : Bool := false
  deriving DecidableEq, Repr

/-- A rate cell at the emitter (R178 to R185). -/
structure CellSt where
  v0 : CellSlot := {}
  v1 : CellSlot := {}
  v2 : CellSlot := {}
  v3 : CellSlot := {}
  /-- Elapsed time, in ps, at which the cell was newly enabled (R501). -/
  born : Nat := 0
  /-- The last emission: elapsed time in ps when it fell due; none when newly enabled. -/
  last : Option Nat := none
  /-- Slot values in the last emission formed, none for an empty slot; none at all when no emission was formed. -/
  vals : Option (List (Option Word)) := none
  /-- H1 of the last formed emission, while it may still wait at the pacing listener. -/
  lastAddr : Option Nat := none
  /-- Its due instant while an emission waits for formation, and the elapsed time, in ps, of that instant. -/
  due : Option (Nat × Nat) := none
  /-- The first grid instant of DT still to fire (PERIOD); the elapsed time, in ps, up to which the channel's motion has been
  judged (PHASE). -/
  nextDt : Option Nat := none
  since : Nat := 0
  /-- A change that waits for MIN_INT (ON_CHANGE). -/
  pendChg : Bool := false
  /-- The slots written since the last emission fell due and the cell was newly enabled, one bit each (R501). -/
  news : Nat := 0
  deriving DecidableEq, Repr

/-- One stretch of a phase channel's motion (R81): from an elapsed time on (in picoseconds), the state, the position in
units of 2^-64 turn and its rate in such units per picosecond, within bounds (R85). -/
structure Seg where
  t : Nat := 0
  st : Nat := 0
  pos : Int := 0
  rate : Int := 0
  lo : Option Int := none
  hi : Option Int := none
  /-- The position before a correction in ACQUIRE, which counts as motion to the stretch's first (R178). -/
  pre : Option Int := none
  deriving DecidableEq, Repr

/-- A phase channel (R83): its motion, newest stretch first; expected period in ps; the loop's estimate of the rate, in 2^-64 turn
per picosecond; the position of the last event that had one; elapsed time of the last event; events since the entry into ACQUIRE,
consecutive good events, the last interval, teeth since the gap, the QE count, the DT of the last EXT sample, and the settings in
force since the last event (R88). -/
structure Chan where
  segs : List Seg := []
  per : Nat := 20000000000
  freq : Int := 0
  base : Option Int := none
  lastEv : Option Nat := none
  evs : Nat := 0
  good : Nat := 0
  prev : Option Nat := none
  teeth : Option Nat := none
  qcnt : Int := 0
  extDt : Option Nat := none
  cfg : Word := 0x420#32
  ofs : Word := 0#32
  deriving DecidableEq, Repr

/-- A strobe output (R100): pulse active, next leading edge in DT, the elapsed time, in ps, up to which the channel's motion has
been judged, DT words in force (R101). -/
structure Strobe where
  active : Bool := false
  next : Option Nat := none
  since : Nat := 0
  dt : DWord := 0#64
  deriving DecidableEq, Repr

/-- A flit: header and the 14 payload words (R391). -/
structure Flit where
  hdr : Word
  pay : List Word
  sub : Nat := 0
  deriving DecidableEq, Repr

/-- Everything the device drives to the outside. -/
inductive Output where
  /-- A character on a port's ball: its data bits, the ball's level in each bit time from the start bit through the first stop
  bit, the length of the stop in half bits, and the bit time in units of 10 ns / 1,024 (R245, R247, R248, R258). -/
  | char (port v : Nat) (line : List Bool) (stop2 bit : Nat)
  /-- A LIN break of so many bit times. -/
  | linBreak (port : Nat) (bits : Nat)
  /-- A CAN frame: controller, effective type, data, classical (0), remote (1), FD (2), XL (3), BRS, ESI. -/
  | canFrame (cn : Nat) (kind : Nat) (type : Word) (data : List Byte) (brs esi : Bool)
  /-- A CAN error flag that destroys the frame being sent (R216). -/
  | canErrorFlag (cn : Nat)
  /-- An Ethernet frame without preamble, with its FCS: 0 to 3 TS, 4 and 5 EU. -/
  | ether (port : Nat) (bytes : List Byte)
  /-- Bytes written to host memory. -/
  | hostWrite (addr : Nat) (bytes : List Byte)
  /-- Data returned by a read of the register fabric. -/
  | readData (agent : Nat) (off : Nat) (v : DWord)
  /-- An image read by DMA or from flash. -/
  | readReq (addr len : Nat)
  /-- A flit sent on the link. -/
  | flit (f : Flit)
  /-- A level of a named output ball. -/
  | pin (name : Nat) (level : Bool)
  deriving DecidableEq, Repr

/-- The sentence an egress point is emitting: the listener, the lane's bobbin, the reference, its index, the units (bytes
of a character stream) to send and how many have been sent, attempts, and its flags. -/
structure Cur where
  lq : Nat
  bob : Nat
  ref : Ref
  idx : Nat
  bytes : List Byte := []
  sent : Nat := 0
  /-- Collided or failed attempts (R266, R285), and lost arbitrations. -/
  tries : Nat := 0
  backoff : Bool := false
  /-- A cut-through emission found bad: what is left in bytes is the abort sequence (R216). -/
  aborted : Bool := false
  repaired : Bool := false
  /-- A port was taken out of its character by RATE_NOW, or a collision: the emission is not driving. -/
  hit : Bool := false
  /-- Cut-through: the record is complete and has been checked. -/
  fin : Bool := false
  /-- An asynchronous port: the character in the transmit shifter, and the bytes of the emission that it takes (R258, R264). -/
  shift : Option (Nat × Nat) := none
  /-- Cut-through: payload words read so far (R215). -/
  read : Nat := 0
  /-- The frame on a packet medium or in the internal loop. -/
  frame : Option Output := none
  deriving DecidableEq, Repr

/-- An egress point's arbiter (R196 to R198): the active list of lanes (listener times 4 plus lane), each lane's deficit
and new_round, and the sentence being emitted. -/
structure Egress where
  active : List Nat := []
  deficit : SMap Nat := []
  round : SMap Bool := []
  cur : Option Cur := none
  deriving DecidableEq, Repr

/-- A receive word in a port queue (R252, R224): the stored word with its parity, the capture of its start edge, and the
pieces the framer takes at the stop decision. -/
structure RxEnt where
  w : StoreWord
  cap : Cap := {}
  /-- The sync byte of a LIN header was outside AUTO_SYNC's range (R269). -/
  syncBad : Bool := false
  deriving DecidableEq, Repr

/-- An asynchronous port (R244 to R277). -/
structure Port where
  q : List RxEnt := []
  ov : Bool := false
  unit : Option UnitSt := none
  /-- Skipping junk: 0 no, 1 to the next starter (R106, R119), 2 to the next delimiter (R122), 3 to the next gap (R123),
  above 16 the rest of a raw unit of that many characters more than 16 (R106). -/
  skip : Nat := 0
  /-- Settings in force on each side (R263): AP_CHAR and AP_RATE. -/
  rxChar : Word := 8#32
  rxRate : Word := 0x00145855#32
  txChar : Word := 8#32
  txRate : Word := 0x00145855#32
  pendRx : Bool := false
  pendTx : Bool := false
  idle : Bool := true
  de : Bool := false
  oos : Bool := false
  /-- Taken out of service once the transmitter reaches its boundary (R277). -/
  oosPend : Bool := false
  /-- LIN table: identifiers 0 to 63, schedule slots 64 to 79 (R270), response buffers and those valid (R271). -/
  lin : SMap Word := []
  buf : SMap (List Byte) := []
  /-- LIN frame in progress on the commander side or a response being sent: identifier and characters left. -/
  linTx : List Byte := []
  linTxId : Nat := 0
  linResp : Bool := false
  /-- A response buffer was loaded since the last header (R271). -/
  linLoaded : Bool := false
  linPos : Option Nat := none
  /-- Characters caught in a wake, with their ages at the catch, and the count dropped (R276). -/
  caught : List (Word × Nat × Cap) := []
  hibDrop : Nat := 0
  wakeCatch : Bool := false
  /-- A character is in the receive shifter, as the last command that says so told (R263). -/
  rxBusy : Bool := false
  /-- EN was cleared with a character in the transmit shifter, which completes (R246). -/
  txTail : Bool := false
  /-- Characters in the internal loopback path (R277). -/
  loop : List Nat := []
  /-- The level of the receive ball (R245, R279), and whether this port's edge ended a NAP or HIBERNATE (R275). -/
  line : Bool := true
  waker : Bool := false
  /-- LIN: a break has come and the sync byte is due; the bit time that AUTO_SYNC measured, in units of 10 ns / 1,024 (R269). -/
  linSync : Bool := false
  linBit : Option Nat := none
  deriving DecidableEq, Repr

/-- A CAN controller (R280 to R287). -/
structure Can where
  tec : Nat := 0
  rcv : Nat := 0
  st : Nat := 0
  recovering : Bool := false
  lastErr : Nat := 0
  oos : Bool := false
  oosPend : Bool := false
  flt : SMap Word := []
  /-- Writes of filter words: clock count, index, the value before; newest first (R282, R303). -/
  fltWas : List (Nat × Nat × Word) := []
  deriving DecidableEq, Repr

/-- A 10BASE-T1S port (R289, R290). -/
structure T1s where
  /-- No BEACON was seen for the standard time (R289). -/
  lost : Bool := false
  beacon : Bool := false
  oos : Bool := false
  oosPend : Bool := false
  backoff : Bool := false
  deriving DecidableEq, Repr

/-- One sentence placed in an uplink frame: its listener, reference and content. -/
structure UpSent where
  lq : Nat
  ref : Ref
  body : List Byte
  deriving DecidableEq, Repr

/-- A frame of an uplink (R295): its stream, sentences, and, once closed, the bytes without FCS. -/
structure UpFrame where
  stream : Nat
  sents : List UpSent := []
  bytes : List Byte := []
  bad : Bool := false
  cut : Bool := false
  /-- The stream's settings when the frame opened (R294). -/
  cfg : List Word := []
  /-- A closing condition has come while 32 closed frames wait (R295). -/
  due : Bool := false
  deriving DecidableEq, Repr

/-- A transmit stamp (R301). -/
structure TxTs where
  h1 : Word
  dt : Nat
  deriving DecidableEq, Repr

/-- An Ethernet uplink (R291 to R301): link, auto-negotiation, open frame of each stream, closed frames, stamp queue, IP
identification, and the line counter and BSEQ of each stream. -/
structure Uplink where
  link : Bool := false
  anDone : Bool := false
  /-- The last PAUSE frame honoured: elapsed time, in ps, of its reception and of the end of its pause (R291). -/
  pauseAt : Nat := 0
  pauseEnd : Nat := 0
  /-- A remote fault is received (R303). -/
  remote : Bool := false
  opens : SMap UpFrame := []
  closed : List UpFrame := []
  txts : List TxTs := []
  ipId : Nat := 0
  line : SMap Nat := []
  bseq : SMap Nat := []
  deriving DecidableEq, Repr

/-- A descriptor fetched ahead of an HT ring (R370): its words, payload, and its read's success. -/
structure HtDesc where
  w : List Word
  pay : List Byte
  ok : Bool
  cap : Cap := {}
  deriving DecidableEq, Repr

/-- A ring (R365 to R376): latched configuration, indices, descriptors fetched ahead, moderation counts. -/
structure Ring where
  active : Bool := false
  gen : Nat := 0
  base : Nat := 0
  size : Nat := 4
  h : Word := 0#32
  d : Word := 0#32
  /-- HR: prefetched descriptors. -/
  hr : List (List Word) := []
  /-- HT: a fetched descriptor that cannot enter. -/
  ht : List HtDesc := []
  paused : Bool := false
  done : Nat := 0
  owner : Nat := 0
  /-- Descriptor reads that are outstanding (R372). -/
  reads : Nat := 0
  deriving DecidableEq, Repr

/-- The control and error state of the PCI Express function (R357 to R359): the Max Payload Size and Max Read Request Size codes of
Device Control (128 bytes times a power of two), Extended Tag Field Enable, and the Uncorrectable Error Status of Advanced Error
Reporting. -/
structure Pci where
  mps : Nat := 0
  mrrs : Nat := 2
  extTag : Bool := false
  aerStatus : Word := 0#32
  deriving DecidableEq, Repr

/-- A command taken from CMD (R377, R378): its descriptor, CMD index, acting domain, and its state: waiting to start,
running, or done with status and results. -/
structure Cmd where
  w : List Word := []
  /-- Its number among all commands taken since reset, by which the device keeps it apart, and its CMD index (R360, R377). -/
  idx : Word := 0#32
  no : Word := 0#32
  started : Bool := false
  done : Option (Nat × Word × Word) := none
  /-- LOAD_TABLE: words of entries still to be written behind a stitch (R414). -/
  buf : List Word := []
  bufOk : Bool := true
  acceptDt : Nat := 0
  /-- PEER_FENCE: writes issued before it that are still open (R408). -/
  fence : List Nat := []
  /-- The completion is not written (R360). -/
  mute : Bool := false
  deriving DecidableEq, Repr

/-- A pending stitch (R416): the CMD index that asked for it (none: the boot script), its target (none: NEXT_INDEX or
fired), its status, and whether its target has come. -/
structure Stitch where
  cmd : Option Word := none
  target : Option Target := none
  status : Nat := 0
  ripe : Bool := true
  deriving DecidableEq, Repr

/-- A pending fitting (R422 to R426). -/
structure Fit where
  cmd : Word := 0#32
  target : Option Target := none
  status : Nat := 0
  ripe : Bool := true
  bank : Nat := 0
  acceptDt : Nat := 0
  tag : Nat := 0
  addr : Nat := 0
  captured : Bool := false
  captureDt : Nat := 0
  deriving DecidableEq, Repr

/-- A context of a check unit (R307). -/
structure CkCtx where
  cfg : Word := 0#32
  poly : DWord := 0#64
  init : DWord := 0#64
  xor : DWord := 0#64
  bind : Word := 0#32
  run : DWord := 0#64
  runHi : Word := 0#32
  exp : DWord := 0#64
  res : DWord := 0#64
  started : Bool := false
  valid : Bool := false
  bytes : Nat := 0
  deriving DecidableEq, Repr

/-- A check unit beside its contexts (R310, R322). -/
structure CkUnit where
  isMatch : Bool := false
  misCtx : Nat := 0
  testing : Bool := false
  result : Nat := 0
  deriving DecidableEq, Repr

/-- A fault log entry (R407). -/
structure FaultEnt where
  tag : Nat
  reason : Nat
  win : Nat
  addr : Nat
  deriving DecidableEq, Repr

/-- An issued bridge write that is not yet acknowledged (R402, R407). -/
structure BrWrite where
  tag : Nat
  win : Nat
  addr : Nat
  posted : Bool
  deriving DecidableEq, Repr

/-- The peer link (R390 to R409). -/
structure Peer where
  st : Nat := 0
  rank : Bool := false
  far : Bool := false
  txSeq : Nat := 0
  rxSeq : Nat := 0
  unacked : List Flit := []
  replays : Nat := 0
  nak : Bool := false
  /-- Credits held per sub-channel, REQ and CPL. -/
  credit : SMap Nat := []
  /-- Flits of each sub-channel whose buffer is not yet freed, and credits to be returned, by credit counter (R392). -/
  kept : SMap Nat := []
  ret : SMap Nat := []
  /-- Completions that wait for a credit (R392). -/
  cplq : List (List Word) := []
  /-- A retrain is in progress (R390). -/
  retraining : Bool := false
  /-- Words received of the frame in progress on each sub-channel. -/
  rx : SMap (List Word) := []
  /-- Complete frames waiting to become records. -/
  frames : SMap (List (List Word)) := []
  /-- The sub-channels whose last frame received has MODE ORIGIN (R394, R397). -/
  origin : SMap Bool := []
  /-- Sentences sent and not wholly acknowledged, oldest first: listener, reference, last flit sequence. -/
  sent : SMap (List (Nat × Ref × Nat)) := []
  /-- Words of sentence frames that wait to be put into flits, the last word of each marked with its delivery, and their
  sub-channel. -/
  txq : List (Word × Option (Nat × Ref)) := []
  txSub : Nat := 0
  wtag : Nat := 0
  writes : List BrWrite := []
  reads : List (Nat × Nat) := []
  rtag : Nat := 0
  olog : List FaultEnt := []
  ilog : List FaultEnt := []
  /-- Outbound lock of each window: state and refused attempts; the window of the lock held or requested. -/
  lockSt : SMap Nat := []
  lockTry : SMap Nat := []
  lockWin : Option Nat := none
  /-- The windows whose lock was broken and whose next non-posted write faults (R406). -/
  lockFault : List Nat := []
  /-- A refused request waits for its retry (R405). -/
  lockWait : Bool := false
  /-- A RELEASE that waits for a credit of REQ (R392, R404). -/
  releaseDue : Option Nat := none
  /-- The partner's window that holds a lock here. -/
  inLock : Option Nat := none
  /-- Writes performed and the highest not yet acknowledged (R407). -/
  inTag : Nat := 0
  inUnacked : Nat := 0
  /-- Fault entries since the previous PEER_FENCE. -/
  faults : Nat := 0
  bootWait : Bool := false
  /-- Words received for a boot image, and its result. -/
  bootWords : List Word := []
  bootRes : Nat := 0
  deriving DecidableEq, Repr

/-- A parsed record of a boot script (R441). -/
inductive SRec where
  | endRec
  | write (off : Nat) (val : Word)
  | load (table dom : Nat) (words : List Word)
  | poll (off : Nat) (mask val us : Word)
  | wait (us : Word)
  | lock
  | stitch
  | bad
  deriving DecidableEq, Repr

/-- The boot controller (R432 to R441). -/
structure Boot where
  /-- 0 BOOT, 1 TEST, 2 RECOVERY, 3 RUN. -/
  phase : Nat := 0
  source : Nat := 0
  stage : Nat := 0
  done : Bool := false
  error : Nat := 0
  image : Nat := 0
  time : Nat := 0
  result : Nat := 0
  /-- An image read is in progress, from: 0 QSPI A, 1 QSPI B, 2 host, 3 partner; none: waiting or running a script. -/
  reading : Option Nat := none
  waiting : Bool := false
  stopped : Bool := false
  script : List SRec := []
  running : Bool := false
  power : Nat := 1
  /-- Slow checkpoint slots that failed their checks at the cold boot (R456). -/
  slowBad : Nat := 0
  deriving DecidableEq, Repr

/-- The hibernate image (R452): register fields, live copies of staged registers, check contexts, LIN and filter tables, live
bank and owners of its entries, dynamic state and state of each engine, seams, sequence counters, DT, frequency correction. -/
structure HibImage where
  regs : SMap Word := []
  live : SMap Word := []
  ctx : SMap CkCtx := []
  lin : SMap (SMap Word) := []
  flt : SMap (SMap Word) := []
  bank : Bank := []
  owners : SMap Nat := []
  dyn : SMap EngDyn := []
  engSt : SMap Nat := []
  seams : Nat × Nat := (0, 0)
  seqs : SMap Nat := []
  dt : Nat := 0
  freq : Word := 0#32
  deriving DecidableEq, Repr

/-- A slow checkpoint (R458). -/
structure SlowRec where
  seq : SMap SeqSlot
  cells : SMap Word
  deriving DecidableEq, Repr

/-- A user calibration record (R461): GEN and the non-zero signed offsets by trim. -/
structure UserRec where
  gen : Nat := 0
  offs : SMap Int := []
  deriving DecidableEq, Repr

/-- Power, wake, MRAM, calibration and monitors (R448 to R466). -/
structure Power where
  /-- 1 RUN, 2 DOZE, 3 NAP, 4 HIBERNATE. -/
  st : Nat := 1
  /-- A state asked for by POWER: entry begun, not complete. -/
  req : Option Nat := none
  lean : Bool := false
  coarse : Bool := false
  store4 : Bool := false
  staged : Option (Bool × Bool × Bool) := none
  lastWake : Nat := 0
  wakePort : Nat := 0
  /-- A wake that came before the entry asked for was complete (R450): source and port. -/
  latched : Option (Nat × Nat) := none
  waking : Bool := false
  /-- The wake oscillator runs (R274, R275). -/
  osc : Bool := false
  /-- PWR_REQ, and whether CLKREQ_N is driven low (R477, R480). -/
  pwrReq : Bool := true
  clkReq : Bool := false
  /-- A brownout is still to be counted (R481). -/
  brown : Bool := false
  pmicMiss : Bool := false
  hibFail : Bool := false
  hib : Option HibImage := none
  /-- MRAM slots: slow checkpoints, user records, persistent counters, each with its GEN. -/
  slow : SMap (Nat × SlowRec) := []
  user : SMap (Nat × UserRec) := []
  pers : SMap (Nat × SMap DWord) := []
  /-- Live persistent counters (R457). -/
  pcnt : SMap DWord := []
  calLive : UserRec := {}
  calSrc : Nat := 0
  calStaged : Option (UserRec × Nat × Bool) := none
  tj : Nat := 0
  sensor : Nat := 0
  warnArmed : Bool := true
  critArmed : Bool := true
  supplyOut : Nat := 0
  vio33 : Nat := 0
  deriving DecidableEq, Repr

/-- The test access port (R487): the controller's state (0 Test-Logic-Reset, 1 Run-Test/Idle, 2 to 8 the DR column from Select to
Update, 9 to 15 the IR column), the instruction register, the shift stages, the boundary cells' update stage, and TDO. -/
structure Tap where
  st : Nat := 0
  ir : Nat := 1
  irShift : Nat := 0
  dr : Nat := 0
  upd : Nat := 0
  tdo : Option Bool := none
  deriving DecidableEq, Repr

/-- The tape unit (R69 to R101). -/
structure Tape where
  /-- Elapsed time without steps, in units of 2^-40 / 3 ns. -/
  clk : Nat := 0
  /-- Offset of DT against the elapsed time, in ns, and the offsets before each step, newest first. -/
  ofs : Int := 0
  steps : List (Nat × Int) := []
  dtValid : Bool := false
  servo : Nat := 0
  lockCnt : Nat := 0
  freq : Word := 0#32
  ppsActive : Bool := false
  ppsNext : Option Nat := none
  wakeDone : Bool := false
  chans : SMap Chan := []
  strobes : SMap Strobe := []
  held : List Held := []
  deriving DecidableEq, Repr

/-- The seam (R333 to R349): seam states (0 ACTIVE, 1 TESTING, 2 FENCED), histories, the device state of SM_STATUS, the
round of a disagreement, and a SEAM_TEST in progress. -/
structure Seam where
  sa : Nat := 0
  sb : Nat := 0
  histA : List DecEntry := []
  histB : List DecEntry := []
  dev : Nat := 0
  round : Nat := 0
  /-- SEAM_TEST: seams still to test, results so far, READMIT. -/
  test : List Nat := []
  testRes : Nat := 0
  readmit : Bool := false
  split : Bool := false
  profiled : Bool := false
  /-- The engines that restart, one bit each (R344). -/
  restarting : Nat := 0
  /-- The CMD index of the SEAM_TEST in progress. -/
  testCmd : Word := 0#32
  /-- The signature store: of each bank, the signature of each of its 384 blocks (R341); an unlisted bank is an empty one. -/
  sigs : SMap (List Word) := []
  deriving DecidableEq, Repr

/-- Staged configuration (R412 to R424). -/
structure Cons where
  liveBank : Nat := 0
  stitch : Option Stitch := none
  /-- STITCH commands whose stitch has taken effect and whose index is not issued yet: CMD index and status (R420). -/
  waits : List (Word × Nat) := []
  fits : List Fit := []
  shadow : SMap (List Byte) := []
  rebaste : Bool := false
  rebasteGo : Bool := false
  /-- The re-baste has copied and has still to report its end (R413). -/
  rebasteRun : Bool := false
  slotResets : List Word := []
  /-- SLOT_RESET entries made live, per merger: the stitch index, the entries, and whether the engines have them (R158). -/
  resets : SMap (List (Nat × List Word × Bool)) := []
  /-- A checkpoint to be cut at a stitch index that the merger has still to reach again (R342, R345). -/
  cutWait : SMap Nat := []
  clears : List Nat := []
  seq : Word := 0#32
  sIdx : Nat := 0
  sDt : Nat := 0
  fitSeq : Word := 0#32
  /-- Index at which each merger switched to the live bank. -/
  swIdx : SMap Nat := []
  /-- Listener settings before the last stitch (R417). -/
  prevLq : SMap Word := []
  owners : SMap Nat := []
  deriving DecidableEq, Repr

/-- Why a command ends in a fault. No meaning of this model answers one: the spec names no command that stops the block. -/
inductive Fault where
  /-- Raised by nobody; it keeps the type inhabited. Safe. -/
  | unreachable
  deriving DecidableEq, Repr

/-- Why a command is refused by the model. -/
inductive Refusal where
  /-- A row of the opcode table without a meaning, rejected by name; raised by a dispatch arm alone. Safe. -/
  | notModelled (mnemonic : String)
  deriving DecidableEq, Repr

/-- A derived record that is being built word by word for a cut-through delivery (R157, R172): the original, its own
address, the rewrites, and the payload words written. -/
structure Build where
  orig : Nat
  addr : Nat
  rewrites : List Rewrite
  words : Nat := 0
  /-- Payload words of the original read, and whether one of them failed parity (R236). -/
  read : Nat := 0
  bad : Bool := false
  deriving DecidableEq, Repr

/-- The machine. -/
structure State where
  /-- Commands that wait, first in, first out. -/
  pending : List Instr := []
  /-- RESET_N, TEST_EN, PERST_N, and Bus Master Enable, D3hot. -/
  inReset : Bool := true
  testEn : Bool := false
  perst : Bool := true
  bme : Bool := false
  d3hot : Bool := false
  pci : Pci := {}
  /-- The host-transmit ring whose turn at the reads is next (R372), and the commands taken since reset. -/
  turn : Nat := 0
  cmdSerial : Nat := 0
  rank : Bool := false
  /-- Whether IRQ_N is asserted (R384). -/
  irq : Bool := false
  /-- Register values by BAR0 offset, against the reset values of R473, and the live copies of staged registers. -/
  regs : SMap Word := []
  live : SMap Word := []
  /-- Latches of the LO and HI pairs, by agent times 2^17 plus the HI offset (R470). -/
  latch : SMap Word := []
  /-- Counters by catalogue index (R428), and a fitting's view of the pool per engine. -/
  ctr : SMap DWord := []
  /-- Outputs driven so far, newest first. -/
  out : List Output := []
  /-- Number of free values taken: the model's own field. -/
  freeCtr : Nat := 0
  /-- Units of packet talkers that have their early header: the record's store address, none when it was refused or
  abandoned (R108). -/
  early : SMap (Option Nat) := []
  store : SMap StoreWord := []
  bobs : SMap Bob := []
  pins : SMap Pin := []
  seqs : SMap Nat := []
  engs : SMap Eng := []
  mrgs : SMap Merger := []
  /-- Released decisions since the committed cut, per merger, oldest first; issued ones are in the engines' inboxes. -/
  log : SMap (List LogRec) := []
  ckpts : SMap Ckpt := []
  cuts : SMap Cut := []
  fan : List FanJob := []
  seam : Seam := {}
  tape : Tape := {}
  cells : SMap CellSt := []
  cons : Cons := {}
  egress : SMap Egress := []
  /-- The listener that last pushed into a lane bobbin (R195). -/
  laneLq : SMap Nat := []
  builds : List Build := []
  /-- The FCLK edge, by its number, of the device's last change of a bit that an agent may write too, and those bits (R6). -/
  hotAt : Nat := 0
  hot : SMap Word := []
  /-- Writes of settings that captures read at their own instant: clock count, offset, the value before; newest first (R90, R92,
  R107). -/
  hist : List (Nat × Nat × Word) := []
  /-- The next address of the background scan (R240). -/
  scan : Nat := 0
  ports : SMap Port := []
  cans : SMap Can := []
  t1s : SMap T1s := []
  ups : SMap Uplink := []
  rings : SMap Ring := []
  /-- HT rings and peer talkers, by talker ID, that BLOCK listeners pause (R204). -/
  blocked : SMap Bool := []
  genOffered : Bool := false
  wbWritten : Bool := false
  cmds : List Cmd := []
  cuCtx : SMap CkCtx := []
  cus : SMap CkUnit := []
  peer : Peer := {}
  boot : Boot := {}
  pw : Power := {}
  tap : Tap := {}
  deriving DecidableEq, Repr

/-- The machine right after reset, before RESET_N rises (R8, R165, R473): every register at its reset value, every map
empty, the store all zeros. -/
def State.reset : State := {}

end Sys2Proof.Machine
end

