-- ==== Sys2Proof/Machine/Maps.lean ====
section
/-!
DEFINITION. The operations on the finite maps of State: lookup, insertion and removal that keep the keys rising, and
reads and writes through a default that a map does not list. A write of the default removes the entry, so equal maps
are equal lists.
-/
namespace Sys2Proof.Machine

variable {α : Type}

/-- The value listed at a key. -/
def mapFind : SMap α → Nat → Option α
  | [], _ => none
  | (k, v) :: t, a => if a = k then some v else mapFind t a

/-- The map with key a bound to v, in its place in the rising order. -/
def mapIns : SMap α → Nat → α → SMap α
  | [], a, v => [(a, v)]
  | (k, w) :: t, a, v =>
    if a < k then (a, v) :: (k, w) :: t
    else if a = k then (a, v) :: t
    else (k, w) :: mapIns t a v

/-- The map without key a. -/
def mapDel : SMap α → Nat → SMap α
  | [], _ => []
  | (k, w) :: t, a => if a = k then mapDel t a else (k, w) :: mapDel t a

/-- The value at a key, the default d where none is listed. -/
def mapGet (d : Nat → α) (m : SMap α) (a : Nat) : α := (mapFind m a).getD (d a)

/-- A write through the default d: the default value is not listed. -/
def mapSet [DecidableEq α] (d : Nat → α) (m : SMap α) (a : Nat) (v : α) : SMap α :=
  if v = d a then mapDel m a else mapIns m a v

/-- A change of the value at a key. -/
def mapMod [DecidableEq α] (d : Nat → α) (m : SMap α) (a : Nat) (f : α → α) : SMap α :=
  mapSet d m a (f (mapGet d m a))

/-- The keys of a map. -/
def mapKeys (m : SMap α) : List Nat := m.map (·.1)

/-- Whether the keys of a map rise strictly. -/
def mapSorted : SMap α → Bool
  | [] => true
  | [_] => true
  | (k, _) :: (k', v) :: t => decide (k < k') && mapSorted ((k', v) :: t)

/-- The canonical form: keys rising, and no entry equal to the default. -/
def mapWf [DecidableEq α] (d : Nat → α) (m : SMap α) : Bool :=
  mapSorted m && m.all (fun e => decide (e.2 ≠ d e.1))

/-- A constant default. -/
def dflt (v : α) : Nat → α := fun _ => v

/-- The entries of a map whose key and value meet a condition. -/
def mapFilter (p : Nat → α → Bool) (m : SMap α) : SMap α := m.filter (fun e => p e.1 e.2)

end Sys2Proof.Machine
end

