-- ==== Sys2Proof/Machine/Regs.lean ====
section
/-!
DEFINITION. The register map of BAR0 (R5 to R8, R473): for each listed offset its reset value, the bits an agent writes
plainly, the bits a 1 clears, and whether its writable bits are RWB. Write-only command fields keep no bit. Offsets not
listed are reserved (R468).
-/
namespace Sys2Proof.Machine

/-- One register of R473. -/
structure RegInfo where
  reset : Nat := 0
  rw : Nat := 0
  w1c : Nat := 0
  rwb : Bool := false

/-- A read-only register. -/
def rRo (r : Nat := 0) : Option RegInfo := some { reset := r }
/-- A register with RW bits. -/
def rRw (m : Nat) (r : Nat := 0) : Option RegInfo := some { reset := r, rw := m }
/-- A register with W1C bits. -/
def rW1c (m : Nat) : Option RegInfo := some { w1c := m }
/-- A register with RWB bits. -/
def rRwb (m : Nat) (r : Nat := 0) : Option RegInfo := some { reset := r, rw := m, rwb := true }
/-- All 32 bits. -/
def allOnes : Nat := 0xFFFFFFFF

/-- A cause register and its mask register four bytes above it. -/
def rCause (o base m : Nat) : Option RegInfo := if o = base then rW1c m else if o = base + 4 then rRw m else none

/-- One ring block of R473. -/
def ringReg (o : Nat) : Option RegInfo :=
  match o with
  | 0x00 => rRw 0xFFFFFFC0
  | 0x04 => rRw allOnes
  | 0x08 => rRw 0x1FF 4
  | 0x0C => rRo
  | 0x10 => rRo
  | 0x14 => rRw allOnes 1
  | 0x18 => rRo
  | _ => none

/-- Pages 0 and 1: identity, interrupt tree, host rings. -/
def hostReg (o : Nat) : Option RegInfo :=
  match o with
  | 0x0 => rRo 0x748000B0
  | 0x4 => rRo 0x00029030
  | 0x8 => rRo 0x01562AA0
  | 0x10 => rRw 3
  | 0x14 => rRo
  | 0x18 => rRw allOnes
  | 0x400 => rRo
  | 0x404 => rRw 0xFFFF
  | 0x408 => rRw 3
  | 0x1900 => rW1c 7
  | 0x1904 => rRw 7
  | 0x1908 => rW1c allOnes
  | 0x190C => rRw allOnes
  | 0x1910 => rW1c allOnes
  | 0x1914 => rRw allOnes
  | 0x1918 => rW1c allOnes
  | 0x191C => rRw allOnes
  | 0x1920 => rW1c allOnes
  | 0x1924 => rRw allOnes
  | 0x1928 => rW1c 0xFF
  | 0x192C => rRw 0xFF
  | 0x1930 => rRw 0xFFFFFFC0
  | 0x1934 => rRw allOnes
  | 0x1938 => rRo
  | _ =>
    if 0x440 ≤ o ∧ o < 0x4C0 then rRo
    else if 0x1000 ≤ o ∧ o < 0x1840 then ringReg (o % 0x20)
    else none

/-- Page 2: power and wake. -/
def powerReg (o : Nat) : Option RegInfo :=
  match o with
  | 0x2000 => rRo 1
  | 0x2004 => rRw 0x3F 1
  | 0x2008 => rRw allOnes
  | 0x200C => rRw allOnes
  | 0x2010 => rRo
  | 0x2020 => rW1c 0x3F
  | 0x2024 => rRw 0x3F
  | 0x2028 => rRw allOnes 0x003C0000
  | 0x2030 => rRw 0xF
  | 0x2034 => rRo
  | 0x2038 => rRo
  | _ => none

/-- A phase channel block. -/
def prReg (o : Nat) : Option RegInfo :=
  match o with
  | 0x00 => rRw 0x0FFFFFFF 0x420
  | 0x04 => rRw allOnes 0x01312D00
  | 0x08 => rRw 0xFFFFFF
  | 0x0C => rRw 0xFFFFFF 4
  | 0x10 => rRo
  | 0x14 => rRo
  | 0x18 => rRo 0x01312D00
  | 0x1C => rRo
  | 0x20 => rRw allOnes
  | 0x24 => rRw allOnes
  | _ => none

/-- A strobe block. -/
def poReg (o : Nat) : Option RegInfo :=
  match o with
  | 0x00 => rRw 0xFF7F
  | 0x04 => rRw 0xFFFFFF
  | 0x08 => rRw 0xFFFFFF 1
  | 0x0C => rRw allOnes
  | 0x10 => rRw allOnes
  | 0x14 => rRw allOnes
  | 0x18 => rRo
  | 0x1C => rRo
  | _ => none

/-- Page 3: the tape unit. -/
def tapeReg (o : Nat) : Option RegInfo :=
  match o with
  | 0x3000 => rRo
  | 0x3004 => rRo
  | 0x3008 => rRo
  | 0x300C => rRo
  | 0x3010 => rRw allOnes
  | 0x3018 => rRw allOnes
  | 0x301C => rRo
  | 0x3020 => rRw 0xFFFF 0xD608
  | 0x3024 => rRo
  | 0x3028 => rRo
  | 0x302C => rRo
  | 0x3030 => rRw 0x3FFFF 0x190
  | 0x3034 => rRw allOnes
  | 0x3040 => rW1c 0x1FFFFFF
  | 0x3044 => rRw 0x1FFFFFF
  | 0x3048 => rRw 0xFFFF 0x64
  | _ =>
    if 0x3080 ≤ o ∧ o < 0x30A4 then rRw (if o = 0x30A0 then 0xFFFF else allOnes)
    else if 0x3100 ≤ o ∧ o < 0x3200 then prReg (o % 0x40)
    else if 0x3200 ≤ o ∧ o < 0x3220 then (if o % 8 = 0 then rRw 0x0FFFFFFF else rRw 0xFFFFFF)
    else if 0x3300 ≤ o ∧ o < 0x3380 then poReg (o % 0x20)
    else none

/-- An asynchronous port block; n is the port. -/
def apReg (n o : Nat) : Option RegInfo :=
  match o with
  | 0x00 => rRw 0x7F
  | 0x04 => rRw 0x3FF 8
  | 0x08 => rRw 0x07FFFFFF 0x00145855
  | 0x0C => rRo 0x10
  | 0x10 => rRw 0xFFFFFF
  | 0x14 => rRw 0xFFFFF 0x00030A0B
  | 0x18 => rRo
  | 0x20 => some { reset := if n < 8 then 4 else 0, rw := 1, w1c := 2 }
  | 0x24 => rW1c 0x1FFF
  | 0x28 => rRw 0x1FFF
  | 0x2C => rRw 0xFFFFF 0x000158D0
  | 0x30 => rRw 0x7F
  | 0x34 => rRw allOnes
  | 0x38 => rRo
  | 0x40 => rRw 0x7FF 0x400
  | 0x44 => rRw 0xFF0FFF 0x00500052
  | 0x48 => rRw 0xFFFFFF
  | _ => none

/-- A CAN controller block. -/
def cnReg (o : Nat) : Option RegInfo :=
  match o with
  | 0x00 => rRw 0x3BF
  | 0x04 => rRw 0x3FFFFFFF 0x0F9F7E01
  | 0x08 => rRw 0x3FFFFFFF 0x09933A00
  | 0x0C => rRw 0x3FFFFFFF 0x01830A00
  | 0x10 => rRw 0xFFFF01FF 0x100
  | 0x14 => rRw 0xFF03FF 0x00CC0200
  | 0x18 => rRo
  | 0x1C => rW1c 0x7F
  | 0x20 => rRw 0x7F
  | 0x24 => rRw 0x3F
  | 0x28 => rRw allOnes
  | _ => none

/-- A 10BASE-T1S port block. -/
def tsReg (o : Nat) : Option RegInfo :=
  match o with
  | 0x00 => rRw 0xF 2
  | 0x04 => rRw allOnes
  | 0x08 => rRw 0xFFFF
  | 0x0C => rRw 0xFFFFFF 0x002008FF
  | 0x10 => rRw 0xFFFF 0x8000
  | 0x14 => rRo
  | 0x18 => rW1c 0x3F
  | 0x1C => rRw 0x3F
  | _ => none

/-- An uplink block without its streams. -/
def euReg (o : Nat) : Option RegInfo :=
  match o with
  | 0x00 => rRw 0x3FFF3F 0x00100000
  | 0x04 => rRo
  | 0x08 => rRw allOnes
  | 0x0C => rRw 0xFFFF
  | 0x10 => rRw allOnes
  | 0x14 => rRw allOnes
  | 0x18 => rW1c 0x3F
  | 0x1C => rRw 0x3F
  | 0x20 => rRo
  | 0x24 => rRo
  | 0x28 => rRo
  | 0x2C => rRo
  | _ => none

/-- A stream block. -/
def stReg (o : Nat) : Option RegInfo :=
  match o with
  | 0x00 => rRw 0x7FF 0x10
  | 0x04 => rRw allOnes
  | 0x08 => rRw allOnes
  | 0x0C => rRw allOnes
  | 0x10 => rRw allOnes
  | 0x14 => rRw 0xFFFF3FFF 0x5C0
  | 0x18 => rRw 0xFF0FFF 0x00500052
  | 0x1C => rRw allOnes
  | 0x20 => rRw 0xFFFF
  | _ => none

/-- Pages 4 to 7: the media. -/
def mediaReg (o : Nat) : Option RegInfo :=
  if o < 0x5800 then apReg ((o - 0x4000) / 0x80) (o % 0x80)
  else if 0x6000 ≤ o ∧ o < 0x7000 then cnReg (o % 0x100)
  else if 0x7000 ≤ o ∧ o < 0x7800 then tsReg (o % 0x200)
  else if 0x7800 ≤ o ∧ o < 0x8000 then
    (let q := o % 0x400
     if q < 0x100 then euReg q else if q < 0x300 then stReg (q % 0x40) else none)
  else none

/-- Page 8: engines, seam, routing, store-wide. -/
def engReg (o : Nat) : Option RegInfo :=
  match o with
  | 0x8000 => rRo
  | 0x8004 => rRw 0xF 3
  | 0x8008 => rRw 0xFFFF 0x32
  | 0x800C => rRo 0x3E8
  | 0x8010 => rRo
  | 0x8014 => rRo
  | 0x8020 => rW1c 0xFFF
  | 0x8024 => rRw 0xFFF
  | 0x8028 => rRo
  | 0x802C => rRo
  | 0x8030 => rRo
  | 0x8034 => rRo
  | 0x8038 => rRo
  | 0x8180 => rW1c 0x1F
  | 0x8184 => rRw 0x1F
  | 0x8188 => rRo
  | 0x8190 => rRw 0x0FFF0FFF 0x03000200
  | 0x8194 => rRw 0x0FFF0FFF 0x05000400
  | 0x8198 => rRw 0x0FFF0FFF 0x07000600
  | 0x819C => rRw 0x0FFF0FFF 0x00400800
  | 0x81A0 => rRo
  | 0x81B0 => rW1c 0x3F
  | 0x81B4 => rRw 0x3F
  | 0x81B8 => rRo
  | 0x8F00 => rW1c 0x3F
  | 0x8F04 => rRw 0x3F
  | 0x8F08 => rRo
  | 0x8F10 => rRw 1 1
  | 0x8F14 => rRo
  | 0x8F18 => rRw 0xFFFF 0x3C
  | 0x8F20 => rW1c 7
  | 0x8F24 => rRw 7
  | 0x8F28 => rRo
  | _ =>
    if 0x8100 ≤ o ∧ o < 0x8144 then rRw allOnes 0x44444444
    else if 0x81C0 ≤ o ∧ o < 0x81D4 then rRw allOnes
    else if 0x8400 ≤ o ∧ o < 0x8800 then
      (let k := (o - 0x8400) / 8
       if o % 8 = 4 then rRw 0x3FFFFF0F 0x04004001
       else if k = 124 then rRw 0xF800FFFF
       else if 125 ≤ k then rRw 0xF8FFFFFF
       else rRw allOnes)
    else none

/-- A check-unit block. -/
def ckReg (o : Nat) : Option RegInfo :=
  match o with
  | 0x00 => rRw 0xF
  | 0x04 => rRw 0x3FFF
  | 0x08 => rRw allOnes
  | 0x0C => rRw allOnes
  | 0x10 => rRw allOnes
  | 0x14 => rRw allOnes
  | 0x18 => rRw allOnes
  | 0x1C => rRw allOnes
  | 0x20 => rRw allOnes
  | 0x24 => rRw allOnes
  | 0x28 => rRw allOnes
  | 0x2C => rRw allOnes
  | 0x30 => rRw allOnes
  | 0x34 => rRo
  | 0x38 => rRo
  | 0x3C => rRo
  | 0x40 => rRo
  | 0x44 => rRo
  | 0x48 => rRo
  | 0x4C => rRo
  | 0x50 => rW1c 0x3F
  | 0x54 => rRw 0x3F
  | _ => none

/-- Page 0xB: check units. -/
def checkReg (o : Nat) : Option RegInfo :=
  match o with
  | 0xB800 => rW1c 7
  | 0xB804 => rRw 7
  | 0xB808 => rRo
  | 0xB80C => rRo
  | 0xB810 => rRo
  | _ => if o < 0xB800 then ckReg (o % 0x80) else none

/-- Page 0xC: the peer bridge. -/
def peerReg (o : Nat) : Option RegInfo :=
  match o with
  | 0xC000 => rRw 3 2
  | 0xC004 => rRo
  | 0xC008 => rW1c 0xFFF
  | 0xC00C => rRw 0xFFF
  | 0xC010 => rRw 0xFFF 0x401
  | 0xC080 => rW1c 0x20
  | 0xC084 => rRo
  | 0xC088 => rRo
  | 0xC090 => rW1c 0x20
  | 0xC094 => rRo
  | 0xC098 => rRo
  | 0xC400 => rRo
  | 0xC404 => rRo
  | _ =>
    if 0xC020 ≤ o ∧ o < 0xC040 then rRw 1
    else if 0xC040 ≤ o ∧ o < 0xC080 then (if o % 8 = 0 then rRw 0xFF07 else rRo)
    else none

/-- Page 0xD: consistency. -/
def consReg (o : Nat) : Option RegInfo :=
  match o with
  | 0xD030 => rW1c 0x1F
  | 0xD034 => rRw 0x1F
  | _ => if o < 0xD024 then rRo else none

/-- Pages 0xE and 0xF: calibration, sensors, selvage and boot. -/
def selvageReg (o : Nat) : Option RegInfo :=
  match o with
  | 0xE000 => rRw 0xFF
  | 0xE004 => rRo
  | 0xE008 => rRo
  | 0xE00C => rRo
  | 0xE010 => rRo
  | 0xE014 => rRw 0x0FFF0FFF 0x026C0230
  | 0xE020 => rW1c 0xF
  | 0xE024 => rRw 0xF
  | 0xE040 => rW1c 0xFF
  | 0xE044 => rRw 0xFF
  | 0xF000 => rRwb 1
  | 0xF004 => rRo
  | 0xF008 => rRw allOnes
  | 0xF00C => rRw allOnes
  | 0xF010 => rRw 0x1FFFFF
  | 0xF014 => rRo
  | 0xF018 => rRo
  | 0xF020 => rW1c 0x1F
  | 0xF024 => rRw 0x1F
  | 0xF040 => rRwb 0x1FFFF1 0x3E80
  | 0xF044 => rRwb allOnes 0xFFFF
  | 0xF048 => rRwb 0xFF07 0x100
  | 0xF050 => rRwb allOnes
  | 0xF054 => rRwb allOnes
  | 0xF058 => rRwb 0x7FFFFFF
  | _ =>
    if 0xF060 ≤ o ∧ o < 0xF080 then rRwb allOnes
    else if 0xF080 ≤ o ∧ o < 0xF1A0 then rRwb allOnes
    else if 0xF200 ≤ o ∧ o < 0xF324 then rRwb 0x7FFFFFF
    else if 0xF400 ≤ o ∧ o < 0xF600 then rRwb 0xFFF
    else if 0xF600 ≤ o ∧ o < 0xF800 then
      (if o % 0x40 < 0x28 then rRwb allOnes (if o < 0xF640 then allOnes else 0)
       else if o % 0x40 = 0x28 then rRwb 0xF (if o < 0xF640 then 0xF else 0)
       else none)
    else none

/-- The register at a BAR0 offset (R473); none where the offset is reserved (R468), lies in an aperture or a doorbell
page. -/
def regInfo (o : Nat) : Option RegInfo :=
  if o % 4 ≠ 0 then none
  else match o / 0x1000 with
    | 0 => hostReg o
    | 1 => hostReg o
    | 2 => powerReg o
    | 3 => tapeReg o
    | 4 => mediaReg o
    | 5 => mediaReg o
    | 6 => mediaReg o
    | 7 => mediaReg o
    | 8 => engReg o
    | 9 => if o % 0x10 = 0 then rRw 0x1FFFFF else if o % 0x10 = 4 then rRw 0x3FFFF else rRo
    | 0xA => if o % 0x10 = 0 then rRw 0x1FFFFF else if o % 0x10 = 4 then rRw 0x3FFFF else rRo
    | 0xB => checkReg o
    | 0xC => peerReg o
    | 0xD => consReg o
    | 0xE => selvageReg o
    | 0xF => selvageReg o
    | _ => none

/-- The reset value of a register (R8, R473). -/
def regReset (o : Nat) : Word := w32 ((regInfo o).getD {}).reset

end Sys2Proof.Machine
end

