-- ==== Sys2Proof/Config.lean ====
section
/-!
DEFINITION. The free values of the model: what the spec leaves to the implementation or to the individual device, each a
constant with no body, so that no proof can see a value of it. Each has a row in notes/assumptions.
-/
namespace Sys2Proof.Config

/-- The bucket, 0 to 4,095, that the device's hash of an exact profile and masked key chooses (R144). -/
opaque exactBucket : Nat → List Word → BitVec 12

/-- The rate with which a channel starts in EXT mode: signed, in 2^-64 turn per picosecond (R83). -/
opaque loopRate : Nat → BitVec 64

/-- By how many picoseconds the time that a phase input's edge is given lies off, plus 3,750: at most 1.5 quanta of 2.5 ns either way
(R33, R75, R81). -/
opaque edgeError : Nat → Fin 7501

/-- The servo's frequency correction after its n-th taken sample (R76). -/
opaque servoFreq : Nat → Word

/-- The factory code of a trim in OTP (R460). -/
opaque otpTrim : Nat → BitVec 10

/-- The JEDEC manufacturer identity in IDCODE bits 11 to 1 (R487). -/
opaque jedecId : BitVec 11

/-- The number of cells in the boundary scan chain, less one (R487). -/
opaque scanCells : Nat

/-- What the boundary cells capture at the n-th taken value (R487). -/
opaque scanBits : Nat → Nat

/-- The SHA-256 hash of a public key that OTP holds in a key slot (R436). -/
opaque otpKeyHash : Nat → Nat

/-- Whether OTP has revoked a key slot (R436). -/
opaque otpRevoked : Nat → Bool

/-- The minimum security version in OTP (R436). -/
opaque minSvn : Word

/-- The Vendor ID that the PCI-SIG has assigned to Gorrus Semiconductor (R1). -/
opaque vendorId : BitVec 16

/-- The Revision ID and the other bits of the configuration header that the spec does not state, by word offset (R357). -/
opaque configBits : Nat → Word

/-- What Device Control holds when the host sets Bus Master Enable for the n-th taken value: the codes of Max Payload Size and Max Read
Request Size, and Extended Tag Field Enable; the table has no row for a write of the configuration space (R357, R358). -/
opaque deviceControl : Nat → Fin 3 × Fin 6 × Bool

/-- The 4 KiB block, by its number within a bank's table image, in which the entry of a table key lies (R341, R412). -/
opaque tableBlock : Nat → Fin 384

/-- The bytes of a 4 KiB block of a table image that holds the given entries: each its table key and image words (R341). -/
opaque blockBytes : List (Nat × List Word) → List Byte

/-- The 4 KiB block of the dynamic state in which a slot lies: window slots from 0, SEQ slots from 1,024, cell values from 2,048, pool
counters from 6,144 on (R325, R343). -/
opaque dynBlock : Nat → Nat

/-- A value that the spec does not state, by its number. -/
opaque freeWord : Nat → Word

end Sys2Proof.Config
end

