-- ==== Sys2Proof/Machine/Check.lean ====
section
/-!
DEFINITION. The check values of R304 to R306: the six fixed checks, the opened mode's general CRC, and binding.
-/
namespace Sys2Proof.Machine

/-- The low w bits of a number. -/
def maskW (w v : Nat) : Nat := v % 2 ^ w

/-- One bit step of the running value r of width w (R305). -/
def ckBit (w poly : Nat) (r : Nat) (b : Bool) : Nat :=
  let top := xor (nbit r (w - 1)) b
  let r' := maskW w (r * 2)
  if top then r' ^^^ poly else r'

/-- The bits of a byte in the order that R305 folds them: least significant first when reflected. -/
def ckBits (refin : Bool) (b : Byte) : List Bool :=
  let v := b.toNat
  let l := [nbit v 0, nbit v 1, nbit v 2, nbit v 3, nbit v 4, nbit v 5, nbit v 6, nbit v 7]
  if refin then l else l.reverse

/-- One input byte into the running value (R305). -/
def ckByte (w poly : Nat) (refin : Bool) (r : Nat) (b : Byte) : Nat :=
  (ckBits refin b).foldl (ckBit w poly) r

/-- The result of a running value (R305). -/
def ckResult (w : Nat) (refout : Bool) (xorout r : Nat) : Nat :=
  maskW w ((if refout then revBits w r else r) ^^^ xorout)

/-- Width of fixed check k (R304); 6 and 7 act as 0. -/
def ckWidth (k : Nat) : Nat :=
  match k with
  | 2 => 16
  | 3 => 8
  | 4 => 8
  | 5 => 8
  | _ => 32

/-- Initial running value of fixed check k (R304). -/
def ckInit (k : Nat) : Nat :=
  match k with
  | 2 => 0xFFFF
  | 3 => 0xFF
  | 4 => 0xFF
  | 5 => 0
  | _ => 0xFFFFFFFF

/-- Bytes folded into the running value of fixed check k (R304, R305); XOR-8 exclusive-ors each byte. -/
def ckFold (k : Nat) (r : Nat) (bs : List Byte) : Nat :=
  match k with
  | 1 => bs.foldl (ckByte 32 0x04C11DB7 true) r
  | 2 => bs.foldl (ckByte 16 0x1021 false) r
  | 3 => bs.foldl (ckByte 8 0x1D false) r
  | 4 => bs.foldl (ckByte 8 0x2F false) r
  | 5 => bs.foldl (fun a b => a ^^^ b.toNat) r
  | _ => bs.foldl (ckByte 32 0x1EDC6F41 true) r

/-- The result of fixed check k from its running value (R304). -/
def ckFinal (k : Nat) (r : Nat) : Nat :=
  match k with
  | 1 => ckResult 32 true 0xFFFFFFFF r
  | 2 => ckResult 16 false 0 r
  | 3 => ckResult 8 false 0xFF r
  | 4 => ckResult 8 false 0 r ^^^ 0xFF
  | 5 => r
  | _ => ckResult 32 true 0xFFFFFFFF r

/-- Fixed check k over bytes, bound with a word when one is given (R306). -/
def fixedCheck (k : Nat) (bind : Option Word) (bs : List Byte) : Nat :=
  let r0 := ckInit k
  let r1 := match bind with
    | some w => ckFold k r0 (wordBytes w)
    | none => r0
  ckFinal k (ckFold k r1 bs)

/-- A check result as bytes, least significant first unless BE (R305). -/
def ckBytes (k : Nat) (be : Bool) (v : Nat) : List Byte :=
  let l := natBytes (ckWidth k / 8) v
  if be then l.reverse else l

end Sys2Proof.Machine
end

