-- ==== Sys2Proof/Machine/Rules.lean ====
section
/-!
DEFINITION. Classification (R136 to R165): extractors, key, lookup, and the action chain, as pure functions of a bank, an
engine's dynamic state and a header with the payload bytes present. A result of none means that a byte not yet in the
store was addressed, so the decision parks (R161).
-/
namespace Sys2Proof.Machine

/-- Keys of a bank: table ID times 2^16 plus index. -/
def tkey (t i : Nat) : Nat := t * 65536 + i

/-- The image loaded at an index of a table; the empty image where none was loaded. -/
def img (b : Bank) (t i : Nat) : List Word := ((mapFind b (tkey t i)).map (·.img)).getD []

/-- The domain that loaded an entry (R145). -/
def entDom (b : Bank) (t i : Nat) : Nat := ((mapFind b (tkey t i)).map (·.dom)).getD 0

/-- Signed division rounded to nearest, halves away from zero. -/
def roundDiv (n : Int) (d : Nat) : Int :=
  let q := (2 * n.natAbs + d) / (2 * d)
  if n < 0 then -(Int.ofNat q) else Int.ofNat q

/-- Signed division truncated toward zero. -/
def truncDiv (n : Int) (d : Nat) : Int :=
  let q := n.natAbs / d
  if n < 0 then -(Int.ofNat q) else Int.ofNat q

/-- A value saturated to the 32-bit signed range, as a word (R140). -/
def sat32 (i : Int) : Word := w32 (unsigned 32 (clampInt (-2147483648) 2147483647 i))

/-- A word read as a signed value. -/
def sInt (w : Word) : Int := signed 32 w.toNat

/-- The payload bytes of a sentence as far as they are in the store, and whether its unit has ended. -/
structure PayView where
  bytes : List Byte
  /-- Bytes that were read with the poison tag (R315). -/
  bad : List Bool := []
  final : Bool := true

/-- Position of the first byte of value 0x24 or 0x21 at or after a position (R56, R140). -/
def startPos : List Byte → Nat → Option Nat
  | [], _ => none
  | b :: t, p => if b = 0x24#8 ∨ b = 0x21#8 then some p else startPos t (p + 1)

/-- Text split at a byte. -/
def splitAtByte (c : Byte) : List Byte → List (List Byte)
  | [] => [[]]
  | b :: t =>
    match splitAtByte c t with
    | [] => [[b]]
    | h :: r => if b = c then [] :: h :: r else (b :: h) :: r

/-- The start of the sentence in a payload of a format (R140): for format 0x40 the search starts at byte 8. -/
def sentenceStart (fmt : Nat) (pay : List Byte) : Option Nat :=
  let o := if fmt = 0x40 then 8 else 0
  startPos (pay.drop o) o

/-- Comma field k of the sentence (R140): none parks, some none means that the field does not exist. -/
def commaField (fmt k : Nat) (p : PayView) : Option (Option (List Byte)) :=
  match sentenceStart fmt p.bytes with
  | none => if p.final then some none else none
  | some s =>
    let fs := splitAtByte 0x2C#8 (p.bytes.drop s)
    match fs[k]? with
    | none => if p.final then some none else none
    | some f =>
      if k + 1 < fs.length ∨ p.final ∨ f.contains 0x2A#8 then some (some (f.takeWhile (· ≠ 0x2A#8))) else none

/-- The value of the TAG field with a letter in the TAG blocks before the sentence (R115, R140). -/
def tagField (fmt : Nat) (let_ : Byte) (p : PayView) : Option (Option (List Byte)) :=
  match sentenceStart fmt p.bytes with
  | none => if p.final then some none else none
  | some s =>
    let blocks := splitAtByte 0x5C#8 (p.bytes.take s)
    let fields := blocks.flatMap (fun b => splitAtByte 0x2C#8 (b.takeWhile (· ≠ 0x2A#8)))
    some ((fields.find? (fun f => f.head? = some let_ ∧ f[1]? = some 0x3A#8)).map (·.drop 2))

/-- The decimal digits of a text, folded: value, digits after the point, digits seen, whether a point was seen. -/
def decScan : List Byte → Nat × Nat × Nat × Bool → Option (Nat × Nat × Nat × Bool)
  | [], a => some a
  | b :: t, (v, fr, n, pt) =>
    if 48 ≤ b.toNat ∧ b.toNat ≤ 57 then
      decScan t (v * 10 + (b.toNat - 48), if pt then fr + 1 else fr, n + 1, pt)
    else if b = 0x2E#8 ∧ pt = false then decScan t (v, fr, n, true)
    else none

/-- A decimal text (R140 DEC) as sign, digits and the count of digits after the point. -/
def decParse (f : List Byte) : Option (Int × Nat) :=
  let neg := f.head? = some 0x2D#8
  let body := if f.head? = some 0x2D#8 ∨ f.head? = some 0x2B#8 then f.drop 1 else f
  match decScan body (0, 0, 0, false) with
  | none => none
  | some (v, fr, n, _) =>
    if n = 0 then none else some (if neg then -(Int.ofNat v) else Int.ofNat v, fr)

/-- A hexadecimal text of 1 to 8 digits (R140 HEX). -/
def hexParse (f : List Byte) : Option Nat :=
  if f.length = 0 ∨ 8 < f.length then none
  else f.foldl (fun a b => match a, hexVal b with
    | some v, some d => some (v * 16 + d)
    | _, _ => none) (some 0)

/-- The value of an ASCII field (R140), none on a miss. -/
def asciiValue (parse ty shift : Nat) (f : List Byte) : Option Word :=
  if f.isEmpty then none
  else if parse = 1 then (hexParse f).map w32
  else if parse = 2 then some (w32 (leNat (f.take 4)))
  else (decParse f).map (fun (v, fr) =>
    if ty = 1 then sat32 (roundDiv (v * 65536) (10 ^ fr))
    else sat32 (truncDiv (v * 10 ^ shift) (10 ^ fr)))

/-- Bit i of a payload in one of the two bit orders (R141). -/
def payBit (be : Bool) (pay : List Byte) (i : Nat) : Bool :=
  let b := (byteAt pay (i / 8)).toNat
  if be then nbit b (7 - i % 8) else nbit b (i % 8)

/-- The raw field of width n at bit off (R141). -/
def rawField (be : Bool) (pay : List Byte) (off : Nat) : Nat → Nat
  | 0 => 0
  | n + 1 =>
    if be then rawField be pay off n * 2 + b2n (payBit be pay (off + n))
    else rawField be pay off n + b2n (payBit be pay (off + n)) * 2 ^ n

/-- The value of extractor x of a bank (R139 to R141): the word it yields, none where it parks. -/
def extract (b : Bank) (x fmt : Nat) (tagMark : Bool) (p : PayView) : Option Word :=
  let im := img b 2 x
  let w0 := wordAt im 0
  let w1 := wordAt im 1
  let miss := wordAt im 2
  if field w0 0 2 = 1 then
    let fld := if bit w1 13 then
        (if tagMark then tagField fmt (BitVec.ofNat 8 (field w1 14 8)) p else some none)
      else commaField fmt (field w1 0 8) p
    match fld with
    | none => none
    | some none => some miss
    | some (some f) => some ((asciiValue (field w1 8 2) (field w0 2 1) (field w1 10 3) f).getD miss)
  else if field w0 0 2 = 2 then
    let off := field w1 0 14
    let n := field w1 14 5 + 1
    if p.bytes.length * 8 < off + n then (if p.final then some miss else none)
    else
      let raw := rawField (bit w1 20) p.bytes off n
      let v : Int := if bit w1 19 then signed n raw else Int.ofNat raw
      if field w0 2 1 = 1 then some (sat32 (v * 2 ^ (16 - field w1 21 5)))
      else some (w32 (unsigned 32 v))
  else some miss

/-- The selector that a talker entry's run yields for a format and type code (R138): the enable bits and XSEL. -/
def selectRun (b : Bank) (fmt : Nat) (h5 : Word) (base : Nat) : Nat → Option (Nat × Word)
  | 0 => none
  | n + 1 =>
    let im := img b 1 base
    let w2 := wordAt im 2
    if (h5 &&& wordAt im 1) = (wordAt im 0 &&& wordAt im 1) ∧
        (bit w2 8 = false ∨ field w2 0 8 = fmt) then some (field w2 9 4, wordAt im 3)
    else selectRun b fmt h5 (base + 1) n

/-- F0 to F3 from the selected extractors (R138), none where one parks. -/
def initialF (b : Bank) (fmt : Nat) (tagMark : Bool) (p : PayView) (sel : Option (Nat × Word)) :
    Nat → Option (List Word)
  | 0 => some []
  | n + 1 =>
    match initialF b fmt tagMark p sel n with
    | none => none
    | some l =>
      match sel with
      | none => some (l ++ [0#32])
      | some (en, xs) =>
        if nbit en n then (extract b (field xs (8 * n) 8) fmt tagMark p).map (fun v => l ++ [v])
        else some (l ++ [0#32])

/-- The 256-bit key as eight words (R142). -/
def keyWords (hd : Header) (f : List Word) : List Word :=
  let h0 := wordAt hd.h 0
  let h1 := wordAt hd.h 1
  let len := if hd.early then hd.keyLen else field h0 0 16
  let k5 := len + field h0 24 8 * 0x10000 + field h0 16 5 * 0x1000000 + hd.status * 0x20000000
  let k6 := field h1 20 12 + field h0 21 3 * 0x1000 + hd.hits * 0x10000
  [wordAt hd.h 5, wordAt f 0, wordAt f 1, wordAt f 2, wordAt f 3, w32 k5, w32 k6, 0#32]

/-- The bitwise AND of two word lists. -/
def andWords (a b : List Word) : List Word := List.zipWith (· &&& ·) a b

/-- The index of the lowest bit run: the first step of a matching exact entry (R143, R144). The entries of table 4 are
stored with masked keys; only a record whose talker the loading domain reaches matches (R145). -/
def exactLookup (reach : Nat → Nat → Bool) (talker prof : Nat) (mk : List Word) : Bank → Option Nat
  | [] => none
  | (k, e) :: t =>
    if k / 65536 = 4 ∧ field (wordAt e.img 8) 0 4 = prof ∧ e.img.take 8 = mk ∧ reach e.dom talker then
      some (field (wordAt e.img 8) 4 13)
    else exactLookup reach talker prof mk t

/-- The lowest-indexed valid ternary entry that matches the key (R143). -/
def ternLookup (reach : Nat → Nat → Bool) (talker : Nat) (key : List Word) : Bank → Option Nat
  | [] => none
  | (k, e) :: t =>
    if k / 65536 = 5 ∧ bit (wordAt e.img 16) 13 ∧
        andWords key ((e.img.drop 8).take 8) = e.img.take 8 ∧ reach e.dom talker then
      some (field (wordAt e.img 16) 0 13)
    else ternLookup reach talker key t

/-- The first step of the chain that a key selects (R143). -/
def lookup (reach : Nat → Nat → Bool) (b : Bank) (talker : Nat) (key : List Word) : Option Nat :=
  let te := img b 0 talker
  let w0 := wordAt te 0
  let ex := if bit w0 14 then
      exactLookup reach talker (field w0 15 4)
        (andWords key (let m := img b 3 (field w0 15 4); if m = [] then List.replicate 8 0#32 else m)) b
    else none
  match ex with
  | some st => some st
  | none =>
    match ternLookup reach talker key b with
    | some st => some st
    | none => if bit w0 13 then some (field w0 0 13) else none

/-- A listener set as 128 bits (R159). -/
def lsetOf (b : Bank) (i : Nat) : BitVec 128 :=
  let im := img b 7 i
  BitVec.ofNat 128 ((wordAt im 0).toNat + (wordAt im 1).toNat * 0x100000000 + (wordAt im 2).toNat * 0x10000000000000000 +
    (wordAt im 3).toNat * 0x1000000000000000000000000)

/-- The listeners of a set, ascending. -/
def lsetList (s : BitVec 128) : List Nat := bitsOf 128 s.toNat

/-- The 32-bit stamp cycle recovered from the 6-bit field against a reference count (R51). -/
def fullCycle (cref cyc : Nat) : Nat :=
  let d := (cref + 64 - cyc % 64) % 64
  if d < 32 then (cref + 0x100000000 - d) % 0x100000000 else (cref + 64 - d) % 0x100000000

/-- Whether H4 carries a phase on a channel (R151, R93). -/
def carriesPhase (h4 : Word) (ch : Nat) : Bool := decide (field h4 30 2 = ch ∧ field h4 0 30 ≠ 0x3FFFFFFF)

/-- The statistic of a window slot: 0 MIN, 1 MAX, 2 MEAN (R151). -/
def winStat (stat : Nat) (s : WinSlot) : Word :=
  match stat with
  | 0 => w32 (unsigned 32 s.mn)
  | 1 => w32 (unsigned 32 s.mx)
  | _ => if s.count = 0 then 0#32 else w32 (unsigned 32 (truncDiv s.sum s.count))

/-- A slot after a value has entered it (R151). -/
def winEnter (s : WinSlot) (v : Int) : WinSlot :=
  if s.count = 0 then { s with count := 1, mn := v, mx := v, sum := v }
  else { s with count := s.count + 1, mn := min s.mn v, mx := max s.mx v,
                sum := signed 64 (unsigned 64 (s.sum + v)) }

/-- WINDOW (R151): the slot after the sentence, the statistic that Fi receives, and whether the window closed. -/
def winStep (stat basis ch n : Nat) (h4 : Word) (cyc : Nat) (s : WinSlot) (v : Int) : WinSlot × Word × Bool :=
  if basis = 0 then
    let s' := winEnter s v
    if n ≤ s'.count then ({}, winStat stat s', true) else (s', winStat stat s', false)
  else if carriesPhase h4 ch then
    match s.c0 with
    | none => let s' := { winEnter s v with c0 := some cyc }
              (s', winStat stat s', false)
    | some c0 =>
      if n ≤ (cyc + 0x100000000 - c0) % 0x100000000 ∧ (cyc + 0x100000000 - c0) % 0x100000000 < 0x80000000 then
        ({ winEnter {} v with c0 := some cyc }, winStat stat s, true)
      else let s' := winEnter s v
           (s', winStat stat s', false)
  else let s' := winEnter s v
       (s', winStat stat s', false)

/-- The rule of R47: some missing count when b is later than a, none when out of order. -/
def seqGap (a b : Nat) : Option Nat :=
  let d := (b + 0x100000 - a) % 0x100000
  if d = 0 ∨ 0x80000 ≤ d then none else some (d - 1)

/-- The working state of a chain (R136, R146): the decision so far, the dynamic state, and whether the chain ended. -/
structure Work where
  d : Decision
  dyn : EngDyn
  h5 : Word
  ended : Bool := false

/-- The working state ended by a drop: both sets emptied (R147). -/
def Work.dropIt (w : Work) : Work :=
  { w with ended := true, d := { w.d with lset := 0#128, mir := [], drop := .ruleDrop } }

/-- The working state with Fi set to a value. -/
def Work.setF (w : Work) (i : Nat) (v : Word) : Work := { w with d := { w.d with f := w.d.f.set i v } }

/-- The raw value that SCALE writes back or BIN writes: shifted, rounded, saturated to n bits (R149, R170). -/
def backValue (shift n : Nat) (sgn : Bool) (v : Int) : Nat :=
  let r := roundDiv v (2 ^ shift)
  unsigned n (if sgn then clampInt (-(2 ^ (n - 1) : Int)) (2 ^ (n - 1) - 1) r else clampInt 0 (2 ^ n - 1) r)

/-- The stored value and the computed one of a CHECK step, none where bytes are missing and the unit has not ended. -/
def checkStep (k : Nat) (bind : Option Word) (first cnt voff : Nat) (be : Bool) (p : PayView) : Option Bool :=
  let n := ckWidth k / 8
  let need := max (first + cnt) (voff + n)
  if p.bytes.length < need then (if p.final then some false else none)
  else
    let bad := ((p.bad.drop first).take cnt).any id || ((p.bad.drop voff).take n).any id
    some (!bad && decide (ckBytes k be (fixedCheck k bind ((p.bytes.drop first).take cnt)) =
      (p.bytes.drop voff).take n))

/-- One action step (R146 to R156). cref gives each channel's current cycle count; none parks. -/
def runStep (b : Bank) (hd : Header) (cref : Nat → Nat) (p : PayView) (im : List Word) (w : Work) : Option Work :=
  let w0 := wordAt im 0
  let w1 := wordAt im 1
  let w2 := wordAt im 2
  let h0 := wordAt hd.h 0
  let h1 := wordAt hd.h 1
  let h4 := wordAt hd.h 4
  let fmt := field h0 24 8
  let len := if hd.early then (if p.final then p.bytes.length else hd.keyLen) else field h0 0 16
  -- the length of a unit in progress is known on CAN alone (R108); elsewhere the derivation judges a rewrite by the final LENGTH
  let later := hd.early && !p.final && !decide (0x30 ≤ field h1 20 12 ∧ field h1 20 12 < 0x40)
  let fi := field w0 5 2
  let fv := wordAt w.d.f fi
  match field w0 0 4 with
  | 1 =>
    let s := lsetOf b (field w1 0 12)
    let m := field w0 6 2
    some { w with d := { w.d with lset :=
      if m = 1 then w.d.lset ||| s else if m = 2 then w.d.lset &&& ~~~s else s } }
  | 2 => some { w with d := { w.d with cls := field w0 5 3 } }
  | 3 => some { w with h5 := (w.h5 &&& ~~~w2) ||| (w1 &&& w2), d := { w.d with rewrites := w.d.rewrites ++ [.retag w1 w2 (field w0 5 3)] } }
  | 4 => (extract b (field w1 0 8) fmt hd.tagMark p).map (fun v => w.setF fi v)
  | 5 =>
    let v := sInt fv * sInt w1 + 32768
    let r := sat32 (v / 65536 + sInt w2)
    let w' := w.setF fi r
    let xi := img b 2 (field w0 8 8)
    let x0 := wordAt xi 0
    let x1 := wordAt xi 1
    let off := field x1 0 14
    let n := field x1 14 5 + 1
    if bit w0 7 ∧ field x0 0 2 = 2 ∧ (later ∨ off + n ≤ len * 8) then
      let sh := if field x0 2 1 = 1 then 16 - field x1 21 5 else 0
      some { w' with d := { w'.d with rewrites := w'.d.rewrites ++
        [.bits off n (bit x1 20) (backValue sh n (bit x1 19) (sInt r))] } }
    else some w'
  | 6 =>
    let v := sInt fv
    if sInt w1 ≤ v ∧ v ≤ sInt w2 then some w
    else match field w0 7 2 with
      | 0 => some w.dropIt
      | 1 => some (w.setF fi (if v < sInt w1 then w1 else w2))
      | _ => some { w with d := { w.d with lset := lsetOf b (field w0 9 12) } }
  | 7 =>
    let ch := field w0 10 2
    let slot := field w0 13 10
    let cyc := fullCycle (cref ch) (field h4 24 6)
    let s := mapGet (dflt {}) w.dyn.win slot
    let (s', v, closed) := winStep (field w0 7 2) (field w0 9 1) ch (field w1 0 16) h4 cyc s (sInt fv)
    let w' := { w with dyn := { w.dyn with win := mapSet (dflt {}) w.dyn.win slot s' },
                       d := { w.d with winUpd := mapIns w.d.winUpd slot s' } }
    if bit w0 12 ∧ closed = false then some w'.dropIt else some (w'.setF fi v)
  | 8 =>
    let m := field w0 5 4
    let c := field w0 9 10
    let cells := (bitsOf 4 m).foldl (fun a i => mapSet (dflt 0#32) a (c * 4 + i) (wordAt w.d.f i)) w.dyn.cells
    some { w with dyn := { w.dyn with cells := cells }, d := { w.d with cells := w.d.cells ++ [(c, m, w.d.f)] } }
  | 9 => some { w with d := { w.d with hold := some {
      form := field w0 5 3, chan := field w0 8 2, late := field w0 10 2, lostDrop := bit w0 12, w1 := w1, w2 := w2 } } }
  | 10 => some { w with d := { w.d with counts := w.d.counts ++ [(field w0 6 12, if bit w0 5 then len else 1)] } }
  | 11 =>
    let c := field w0 5 3
    some { w with d := { w.d with mir := (lsetList (lsetOf b (field w1 0 12))).foldl (fun m k => mapIns m k c) w.d.mir } }
  | 12 =>
    let k := field w0 5 3
    let bind := if bit w0 8 then some h1 else none
    match checkStep k bind (field w1 0 11) (field w1 16 11) (field w2 0 11) (bit w2 16) p with
    | none => none
    | some true => some { w with d := { w.d with checks := w.d.checks ++ [(k, 0)] } }
    | some false =>
      if bit w0 9 then some (Work.dropIt { w with d := { w.d with checks := w.d.checks ++ [(k, 2)] } })
      else some { w with d := { w.d with checks := w.d.checks ++ [(k, 1)], chkFail := true } }
  | 13 =>
    let be := bit w0 7
    let ord := fun (l : List Byte) => if be then l.reverse else l
    let cyc := fullCycle (cref (field h4 30 2)) (field h4 24 6)
    let dt := (wordAt hd.h 3).toNat * 0x100000000 + (wordAt hd.h 2).toNat
    let bs := match field w0 5 2 with
      | 0 => ord (natBytes 8 dt)
      | 1 => ord (natBytes 4 dt)
      | 2 => ord (natBytes 4 h4.toNat)
      | _ => ord (natBytes 4 cyc) ++ ord (natBytes 4 (field h4 0 24))
    let off := field w1 0 11
    if later ∨ off + bs.length ≤ len then some { w with d := { w.d with rewrites := w.d.rewrites ++ [.bytes off bs] } }
    else some w
  | 14 => some { w with d := { w.d with tmpl := some (field w0 5 9) } }
  | 15 =>
    let slot := field w0 5 10
    let tk := field h1 20 12
    let sq := field h1 0 20
    let take := fun (w : Work) =>
      { w with dyn := { w.dyn with seq := mapIns w.dyn.seq slot { talker := tk, seq := sq } },
               d := { w.d with seqUpd := mapIns w.d.seqUpd slot { talker := tk, seq := sq } } }
    match mapFind w.dyn.seq slot with
    | none => some (take w)
    | some s =>
      if s.talker ≠ tk then some (take w)
      else match seqGap s.seq sq with
        | some miss =>
          let w' := take w
          if bit w0 16 ∧ miss ≠ 0 then some { w' with d := { w'.d with counts := w'.d.counts ++ [(field w0 17 12, miss)] } }
          else some w'
        | none =>
          let w' := { w with d := { w.d with ooo := w.d.ooo + 1 } }
          if bit w0 15 then some w'.dropIt else some w'
  | _ => some w.dropIt

/-- A chain from a step on: at most n further steps (R146). A step never loaded is DROP (R165). -/
def runChain (b : Bank) (hd : Header) (cref : Nat → Nat) (p : PayView) : Nat → Nat → Work → Option Work
  | 0, _, w => some w
  | n + 1, i, w =>
    if 8191 < i then some w
    else
      let im := img b 6 i
      match runStep b hd cref p im w with
      | none => none
      | some w' => if w'.ended ∨ bit (wordAt im 0) 4 then some w' else runChain b hd cref p n (i + 1) w'

/-- An engine's own pool counters raised by the COUNT operations of a decision (R152, R325). -/
def poolAdd (l : List (Nat × Nat)) (dyn : EngDyn) : EngDyn :=
  { dyn with pool := l.foldl (fun m c => mapSet (dflt 0#64) m c.1 (mapGet (dflt 0#64) m c.1 + BitVec.ofNat 64 c.2)) dyn.pool }

/-- The decision of one record (R136 to R157): none parks. -/
def decideRecord (reach : Nat → Nat → Bool) (b : Bank) (dyn : EngDyn) (hd : Header) (cref : Nat → Nat) (p : PayView) :
    Option (Decision × EngDyn) :=
  let h0 := wordAt hd.h 0
  let h5 := wordAt hd.h 5
  let talker := field (wordAt hd.h 1) 20 12
  let fmt := field h0 24 8
  let te := img b 0 talker
  let sel := selectRun b fmt h5 (field (wordAt te 0) 19 10) (field (wordAt te 1) 0 4)
  match initialF b fmt hd.tagMark p sel 4 with
  | none => none
  | some f =>
    let d0 : Decision := { cls := field h0 21 3, f := f }
    match lookup reach b talker (keyWords hd f) with
    | none => some ({ d0 with drop := .noRule }, dyn)
    | some st =>
      match runChain b hd cref p 4 st { d := d0, dyn := dyn, h5 := h5 } with
      | none => none
      | some w =>
        let d := w.d
        some ((if d.lset = 0#128 ∧ d.mir = [] then { d with drop := .ruleDrop } else d), poolAdd d.counts w.dyn)

end Sys2Proof.Machine
end

