-- ==== Sys2Proof/Machine/Templates.lean ====
section
/-!
DEFINITION. Translation templates (R166 to R171) and the rewrites of a chain (R148, R149, R154), as pure functions that
build content bytes.
-/
namespace Sys2Proof.Machine

/-- A payload with bit i set to a value in one of the bit orders of R141. -/
def setPayBit (be : Bool) (pay : List Byte) (i : Nat) (v : Bool) : List Byte :=
  let b := (byteAt pay (i / 8)).toNat
  let p := if be then 7 - i % 8 else i % 8
  let b' := if nbit b p then b - 2 ^ p else b
  pay.set (i / 8) (BitVec.ofNat 8 (b' + (if v then 2 ^ p else 0)))

/-- A payload with the field of n bits at bit off set to a value (R141, R170 BIN). -/
def setPayField (be : Bool) (off : Nat) (v : Nat) : Nat → List Byte → List Byte
  | 0, pay => pay
  | n + 1, pay =>
    if be then setPayBit be (setPayField be off (v / 2) n pay) (off + n) (nbit v 0)
    else setPayBit be (setPayField be off v n pay) (off + n) (nbit v n)

/-- A payload with bytes overwritten at an offset. -/
def overwrite (pay : List Byte) (off : Nat) (bs : List Byte) : List Byte :=
  pay.take off ++ bs ++ pay.drop (off + bs.length)

/-- The address characters that a 6-bit type code gives (R53, R148). -/
def codeChar (h5 : Word) (i : Nat) : Byte := BitVec.ofNat 8 (field h5 (24 - 6 * i) 6 + 0x20)

/-- Address characters 1 to n of an IEC sentence rewritten from H5, never past the end of the address field (R148). -/
def retagAddr (h5 : Word) (n : Nat) (pay : List Byte) : List Byte :=
  match startPos pay 0 with
  | none => pay
  | some s =>
    let alen := ((pay.drop (s + 1)).takeWhile (fun b => b ≠ 0x2C#8 ∧ b ≠ 0x2A#8)).length
    overwrite pay (s + 1) ((List.range (min n alen)).map (codeChar h5))

/-- One rewrite applied to the type code and the payload of a record of a format (R148, R149, R154); a write that would pass the
payload's end is not carried out. -/
def applyRewrite (fmt : Nat) (a : Word × List Byte) (r : Rewrite) : Word × List Byte :=
  match r with
  | .retag v m n =>
    let h5 := (a.1 &&& ~~~m) ||| (v &&& m)
    (h5, if (fmt = 1 ∨ fmt = 0x22) ∧ 0 < n then retagAddr h5 n a.2 else a.2)
  | .bits off n be v => (a.1, if off + n ≤ 8 * a.2.length then setPayField be off v n a.2 else a.2)
  | .bytes off bs => (a.1, if off + bs.length ≤ a.2.length then overwrite a.2 off bs else a.2)

/-- The rewrites of a chain in step order. -/
def applyRewrites (fmt : Nat) (h5 : Word) (pay : List Byte) (rs : List Rewrite) : Word × List Byte :=
  rs.foldl (applyRewrite fmt) (h5, pay)

/-- The first byte of a write that does not end within n bytes; none of one that does. -/
def Rewrite.openAt (n : Nat) : Rewrite → Option Nat
  | .retag _ _ _ => none
  | .bits off w _ _ => if 8 * n < off + w then some (off / 8) else none
  | .bytes off bs => if n < off + bs.length then some off else none

/-- The decimal digits of a number, at least n of them. -/
def decDigits (n v : Nat) : List Byte :=
  let ds := (Nat.toDigits 10 v).map asc
  List.replicate (n - ds.length) 0x30#8 ++ ds

/-- DEC (R170): a value in decimal. -/
def decText (q16 : Bool) (inShift places minw : Nat) (plus : Bool) (v : Int) : List Byte :=
  let den := if q16 then 65536 else 10 ^ inShift
  let r := roundDiv (v * 10 ^ places) den
  let a := r.natAbs
  let sign : List Byte := if r < 0 then [0x2D#8] else if 0 < r ∧ plus then [0x2B#8] else []
  let frac : List Byte := if places = 0 then [] else 0x2E#8 :: decDigits places (a % 10 ^ places)
  sign ++ decDigits (max minw 1) (a / 10 ^ places) ++ frac

/-- HEX (R170): the low 4n bits of a value as n digits. -/
def hexText (n : Nat) (lower : Bool) (v : Nat) : List Byte :=
  ((List.range n).map (fun i =>
    let d := (v / 16 ^ (n - 1 - i)) % 16
    if lower ∧ 10 ≤ d then BitVec.ofNat 8 (87 + d) else hexDigit d))

/-- Number of literal bytes, operations and the pool of a template image (R166). -/
def tmplOps (im : List Word) : Nat := field (wordAt im 0) 16 4 + 1
/-- LIT_LEN of a template image (R166). -/
def tmplLit (im : List Word) : Nat := field (wordAt im 0) 9 7
/-- The literal pool of a template image (R166). -/
def tmplPool (im : List Word) : List Byte := (wordsBytes (im.drop (2 + tmplOps im))).take (tmplLit im)

/-- What a template reads: its value sources (none is an empty slot, R171), the source sentence for COPYF, and the
binding word of CKSUM. -/
structure TmplSrc where
  vals : List (Option Word)
  fmt : Nat := 0
  pay : List Byte := []
  bind : Word

/-- One operation other than CKSUM (R169, R170). -/
def tmplOp (pool : List Byte) (s : TmplSrc) (c : List Byte) (o : Word) : List Byte :=
  let v := (s.vals.getD (field o 4 2) none)
  match field o 0 4 with
  | 1 => c ++ (pool.drop (field o 4 8)).take (field o 12 7)
  | 2 => c ++ (((commaField s.fmt (field o 4 8) { bytes := s.pay }).getD none).getD [])
  | 3 => match v with
    | none => c
    | some w => c ++ decText (bit o 6) (field o 7 3) (field o 10 3) (field o 14 4) (bit o 13) (sInt w)
  | 4 => match v with
    | none => c
    | some w => c ++ hexText (field o 6 4) (bit o 10) w.toNat
  | 5 => match v with
    | none => c
    | some w =>
      let n := field o 20 5 + 1
      setPayField (bit o 25) (field o 6 14) (backValue (field o 26 5) n (bit o 31) (sInt w)) n c
  | _ => c

/-- One CKSUM operation over the finished content (R170). -/
def tmplCksum (s : TmplSrc) (c : List Byte) (o : Word) : List Byte :=
  if field o 0 4 = 6 then
    let k := field o 4 3
    let v := fixedCheck k (if bit o 7 then some s.bind else none) ((c.drop (field o 8 7)).take (field o 15 7))
    overwrite c (field o 22 7) (ckBytes k (bit o 29) v)
  else c

/-- The content that a template builds (R167, R170). -/
def runTemplate (im : List Word) (s : TmplSrc) : List Byte :=
  let pool := tmplPool im
  let ops := (im.drop 2).take (tmplOps im)
  let c0 := if bit (wordAt im 0) 8 then pool else []
  ops.foldl (tmplCksum s) (ops.foldl (tmplOp pool s) c0)

/-- OUT_FORMAT and MODE form a pair of R168, with its further condition. -/
def tmplPairOk (im : List Word) : Bool :=
  let w0 := wordAt im 0
  let n := tmplLit im
  let place := bit w0 8
  match field w0 0 8 with
  | 0x01 | 0x22 =>
    let o := wordAt im 2
    let b := byteAt (tmplPool im) (field o 4 8)
    !place && decide (field o 0 4 = 1) && decide (b = 0x24#8 ∨ b = 0x21#8)
  | 0x02 | 0x03 | 0x04 | 0x05 | 0x30 => true
  | 0x10 => place && decide (n ≤ 8)
  | 0x11 => place && decide (n ≤ 8 ∨ n = 12 ∨ n = 16 ∨ n = 20 ∨ n = 24 ∨ n = 32 ∨ n = 48 ∨ n = 64)
  | 0x12 => place && decide (5 ≤ n ∧ n ≤ 116)
  | 0x18 => place && decide (1 ≤ n ∧ n ≤ 8)
  | 0x20 | 0x21 => place && decide (14 ≤ n ∧ n ≤ 116)
  | _ => false

/-- One operation word passes the conditions of R169. -/
def tmplOpOk (place : Bool) (n : Nat) (o : Word) : Bool :=
  match field o 0 4 with
  | 1 => !place && decide (1 ≤ field o 12 7 ∧ field o 12 7 ≤ 116 ∧ field o 4 8 + field o 12 7 ≤ n ∧ field o 19 13 = 0)
  | 2 => !place && decide (field o 12 20 = 0)
  | 3 => !place && decide (field o 14 4 ≤ 10 ∧ field o 18 14 = 0)
  | 4 => !place && decide (1 ≤ field o 6 4 ∧ field o 6 4 ≤ 8 ∧ field o 11 21 = 0)
  | 5 => place && decide (field o 26 5 ≤ 16 ∧ field o 6 14 + field o 20 5 + 1 ≤ 8 * n)
  | 6 => place && decide (field o 4 3 ≤ 5 ∧ 1 ≤ field o 15 7 ∧ field o 8 7 + field o 15 7 ≤ n ∧
      field o 22 7 + ckWidth (field o 4 3) / 8 ≤ n ∧ field o 30 2 = 0)
  | _ => false

/-- A template image is accepted (R166, R168, R169). -/
def tmplOk (im : List Word) : Bool :=
  let w0 := wordAt im 0
  decide (im.length = 2 + tmplOps im + (tmplLit im + 3) / 4 ∧ im.length ≤ 32 ∧ tmplLit im ≤ 116 ∧
    field w0 21 11 = 0) && tmplPairOk im &&
    ((im.drop 2).take (tmplOps im)).all (tmplOpOk (bit w0 8) (tmplLit im))

end Sys2Proof.Machine
end

