-- ==== Sys2Proof/Machine/Tables.lean ====
section
/-!
DEFINITION. Loading the tables (R144, R145, R163, R164, R177, R381): the checks of one entry, and the staging bank and
the ownership after it. What a domain reaches is given by two functions, over talkers and over listeners.
-/
namespace Sys2Proof.Machine

/-- What a loading domain may name (R145, R445). -/
structure Reach where
  dom : Nat
  talker : Nat → Bool
  listener : Nat → Bool

/-- Ownership keys of R145: listener sets, templates and cells under their table ID, window slots under 16, SEQ slots
under 17 and pool counters under 18. -/
abbrev Owners := SMap Nat

/-- Whether a domain may refer to an object: it owns it or nobody does (R145). -/
def mayRefer (o : Owners) (dom key : Nat) : Bool :=
  match mapFind o key with
  | none => true
  | some d => decide (d = dom)

/-- The owners after a domain's accepted entry named an object (R145): the first to name it owns it. -/
def claim (dom : Nat) (o : Owners) (key : Nat) : Owners :=
  match mapFind o key with
  | none => mapIns o key dom
  | some _ => o

/-- Whether a talker ID is one of R61. -/
def talkerValid (t : Nat) : Bool :=
  decide (t < 0x54 ∨ (0x60 ≤ t ∧ t < 0x88) ∨ (0x400 ≤ t ∧ t < 0x1000))

/-- Entries of a table per bank (R163); 0 for an undefined table. -/
def tableSize (t : Nat) : Nat :=
  match t with
  | 0 => 4096 | 1 => 1024 | 2 => 256 | 3 => 16 | 4 => 16384 | 5 => 2048 | 6 => 8192 | 7 => 4096 | 8 => 512
  | 9 => 1024 | 10 => 65536 | 15 => 65536 | _ => 0

/-- Image words of an entry (R163, R177); 0 stands for the templates' 2 to 32. -/
def tableWords (t : Nat) : Nat :=
  match t with
  | 0 => 2 | 1 => 4 | 2 => 4 | 3 => 8 | 4 => 9 | 5 => 17 | 6 => 4 | 7 => 4 | 9 => 6 | 10 => 1 | 15 => 1 | _ => 0

/-- The operand bits of W0, W1 and W2 that an action step uses (R146, R155). -/
def actionMask (im : List Word) : Nat × Nat × Nat :=
  match field (wordAt im 0) 0 4 with
  | 0 => (0x1F, 0, 0)
  | 1 => (0xDF, 0xFFF, 0)
  | 2 => (0xFF, 0, 0)
  | 3 => (0xFF, 0xFFFFFFFF, 0xFFFFFFFF)
  | 4 => (0x7F, 0xFF, 0)
  | 5 => (0xFFFF, 0xFFFFFFFF, 0xFFFFFFFF)
  | 6 => (0x1FFFFF, 0xFFFFFFFF, 0xFFFFFFFF)
  | 7 => (0x7FFFFF, 0xFFFF, 0)
  | 8 => (0x7FFFF, 0, 0)
  | 9 => match field (wordAt im 0) 5 3 with
    | 0 => (0x1FFF, 0xFFFFFFFF, 0xFFFFFFFF)
    | 1 => (0x1FFF, 0xFFFFFFFF, 0xFFFFFFFF)
    | 2 => (0x1FFF, 0xFFFFFF, 0)
    | _ => (0x1FFF, 0xFFFFFF, 0xFFFFFFFF)
  | 10 => (0x3FFFF, 0, 0)
  | 11 => (0xFF, 0xFFF, 0)
  | 12 => (0x3FF, 0x07FF07FF, 0x107FF)
  | 13 => (0xFF, 0x7FF, 0)
  | 14 => (0x3FFF, 0, 0)
  | _ => (0x1FFFFFFF, 0, 0)

/-- Only bits of a mask are set. -/
def within (w : Word) (m : Nat) : Bool := decide (w &&& ~~~(w32 m) = 0#32)

/-- An action step passes BAD_FIELD (R146, R150, R155, R164). -/
def actionOk (im : List Word) : Bool :=
  let w0 := wordAt im 0
  let (m0, m1, m2) := actionMask im
  within w0 m0 && within (wordAt im 1) m1 && within (wordAt im 2) m2 && decide (wordAt im 3 = 0#32) &&
  (match field w0 0 4 with
    | 1 => decide (field w0 6 2 ≠ 3)
    | 3 => decide (field w0 5 3 ≤ 5)
    | 6 => decide (field w0 7 2 ≠ 3) && decide (sInt (wordAt im 1) ≤ sInt (wordAt im 2))
    | 7 => decide (field w0 7 2 ≠ 3 ∧ field (wordAt im 1) 0 16 ≠ 0)
    | 9 => decide (field w0 5 3 ≤ 4 ∧ field w0 10 2 ≠ 3)
    | 12 => decide (field w0 5 3 ≤ 5)
    | _ => true)

/-- An extractor passes BAD_FIELD (R139). -/
def extractorOk (im : List Word) : Bool :=
  let w0 := wordAt im 0
  let w1 := wordAt im 1
  within w0 7 && decide (wordAt im 3 = 0#32) &&
  (match field w0 0 2 with
    | 0 => decide (w1 = 0#32)
    | 1 => within w1 0x3FFFFF && decide (field w1 8 2 ≠ 3)
    | 2 => within w1 0x3FFFFFF && decide (field w1 21 5 ≤ 16)
    | _ => false)

/-- An entry image passes BAD_FIELD of its table (R138 to R177). -/
def imageOk (t : Nat) (im : List Word) : Bool :=
  match t with
  | 0 => within (wordAt im 0) 0x1FFFFFFF && within (wordAt im 1) 0xF &&
      decide (field (wordAt im 1) 0 4 ≤ 8 ∧ field (wordAt im 0) 19 10 + field (wordAt im 1) 0 4 ≤ 1024)
  | 1 => within (wordAt im 2) 0x1FFF
  | 2 => extractorOk im
  | 4 => within (wordAt im 8) 0x1FFFF
  | 5 => within (wordAt im 16) 0x3FFF
  | 6 => actionOk im
  | 8 => tmplOk im
  | 9 => within (wordAt im 0) 0x3FFFFFF && within (wordAt im 5) 0xFF &&
      decide (field (wordAt im 0) 0 2 ≠ 0 ∨ 10 ≤ (wordAt im 1).toNat)
  | 10 => within (wordAt im 0) 0x7FF
  | 15 => within (wordAt im 0) 1
  | _ => true

/-- The objects that an entry refers to (R145, R164), as ownership keys. -/
def entryRefs (t : Nat) (im : List Word) : List Nat :=
  let w0 := wordAt im 0
  if t = 6 then
    match field w0 0 4 with
    | 1 => [tkey 7 (field (wordAt im 1) 0 12)]
    | 6 => if field w0 7 2 = 2 then [tkey 7 (field w0 9 12)] else []
    | 7 => [tkey 16 (field w0 13 10)]
    | 8 => [tkey 9 (field w0 9 10)]
    | 10 => [tkey 18 (field w0 6 12)]
    | 11 => [tkey 7 (field (wordAt im 1) 0 12)]
    | 14 => [tkey 8 (field w0 5 9)]
    | 15 => tkey 17 (field w0 5 10) :: (if bit w0 16 then [tkey 18 (field w0 17 12)] else [])
    | _ => []
  else if t = 9 then [tkey 8 (field w0 9 9)]
  else if t = 10 then [tkey (if bit w0 10 then 17 else 16) (field w0 0 10)]
  else []

/-- The talker that an exact or ternary entry names, when its mask covers every bit of K6[11:0] (R145). -/
def namedTalker (b : Bank) (t : Nat) (im : List Word) : Option Nat :=
  if t = 4 then
    let m := img b 3 (field (wordAt im 8) 0 4)
    if field (wordAt m 6) 0 12 = 0xFFF then some (field (wordAt im 6) 0 12) else none
  else if t = 5 then
    if field (wordAt im 14) 0 12 = 0xFFF then some (field (wordAt im 6) 0 12) else none
  else none

/-- An entry stays within the reach of its loading domain (R145, R164, R177, R445). -/
def reachOk (r : Reach) (o : Owners) (b : Bank) (t i : Nat) (im : List Word) : Bool :=
  (entryRefs t im).all (mayRefer o r.dom) &&
  (match namedTalker b t im with
    | some k => r.talker k
    | none => true) &&
  (match t with
    | 0 => r.talker i
    | 7 => (lsetList (BitVec.ofNat 128 ((wordAt im 0).toNat + (wordAt im 1).toNat * 0x100000000 +
        (wordAt im 2).toNat * 0x10000000000000000 + (wordAt im 3).toNat * 0x1000000000000000000000000))).all r.listener
    | 9 => r.talker (0x400 + i) &&
        (decide (field (wordAt im 0) 0 2 ≠ 2) || r.listener (field (wordAt im 0) 18 7))
    | 6 => decide (field (wordAt im 0) 0 4 ≠ 8) || r.talker (0x400 + field (wordAt im 0) 9 10)
    | _ => true)

/-- The owners after an accepted entry (R145): named objects are claimed; a load of a listener set, template or cell
moves its ownership. -/
def ownersAfter (dom t i : Nat) (im : List Word) (o : Owners) : Owners :=
  let o1 := (entryRefs t im).foldl (claim dom) o
  if t = 7 ∨ t = 8 ∨ t = 9 then mapIns o1 (tkey t i) dom else o1

/-- The slot of the exact table that holds a profile and masked key (R144). -/
def exactFind (prof : Nat) (mk : List Word) : Bank → Option Nat
  | [] => none
  | (k, e) :: t =>
    if k / 65536 = 4 ∧ field (wordAt e.img 8) 0 4 = prof ∧ e.img.take 8 = mk then some (k % 65536)
    else exactFind prof mk t

/-- The first free way of a bucket, from way w on (R144). -/
def freeWay (b : Bank) (bucket w : Nat) : Nat → Option Nat
  | 0 => none
  | n + 1 => if (mapFind b (tkey 4 (bucket * 4 + w))).isNone then some (bucket * 4 + w) else freeWay b bucket (w + 1) n

/-- Whether any exact entry of a profile is in a bank (R164 IN_USE). -/
def profileInUse (b : Bank) (p : Nat) : Bool :=
  b.any (fun (k, e) => decide (k / 65536 = 4 ∧ field (wordAt e.img 8) 0 4 = p))

/-- What one entry does to a bank: its status of R164 and the bank. The device stores ternary VALUE AND MASK, and exact
keys masked by the profile in the staging bank (R144). -/
def loadEntry (r : Reach) (o : Owners) (b : Bank) (t i : Nat) (del : Bool) (im : List Word) : Nat × Bank :=
  let ok := if tableWords t = 0 then true else decide (im.length = tableWords t)
  if tableSize t = 0 then (2, b)
  else if t ≠ 4 ∧ t ≠ 10 ∧ t ≠ 15 ∧ (tableSize t ≤ i ∨ (t = 0 ∧ !talkerValid i)) then (3, b)
  else if !ok ∨ (del ∧ t ≠ 4) ∨ !imageOk t im then (4, b)
  else if !reachOk r o b t i im then (5, b)
  else if t = 3 ∧ profileInUse b i then (8, b)
  else if t = 4 then
    let prof := field (wordAt im 8) 0 4
    let m := img b 3 prof
    let mk := andWords (im.take 8) (if m = [] then List.replicate 8 0#32 else m)
    match exactFind prof mk b with
    | some k => if del then (0, mapDel b (tkey 4 k)) else (1, mapIns b (tkey 4 k) { dom := r.dom, img := mk ++ im.drop 8 })
    | none =>
      if del then (7, b)
      else match freeWay b (Config.exactBucket prof mk).toNat 0 4 with
        | none => (6, b)
        | some k => (0, mapIns b (tkey 4 k) { dom := r.dom, img := mk ++ im.drop 8 })
  else if t = 5 then
    let v := andWords (im.take 8) ((im.drop 8).take 8)
    (0, mapIns b (tkey t i) { dom := r.dom, img := v ++ im.drop 8 })
  else if t = 10 then (0, b)
  else if t = 15 then (0, mapIns b (tkey t 0) { dom := r.dom, img := im })
  else (0, mapIns b (tkey t i) { dom := r.dom, img := im })

end Sys2Proof.Machine
end

