-- ==== Sys2Proof/Machine/Ops.lean ====
section
/-!
DEFINITION. The shared operations over the state: registers, causes and counters, store words with parity, bobbins,
references and lanes, pins, sequence numbers, admission, and the making of a record.
-/
namespace Sys2Proof.Machine

/-! ## Registers, causes, counters, outputs -/

/-- A register's stored value. -/
def State.reg (s : State) (o : Nat) : Word := mapGet regReset s.regs o
/-- A register's stored value replaced. -/
def State.setReg (s : State) (o : Nat) (v : Word) : State := { s with regs := mapSet regReset s.regs o v }
/-- A field of a register. -/
def State.rf (s : State) (o lo n : Nat) : Nat := field (s.reg o) lo n
/-- A bit of a register. -/
def State.rb (s : State) (o i : Nat) : Bool := bit (s.reg o) i
/-- The live value of a staged register (R415). -/
def State.liveReg (s : State) (o : Nat) : Word := mapGet regReset s.live o
/-- The live value of a staged register replaced. -/
def State.setLive (s : State) (o : Nat) (v : Word) : State := { s with live := mapSet regReset s.live o v }
/-- The FCLK edge of an instant, by its number: one in 2 ns (R6, R19). -/
def State.edge (s : State) : Nat := s.tape.clk / 0x60000000000
/-- The bits of a register that the device has changed at the present FCLK edge (R6). -/
def State.hotBits (s : State) (o : Nat) : Word := if s.hotAt = s.edge then mapGet (dflt 0#32) s.hot o else 0#32
/-- The device's change of bits m of a register at the present FCLK edge is noted (R6, R469). -/
def touch (o : Nat) (m : Nat) (s : State) : State :=
  { s with hotAt := s.edge,
           hot := mapSet (dflt 0#32) (if s.hotAt = s.edge then s.hot else []) o (s.hotBits o ||| w32 m) }
/-- Cause bits set by the device (R6). -/
def raise (o : Nat) (m : Nat) (s : State) : State := touch o m (s.setReg o (s.reg o ||| w32 m))
/-- A setting's value before a write is kept for captures of instants before the write (R90, R92, R107). -/
def noteWas (o : Nat) (v : Word) (s : State) : State := { s with hist := (s.tape.clk, o, v) :: s.hist }
/-- The value that a setting had at an instant: that before the first write after it. -/
def valueAt (o u : Nat) (v : Word) : List (Nat × Nat × Word) → Word
  | [] => v
  | (c, p, w) :: t => if c ≤ u then v else valueAt o u (if p = o then w else v) t
/-- A register's value at an instant of the clock count (R90, R107). -/
def State.regAt (s : State) (o u : Nat) : Word := valueAt o u (s.reg o) s.hist
/-- The live value of a staged register at an instant (R92). -/
def State.liveAt (s : State) (o u : Nat) : Word := valueAt o u (s.liveReg o) s.hist
/-- A counter of the catalogue (R428). -/
def State.counter (s : State) (i : Nat) : DWord := mapGet (dflt 0#64) s.ctr i
/-- A counter raised by n (R9). -/
def count (i : Nat) (n : Nat) (s : State) : State :=
  { s with ctr := mapSet (dflt 0#64) s.ctr i (s.counter i + BitVec.ofNat 64 n) }
/-- EXTEST, CLAMP or HIGHZ is selected: the balls are cut off from the device's logic (R487). -/
def State.cutOff (s : State) : Bool := decide (s.tap.ir = 0 ∨ s.tap.ir = 4 ∨ s.tap.ir = 5)
/-- Outputs that leave through an LVCMOS ball of the media, timing and power balls. -/
def Output.onBall : Output → Bool
  | .char _ _ _ _ _ => true
  | .linBreak _ _ => true
  | .canFrame _ _ _ _ _ _ => true
  | .canErrorFlag _ => true
  | .pin _ _ => true
  | _ => false
/-- An output driven; what leaves through a ball that is cut off is lost (R487). -/
def emit (o : Output) (s : State) : State := if s.cutOff && o.onBall then s else { s with out := o :: s.out }
/-- A function applied for each element of a list. -/
def forAll {β : Type} (l : List β) (f : β → State → State) (s : State) : State := l.foldl (fun a b => f b a) s
/-- A conditional change. -/
def whenDo (c : Bool) (f : State → State) (s : State) : State := if c then f s else s

/-- The counter of a port (R134, R278). -/
def ctAp (p k : Nat) : Nat := 16 * p + k
/-- The counter of a controller (R302). -/
def ctCn (n k : Nat) : Nat := 768 + 16 * n + k
/-- The counter of a T1S port. -/
def ctTs (n k : Nat) : Nat := 1024 + 12 * n + k
/-- The counter of an uplink. -/
def ctEu (u k : Nat) : Nat := 1072 + 24 * u + k
/-- The counter of a listener (R218). -/
def ctLq (q k : Nat) : Nat := 1120 + 8 * q + k
/-- The translation and cell outcome counter (R186). -/
def ctXc (k : Nat) : Nat := 2144 + 992 + k
/-- The hold outcome counter (R429). -/
def ctHold (k : Nat) : Nat := 2144 + 1000 + k
/-- The counter of a bobbin (R242). -/
def ctBb (b k : Nat) : Nat := 8288 + 4 * b + k
/-- The check-unit counter (R323). -/
def ctCk (k : Nat) : Nat := 10336 + k
/-- The host ring counter (R388). -/
def ctHi (k : Nat) : Nat := 10400 + k
/-- The seam and engine counter (R355). -/
def ctSm (k : Nat) : Nat := 10784 + k
/-- The engine counter (R355). -/
def ctEng (e k : Nat) : Nat := 10784 + 16 + 16 * e + k
/-- The peer link counter (R410). -/
def ctPb (k : Nat) : Nat := 10848 + k

/-- The talker number c of R429. -/
def talkerC (t : Nat) : Nat := if t < 0x54 then t else t - 0x0C

/-- A talker source counter (R429, R430): a partner talker counts at its peer talker, a cell in the sums. -/
def ctTalker (t sub off : Nat) : Nat :=
  if 0x800 ≤ t then 2144 + 8 * talkerC (0x80 + sub) + off
  else if 0x400 ≤ t then (if off = 0 then 2144 + 1006 else 2144 + 1005 + off)
  else 2144 + 8 * talkerC t + off

/-- Count an outcome against a talker. Cells have no counter of junk (R430). -/
def countTalker (t sub off n : Nat) (s : State) : State :=
  if 0x400 ≤ t ∧ t < 0x800 ∧ off = 1 then s else count (ctTalker t sub off) n s

/-! ## Accessors of the maps of State -/

/-- A bobbin. -/
def State.bob (s : State) (b : Nat) : Bob := mapGet (dflt {}) s.bobs b
/-- A bobbin replaced. -/
def State.setBob (s : State) (b : Nat) (v : Bob) : State := { s with bobs := mapSet (dflt {}) s.bobs b v }
/-- A pin-table entry. -/
def State.pin (s : State) (a : Nat) : Option Pin := mapFind s.pins a
/-- A pin-table entry written. -/
def State.setPin (s : State) (a : Nat) (v : Pin) : State := { s with pins := mapIns s.pins a v }
/-- An engine. -/
def State.eng (s : State) (e : Nat) : Eng := mapGet (dflt {}) s.engs e
/-- An engine replaced. -/
def State.setEng (s : State) (e : Nat) (v : Eng) : State := { s with engs := mapSet (dflt {}) s.engs e v }
/-- A merger. -/
def State.mrg (s : State) (m : Nat) : Merger := mapGet (dflt {}) s.mrgs m
/-- A merger replaced. -/
def State.setMrg (s : State) (m : Nat) (v : Merger) : State := { s with mrgs := mapSet (dflt {}) s.mrgs m v }
/-- An egress point. -/
def State.eg (s : State) (p : Nat) : Egress := mapGet (dflt {}) s.egress p
/-- An egress point replaced. -/
def State.setEg (s : State) (p : Nat) (v : Egress) : State := { s with egress := mapSet (dflt {}) s.egress p v }
/-- A port. -/
def State.port (s : State) (p : Nat) : Port := mapGet (dflt {}) s.ports p
/-- A port replaced. -/
def State.setPort (s : State) (p : Nat) (v : Port) : State := { s with ports := mapSet (dflt {}) s.ports p v }
/-- A controller. -/
def State.can (s : State) (n : Nat) : Can := mapGet (dflt {}) s.cans n
/-- A controller replaced. -/
def State.setCan (s : State) (n : Nat) (v : Can) : State := { s with cans := mapSet (dflt {}) s.cans n v }
/-- A T1S port. -/
def State.ts (s : State) (n : Nat) : T1s := mapGet (dflt {}) s.t1s n
/-- A T1S port replaced. -/
def State.setTs (s : State) (n : Nat) (v : T1s) : State := { s with t1s := mapSet (dflt {}) s.t1s n v }
/-- An uplink. -/
def State.up (s : State) (u : Nat) : Uplink := mapGet (dflt {}) s.ups u
/-- An uplink replaced. -/
def State.setUp (s : State) (u : Nat) (v : Uplink) : State := { s with ups := mapSet (dflt {}) s.ups u v }
/-- A ring: 0 to 31 HT, 32 to 63 HR, 64 CMD, 65 CPL. -/
def State.ring (s : State) (r : Nat) : Ring := mapGet (dflt {}) s.rings r
/-- A ring replaced. -/
def State.setRing (s : State) (r : Nat) (v : Ring) : State := { s with rings := mapSet (dflt {}) s.rings r v }
/-- A rate cell. -/
def State.cell (s : State) (c : Nat) : CellSt := mapGet (dflt {}) s.cells c
/-- A rate cell replaced. -/
def State.setCell (s : State) (c : Nat) (v : CellSt) : State := { s with cells := mapSet (dflt {}) s.cells c v }
/-- The next sequence number of a talker (R43). -/
def State.seqOf (s : State) (t : Nat) : Nat := mapGet (dflt 0) s.seqs t
/-- The next number of a talker set. -/
def State.setSeq (s : State) (t n : Nat) : State := { s with seqs := mapSet (dflt 0) s.seqs t (n % 0x100000) }

/-- The latch of an agent for a HI register (R470). -/
def State.latchOf (s : State) (a o : Nat) : Word := mapGet (dflt 0#32) s.latch (a * 0x20000 + o)
/-- A latch set. -/
def setLatch (a o : Nat) (v : Word) (s : State) : State := { s with latch := mapSet (dflt 0#32) s.latch (a * 0x20000 + o) v }

/-! ## Profile and selvage -/

/-- Whether the device is out of reset and not in HIBERNATE: its core runs or is held in NAP. -/
def State.up? (s : State) : Bool := !s.inReset && !s.testEn && decide (s.pw.st ≠ 4)
/-- Whether the core clocks run: RUN or DOZE (R448). -/
def State.awake (s : State) : Bool := s.up? && decide (s.pw.st ≠ 3)
/-- Whether the engines and the seam run (R448, R332, R443). -/
def State.engRun (s : State) : Bool := s.awake && decide (s.pw.st = 1) && !s.boot.stopped

/-- The live engine arrangement (R25). -/
def State.split (s : State) : Bool := s.seam.split

/-- The engine field of an item of SV_ENG_TK (R447). -/
def engItem (s : State) (i : Nat) : Nat :=
  let e := s.rf (0xF080 + 4 * (i / 16)) (2 * (i % 16)) 2
  if e = 3 then 0 else e

/-- The merger that a talker's records enter (R27, R398). -/
def engOf (s : State) (t sub : Nat) : Nat :=
  if s.split = false then 0
  else if 0x800 ≤ t then engItem s (talkerC (0x80 + sub))
  else if 0x400 ≤ t then engItem s (124 + (t - 0x400))
  else engItem s (talkerC t)

/-- The ingress bobbin of a writer for an engine (R447). -/
def ingBob (s : State) (w e : Nat) : Nat := s.rf (0xF200 + 4 * w) (9 * e) 9
/-- The derivation bobbin of an engine. -/
def derivBob (s : State) (e : Nat) : Nat := s.rf 0xF058 (9 * e) 9
/-- The writer of a talker (R467, SV_INGw). -/
def writerOf (t : Nat) : Nat :=
  if t < 0x44 then t
  else if t < 0x54 then 68 + (t - 0x44) / 8
  else if t < 0x80 then 70
  else if t < 0x400 then 71
  else if t < 0x800 then 72
  else 71

/-- H0.PRIO that SE_TKIN gives a talker (R107). -/
def tkPrio (s : State) (t : Nat) : Nat := s.rf (0x8100 + 4 * (t / 8)) (4 * (t % 8)) 3
/-- MALF of a talker (R105). -/
def tkMalf (s : State) (t : Nat) : Bool := s.rb (0x8100 + 4 * (t / 8)) (4 * (t % 8) + 3)

/-- Whether a domain reaches a talker (R445). -/
def domTalker (s : State) (d t : Nat) : Bool :=
  let b := 0xF600 + 0x40 * d
  if 0x800 ≤ t then s.rb (b + 0x28) 3
  else if 0x400 ≤ t then (let g := (t - 0x400) / 16; s.rb (b + 0x20 + 4 * (g / 32)) (g % 32))
  else (let c := talkerC t; s.rb (b + 0x10 + 4 * (c / 32)) (c % 32))
/-- Whether a domain reaches a listener (R445). -/
def domListener (s : State) (d q : Nat) : Bool := s.rb (0xF600 + 0x40 * d + 4 * (q / 32)) (q % 32)
/-- What a domain reaches, for the tables. -/
def reachOf (s : State) (d : Nat) : Reach := { dom := d, talker := domTalker s d, listener := domListener s d }

/-! ## Store and bobbins -/

/-- The offset of BB_n_CARVE. -/
def carveOff (b : Nat) : Nat := 0x9000 + 0x10 * b
/-- The depth in words of a carving (R221). -/
def carveDepth (v : Word) : Nat := 2 ^ field v 15 5
/-- The live carving has EN set. -/
def bobEn (s : State) (b : Nat) : Bool := bit (s.liveReg (carveOff b)) 20
/-- The live depth of a bobbin. -/
def bobDepth (s : State) (b : Nat) : Nat := carveDepth (s.liveReg (carveOff b))
/-- A bobbin of class L (R221). -/
def classL (s : State) (b : Nat) : Bool := decide (12 ≤ field (s.liveReg (carveOff b)) 15 5)
/-- The store address of a position (R228). -/
def posAddr (s : State) (b p : Nat) : Nat :=
  (field (s.liveReg (carveOff b)) 0 15 * 64 + p % bobDepth s b) % 0x200000
/-- Words free for the writer (R228); 0 when the bobbin is not live. -/
def bobFree (s : State) (b : Nat) : Nat :=
  let v := s.bob b
  if bobEn s b then bobDepth s b - (v.wp - v.lp) else 0
/-- Held words (R243 FILL). -/
def bobFill (s : State) (b : Nat) : Nat := (s.bob b).wp - (s.bob b).lp
/-- A bobbin is empty (R222). -/
def bobEmpty (s : State) (b : Nat) : Bool :=
  let v := s.bob b
  decide (v.rp = v.wp) && (!classL s b || decide (v.lp = v.wp))

/-- The bobbin whose live range holds an address, searched from bobbin n - 1 down. -/
def bobOfAddr (s : State) (a : Nat) : Nat → Option Nat
  | 0 => none
  | n + 1 =>
    let v := s.liveReg (carveOff n)
    if bit v 20 ∧ field v 0 15 * 64 ≤ a ∧ a < field v 0 15 * 64 + carveDepth v then some n
    else bobOfAddr s a n

/-- A store word as stored: an address is the 21 bits that name one of the store's 2^21 words (R220). -/
def State.word (s : State) (a : Nat) : StoreWord := mapGet (dflt 0#33) s.store (a % 0x200000)
/-- The data of a store word. -/
def State.data (s : State) (a : Nat) : Word := (s.word a).setWidth 32
/-- A word written with its parity bit (R220). -/
def State.setWord (s : State) (a : Nat) (w : Word) : State :=
  { s with store := mapSet (dflt 0#33) s.store (a % 0x200000) (withParity w) }

/-- The data of the word at a position of a bobbin, without the effects of a read. -/
def laneData (s : State) (b p : Nat) : Word := s.data (posAddr s b p)

/-- What a read that fails parity does besides the poison tag (R236). -/
def noteParity (a : Nat) (b : Nat) (s : State) : State :=
  let s1 := raise 0x8F20 1 (count (ctBb b 3) 1 s)
  s1.setReg 0x8F28 (w32 (a + b * 0x200000))

/-- A read of one store word of a bobbin, with its effects: the state, the data and whether it is clean. -/
def readWord (b a : Nat) (s : State) : State × Word × Bool :=
  let w := s.word a
  if parityOk w then (s, s.data a, true) else (noteParity a b s, s.data a, false)

/-- n words from a position of a bobbin on. -/
def readWords (b : Nat) : Nat → Nat → State → State × List Word × List Bool
  | 0, _, s => (s, [], [])
  | n + 1, p, s =>
    let (s1, w, ok) := readWord b (posAddr s b p) s
    let (s2, ws, oks) := readWords b n (p + 1) s1
    (s2, w :: ws, ok :: oks)

/-- A word pushed into a bobbin; the caller has judged the free space (R225, R229). -/
def pushWord (b : Nat) (w : Word) (s : State) : State :=
  let v := s.bob b
  let s1 := s.setWord (posAddr s b v.wp) w
  count (ctBb b 0) 1 (s1.setBob b { v with wp := v.wp + 1 })

/-- Words pushed in order. -/
def pushWords (b : Nat) (ws : List Word) (s : State) : State := forAll ws (pushWord b) s

/-- The position of the oldest record still pinned in a bobbin. -/
def oldestPin (b : Nat) : SMap Pin → Option Nat
  | [] => none
  | (_, p) :: t =>
    match oldestPin b t with
    | none => if p.bob = b then some p.pos else none
    | some q => if p.bob = b ∧ p.pos < q then some p.pos else some q

/-- RELEASE up to a position (R229): LP becomes the least of it, RP and the notch, and never decreases. -/
def releaseTo (b p : Nat) (s : State) : State :=
  let v := s.bob b
  let q := min p v.rp
  let q := match v.notch with
    | some n => min q n
    | none => q
  if v.lp < q then s.setBob b { v with lp := q } else s

/-- RELEASE of an ingress or derivation bobbin (R233). -/
def releaseBob (b : Nat) (s : State) : State :=
  releaseTo b ((oldestPin b s.pins).getD (s.bob b).wp) s

/-- The pins held on a record. -/
def Pin.held (p : Pin) : Nat := p.refs + p.holds + p.wait

/-- A record whose last pin has ended leaves the side table and its space is released (R190, R233). -/
def unpinCheck (a : Nat) (s : State) : State :=
  match s.pin a with
  | none => s
  | some p =>
    if p.held = 0 ∧ p.complete then releaseBob p.bob { s with pins := mapDel s.pins a } else s

/-- A change of a pin-table entry, then the check of R190. -/
def modPin (a : Nat) (f : Pin → Pin) (s : State) : State :=
  match s.pin a with
  | none => s
  | some p => unpinCheck a (s.setPin a (f p))

/-- A reference ends (R190). -/
def dropRef (a : Nat) (s : State) : State := modPin a (fun p => { p with refs := p.refs - 1 }) s

/-- The stored words of a record that waits in a merger have not been popped (R233). -/
def inMerger (s : State) (a : Nat) : Bool :=
  (s.mrg 0).q.any (fun e => match e with | .head b _ _ => decide (b = a) | _ => false) ||
  (s.mrg 1).q.any (fun e => match e with | .head b _ _ => decide (b = a) | _ => false) ||
  (s.mrg 2).q.any (fun e => match e with | .head b _ _ => decide (b = a) | _ => false)

/-- The first position of an ingress bobbin that the merger has not popped (R233): that of the oldest record
that waits, or the first word after the six header words of one that was issued and is not complete. -/
def unpopped (b : Nat) (s : State) : Nat :=
  s.pins.foldl (fun q e =>
    if e.2.bob ≠ b then q
    else if inMerger s e.1 then min q e.2.pos
    else if e.2.complete then q else min q (e.2.pos + 6))
    (s.bob b).wp

/-- The merger moves RP over what it has popped (R233). -/
def ingressRp (b : Nat) (s : State) : State :=
  releaseBob b (s.setBob b { s.bob b with rp := unpopped b s })

/-! ## Records -/

/-- H0 from its fields (R36). -/
def mkH0 (fmt prio : Nat) (remote xlated poison : Bool) (len : Nat) : Word :=
  w32 (fmt * 0x1000000 + prio * 0x200000 + b2n remote * 0x100000 + b2n xlated * 0x80000 + b2n poison * 0x10000 + len)
/-- H1 (R42). -/
def mkH1 (t seq : Nat) : Word := w32 (t * 0x100000 + seq % 0x100000)

/-- The trailer of R66. -/
def trailerOf (h : List Word) (payWords : List Word) : Word :=
  let h0 := wordAt h 0 &&& ~~~(w32 0x1F0000)
  crc32c (wordsBytes (wordAt h 1 :: h0 :: h.drop 1 ++ payWords))

/-- A whole record as store words (R35). -/
def recordWords (h : List Word) (pay : List Byte) : List Word :=
  let pw := bytesWords pay
  h ++ pw ++ [trailerOf h pw]

/-- Payload words of a length. -/
def payWordsOf (len : Nat) : Nat := (len + 3) / 4

/-- A record as a reader finds it: header, payload words, trailer, poison among header and payload, and of the trailer. -/
structure RecView where
  h : List Word
  pw : List Word
  tr : Word
  bad : Bool
  trBad : Bool
  oks : List Bool := []

/-- The payload bytes of a view. -/
def RecView.pay (v : RecView) : List Byte := (wordsBytes v.pw).take (min 2048 (field (wordAt v.h 0) 0 16))
/-- The trailer verifies (R66, R41). -/
def RecView.ok (v : RecView) : Bool := decide (trailerOf v.h v.pw = v.tr)
/-- Poison of the record: a tagged word, or POISON in the stored H0 (R39). -/
def RecView.poison (v : RecView) : Bool := v.bad || bit (wordAt v.h 0) 16

/-- A reader's reads of a record of a bobbin by address (R236). -/
def readRecord (b p : Nat) (s : State) : State × RecView :=
  let (s1, h, ok1) := readWords b 6 p s
  let n := payWordsOf (min 2048 (field (wordAt h 0) 0 16))
  let (s2, pw, ok2) := readWords b n (p + 6) s1
  let (s3, tr, ok3) := readWords b 1 (p + 6 + n) s2
  (s3, { h := h, pw := pw, tr := wordAt tr 0, bad := (ok1 ++ ok2).any (!·), trBad := ok3.any (!·), oks := ok1 ++ ok2 ++ ok3 })

/-- The six header words of a pinned record, without the effects of a read. -/
def recHead (s : State) (a : Nat) : List Word :=
  match s.pin a with
  | some p => (List.range 6).map (fun i => laneData s p.bob (p.pos + i))
  | none => []

/-- Outcome of the check of a record (R319). -/
inductive RecClass where
  | verified
  | mismatch
  | poison
  | wordPoison
  deriving DecidableEq, Repr

/-- The class of a view (R319). -/
def RecView.cls (v : RecView) : RecClass :=
  if v.poison then .poison
  else if v.trBad then .wordPoison
  else if v.ok then .verified else .mismatch

/-! ## Merger and admission -/

/-- Headers that wait in a merger (R205). -/
def backlog (m : Merger) : Nat := (m.q.filter (fun e => match e with | .head _ _ _ => true | _ => false)).length

/-- The threshold of class c (R205). -/
def admThr (s : State) (c : Nat) : Nat :=
  let k := (7 - c) / 2
  if (7 - c) % 2 = 0 then s.rf (0x8190 + 4 * k) 0 12 else s.rf (0x8190 + 4 * k) 16 12

/-- Whether class c of a merger is refused after its backlog has become n (R205). -/
def admNext (s : State) (n c : Nat) (was : Bool) : Bool :=
  let t := admThr s c
  if c = 0 ∨ t = 0 then false
  else if was then decide (t - s.rf 0x819C 16 12 ≤ n) else decide (t ≤ n)

/-- The refused classes after a change of a merger's backlog; ADM_ACTIVE when a first class becomes refused (R208). -/
def admUpdate (m : Nat) (s : State) : State :=
  let g := s.mrg m
  let n := backlog g
  let r := (List.range 8).foldl (fun a c => a + (if admNext s n c (nbit g.refused c) then 2 ^ c else 0)) 0
  let was := decide ((s.mrg 0).refused = 0 ∧ (s.mrg 1).refused = 0 ∧ (s.mrg 2).refused = 0)
  whenDo (was && decide (r ≠ 0)) (raise 0x81B0 1) (s.setMrg m { g with refused := r })

/-- Whether an element made now goes before one that waits (R19, R161): of two headers of one cycle the lower talker ID goes
first, and a header goes before a token of its cycle. -/
def mergeBefore (e x : MEnt) : Bool :=
  match e, x with
  | .head _ h none, .head _ g none => decide (h.made = g.made ∧ field (wordAt h.h 1) 20 12 < field (wordAt g.h 1) 20 12)
  | .head _ h none, .token _ _ _ m => decide (h.made = m)
  | _, _ => false

/-- An element put into a reversed order behind what it may not precede. -/
def mergeIns (e : MEnt) : List MEnt → List MEnt
  | [] => [e]
  | x :: t => if mergeBefore e x then x :: mergeIns e t else e :: x :: t

/-- An element put into a merger's order (R19, R161). -/
def mergePut (m : Nat) (e : MEnt) (s : State) : State :=
  let g := s.mrg m
  admUpdate m (s.setMrg m { g with q := (mergeIns e g.q.reverse).reverse })

/-- What the making of a record came to. -/
inductive RecOut where
  | recorded
  | full
  | refused
  deriving DecidableEq, Repr

/-- The parts of a record that travel outside it (R104, R92, R316). -/
structure RecMeta where
  status : Nat := 0
  hits : Nat := 0
  tagMark : Bool := false
  sub : Nat := 0
  chkFail : Bool := false
  repaired : Bool := false
  /-- Records of HT rings and peer talkers are held back, not refused (R207). -/
  noRefuse : Bool := false

/-- A finished unit becomes a record (R102, R230): its words are written into the ingress bobbin when all of them are free;
it is sealed, pinned and put into the merger's order, or withdrawn when its class is refused (R206). -/
def addRecord (h : List Word) (pay : List Byte) (x : RecMeta) (s : State) : State × RecOut :=
  let t := field (wordAt h 1) 20 12
  let m := engOf s t x.sub
  let b := ingBob s (writerOf t) m
  let ws := recordWords h pay
  if bobFree s b < ws.length then (s, .full)
  else
    let v := s.bob b
    let a := posAddr s b v.wp
    let s1 := countTalker t x.sub 0 1 (pushWords b ws s)
    if nbit (s.mrg m).refused (field (wordAt h 0) 21 3) ∧ x.noRefuse = false then
      (countTalker t x.sub 2 1 (s1.setBob b { (s1.bob b) with wp := v.wp }), .refused)
    else
      let p : Pin := { bob := b, pos := v.wp, words := ws.length, talker := t, seq := field (wordAt h 1) 0 20, mrg := m,
                       wait := 1, chkFail := x.chkFail, repaired := x.repaired, sub := x.sub }
      let hd : Header := { addr := a, h := h, status := x.status, hits := x.hits, tagMark := x.tagMark, made := s.edge }
      (mergePut m (.head a hd none) (s1.setPin a p), .recorded)

/-- A refused push of a non-blocking writer is counted at the bobbin (R232). -/
def heldSpaceDrop (b : Nat) (s : State) : State := raise 0x8F00 4 (count (ctBb b 1) 1 s)

/-- An ingress unit that finds its bobbin full is abandoned (R106, R232). -/
def abandonFull (t sub : Nat) (s : State) : State :=
  heldSpaceDrop (ingBob s (writerOf t) (engOf s t sub)) (countTalker t sub 2 1 s)

/-! ## References and lanes -/

/-- The two words of a reference (R188). -/
def refWords (r : Ref) : List Word :=
  [w32 (r.addr % 0x200000 + r.cls * 0x200000 + b2n r.held * 0x1000000 + b2n r.mirror * 0x2000000 + b2n r.cut * 0x4000000),
   w32 (r.talker + r.seq * 0x1000)]

/-- A reference from its two words. -/
def refOf (w0 w1 : Word) : Ref :=
  { addr := field w0 0 21, cls := field w0 21 3, held := bit w0 24, mirror := bit w0 25, cut := bit w0 26,
    talker := field w1 0 12, seq := field w1 12 20 }

/-- The offset of SE_LQk_CFG. -/
def lqOff (k : Nat) : Nat := 0x8400 + 8 * k

/-- Lanes of a listener under a configuration word (R191, R219). -/
def laneCount (k : Nat) (cfg : Word) : Nat := if 124 ≤ k then 1 else field cfg 25 2 + 1
/-- The bobbin of lane i (R191, R219). -/
def laneBob (k : Nat) (cfg : Word) (i : Nat) : Nat := if 124 ≤ k then 508 + (k - 124) else (field cfg 16 9 + i) % 512
/-- The lane of a class (R191). -/
def laneOf (k : Nat) (cfg : Word) (c : Nat) : Nat :=
  if 124 ≤ k then 0
  else (let l := field cfg (2 * c) 2; if laneCount k cfg ≤ l then 0 else l)

/-- References in a lane (two words each). -/
def laneRefs (s : State) (b : Nat) : Nat := ((s.bob b).wp - (s.bob b).rp) / 2

/-- The i-th reference in a lane by its words in the store; no effects. -/
def laneRef (s : State) (b i : Nat) : Ref :=
  let p := (s.bob b).rp + 2 * i
  refOf (s.data (posAddr s b p)) (s.data (posAddr s b (p + 1)))

/-- The sentence index of a reference (R197): that of its record. -/
def refIdx (s : State) (r : Ref) : Nat := ((s.pin r.addr).map (·.idx)).getD 0

/-- The read side of a lane moves over its head reference and releases its words (R231). -/
def laneSkip (b : Nat) (s : State) : State :=
  let v := s.bob b
  let s1 := s.setBob b { v with rp := v.rp + 2 }
  if classL s b then releaseTo b (v.rp + 2) s1 else s1.setBob b { v with rp := v.rp + 2, lp := v.rp + 2 }

/-- A lane drop is counted against listener and talker (R202). -/
def laneDropped (k : Nat) (ctr : Nat) (r : Ref) (s : State) : State :=
  let sub := ((s.pin r.addr).map (·.sub)).getD 0
  let s1 := raise 0x81B0 0x20 (countTalker r.talker sub 6 1 (count (ctLq k ctr) 1 s))
  s1.setReg 0x81B8 (w32 (k + 5 * 0x100 + r.talker * 0x100000))

/-- The last routing outcome (R219). -/
def rtOutcome (bitNo k t : Nat) (s : State) : State :=
  (raise 0x81B0 (2 ^ bitNo) s).setReg 0x81B8 (w32 (k + bitNo * 0x100 + t * 0x100000))

/-- A reference of listener k written at the tail of a lane with room, its record pinned once more (R190, R230). -/
def lanePut (k b : Nat) (r : Ref) (s : State) : State :=
  let s := { s with laneLq := mapIns s.laneLq b k }
  match s.pin r.addr with
  | none => pushWords b (refWords r) s
  | some p => pushWords b (refWords r) (s.setPin r.addr { p with refs := p.refs + 1 })

/-- A peer listener whose link is not up is treated as full (R22, R393). -/
def peerFull (k : Nat) (s : State) : Bool := decide (116 ≤ k ∧ k < 124 ∧ s.peer.st ≠ 2 ∧ s.peer.st ≠ 3)

/-- A reference pushed to a listener under its configuration (R22, R194, R202 to R204): whether it is in the lane. -/
def pushRef (k : Nat) (cfg : Word) (r : Ref) (s : State) : State × Bool :=
  let b := laneBob k cfg (laneOf k cfg r.cls)
  if bit cfg 31 = false then (laneDropped k 2 r s, false)
  else if 2 ≤ bobFree s b ∧ peerFull k s = false then (lanePut k b r s, true)
  else if field cfg 27 2 = 1 then
    if 0 < laneRefs s b ∧ (s.bob b).notch = none ∧ bobEn s b then
      let old := laneRef s b 0
      let s1 := dropRef old.addr (laneSkip b (laneDropped k 3 old s))
      (lanePut k b r s1, true)
    else (laneDropped k 3 r (whenDo (!classL s b && decide (bobFree s b < 2)) (count (ctBb b 1) 1) s), false)
  else
    let block := field cfg 27 2 = 2 ∧ ((0x60 ≤ r.talker ∧ r.talker < 0x88))
    let s1 := laneDropped k 2 r (whenDo (!classL s b && decide (bobFree s b < 2)) (count (ctBb b 1) 1) s)
    (if block then rtOutcome 1 k r.talker s1 else s1, false)

/-- Whether any BLOCK listener of a group mask pauses its talkers (R204): XOFF reached in a lane, or, once paused, some
lane above XON. -/
def blockPaused (s : State) (mask : Nat) (was : Bool) : Bool :=
  (List.range 128).any (fun k =>
    let cfg := s.liveReg (lqOff k)
    let w := s.liveReg (lqOff k + 4)
    let xon := field w 8 11
    let xoff := if field w 19 11 ≤ xon then xon + 1 else field w 19 11
    bit cfg 31 && decide (field cfg 27 2 = 2) && nbit mask (field cfg 29 2) &&
      (List.range (laneCount k cfg)).any (fun i =>
        let n := laneRefs s (laneBob k cfg i)
        if was then decide (xon < n) else decide (xoff ≤ n)))

/-- The group mask of an HT ring or peer talker (R204). -/
def blockMask (s : State) (t : Nat) : Nat :=
  if t < 0x80 then s.rf (0x81C0 + 4 * ((t - 0x60) / 8)) (4 * ((t - 0x60) % 8)) 4
  else s.rf 0x81D0 (4 * (t - 0x80)) 4

/-- A free value's number taken. -/
def State.fresh (s : State) : Nat × State := (s.freeCtr, { s with freeCtr := s.freeCtr + 1 })

end Sys2Proof.Machine
end

