-- ==== Sys2Proof/Machine/Clock.lean ====
section
/-!
DEFINITION. Device time, captures, phase channels and targets as functions of the state (R69, R73, R89 to R95). Elapsed
time is counted without steps in units of a third of 2^-40 ns; channels move against elapsed picoseconds.
-/
namespace Sys2Proof.Machine

/-- Units of Tape.clk in a nanosecond. -/
def nsUnits : Nat := 3 * 0x10000000000

/-- Elapsed picoseconds of a count of clock units. -/
def unitsPs (u : Nat) : Nat := u * 1000 / nsUnits
/-- Clock units of picoseconds. -/
def psUnits (p : Nat) : Nat := p * nsUnits / 1000

/-- Elapsed picoseconds now. -/
def State.now (s : State) : Nat := unitsPs s.tape.clk
/-- Elapsed nanoseconds now, for intervals that a step does not touch (R73). -/
def State.elapsedNs (s : State) : Nat := s.tape.clk / nsUnits

/-- DT, in whole nanoseconds, 64 bits (R69). -/
def State.dt (s : State) : Nat := unsigned 64 (Int.ofNat (s.tape.clk / nsUnits) + s.tape.ofs)

/-- The offset of DT against elapsed time that was in force at an earlier instant. -/
def ofsAt (u : Nat) (now : Int) : List (Nat × Int) → Int
  | [] => now
  | (c, before) :: t => if c ≤ u then now else ofsAt u before t

/-- TP_FREQ.FREQ as a signed number (R71). -/
def freqInt (s : State) : Int := sInt s.tape.freq

/-- The clock units of one tick: an ECLK cycle at FULL or LEAN, a REFCLK cycle in NAP (R69, R78). -/
def tickUnits (s : State) : Nat :=
  let k : Nat := if s.pw.st = 3 then 120 else if s.pw.lean then 5 else 3
  (Int.ofNat k * (0x10000000000 + freqInt s)).toNat

/-! ## Phase channels -/

/-- A phase channel. -/
def State.chan (s : State) (n : Nat) : Chan := mapGet (dflt {}) s.tape.chans n
/-- A phase channel replaced. -/
def State.setChan (s : State) (n : Nat) (c : Chan) : State :=
  { s with tape := { s.tape with chans := mapSet (dflt {}) s.tape.chans n c } }
/-- A strobe. -/
def State.strobe (s : State) (n : Nat) : Strobe := mapGet (dflt {}) s.tape.strobes n
/-- A strobe replaced. -/
def State.setStrobe (s : State) (n : Nat) (v : Strobe) : State :=
  { s with tape := { s.tape with strobes := mapSet (dflt {}) s.tape.strobes n v } }

/-- The stretch of motion in force at an instant. -/
def segAt (t : Nat) : List Seg → Seg
  | [] => {}
  | g :: r => if g.t ≤ t then g else segAt t r

/-- A position held within the bounds of its stretch (R85). -/
def segClamp (g : Seg) (p : Int) : Int :=
  let p := match g.lo with
    | some l => max l p
    | none => p
  match g.hi with
  | some h => min h p
  | none => p

/-- The position of a stretch at an instant, in 2^-64 turn. -/
def segPos (g : Seg) (t : Nat) : Int := segClamp g (g.pos + g.rate * Int.ofNat (t - g.t))

/-- A channel's position at an instant. -/
def chanPos (c : Chan) (t : Nat) : Int := segPos (segAt t c.segs) t
/-- A channel's state now: 0 OFF, 1 ACQUIRE, 2 TRACK, 3 HOLDOVER, 4 LOST (R83). -/
def chanSt (c : Chan) : Nat := (c.segs.head?.getD {}).st
/-- The cycle count of a position (R79). -/
def posCyc (p : Int) : Nat := unsigned 32 (p / 0x10000000000000000)
/-- The angle of a position (R79). -/
def posAng (p : Int) : Nat := unsigned 24 (p / 0x10000000000)

/-- The cycle count of a channel now. -/
def cycNow (s : State) (n : Nat) : Nat := posCyc (chanPos (s.chan n) s.now)

/-- H4 of a stamp on a channel at an instant (R49, R50). -/
def h4At (s : State) (n t : Nat) : Word :=
  let c := s.chan n
  let g := segAt t c.segs
  let v := (posCyc (segPos g t) % 64) * 0x1000000 + posAng (segPos g t)
  let v := if g.st = 0 ∨ g.st = 4 then 0x3FFFFFFF else if v = 0x3FFFFFFF then 0x3FFFFFFE else v
  w32 (n * 0x40000000 + v)

/-- Whether window n, as it was set at clock count u, hits at an instant (R92). -/
def windowHit (s : State) (n t u : Nat) : Bool :=
  let a := s.liveAt (0x3200 + 8 * n) u
  let e := field (s.liveAt (0x3204 + 8 * n) u) 0 24
  let st := field a 0 24
  let g := segAt t (s.chan (field a 24 2)).segs
  let ang := posAng (segPos g t)
  bit a 27 && decide (g.st ≠ 0 ∧ g.st ≠ 4) && (!bit a 26 || decide (g.st = 2)) &&
    (if st ≤ e then decide (st ≤ ang ∧ ang ≤ e) else decide (st ≤ ang ∨ ang ≤ e))

/-- The four hit bits at an instant (R92). -/
def hitsAt (s : State) (t : Nat) (u : Nat := psUnits t) : Nat :=
  (List.range 4).foldl (fun a n => a + (if windowHit s n t u then 2 ^ n else 0)) 0

/-- The stamp channel of a talker at clock count u (R90). -/
def tkChan (s : State) (t : Nat) (u : Nat := s.tape.clk) : Nat :=
  if t < 0x88 then field (s.regAt (0x3080 + 4 * (t / 16)) u) (2 * (t % 16)) 2 else 0
/-- PRIO and MALF of a talker at clock count u (R107). -/
def tkinAt (s : State) (t u : Nat) : Nat := field (s.regAt (0x8100 + 4 * (t / 8)) u) (4 * (t % 8)) 4
/-- The PRIO and the MALF that a capture took (R105, R107). -/
def Cap.prio (c : Cap) : Nat := c.tkin % 8
/-- MALF at the capture point (R105). -/
def Cap.malf (c : Cap) : Bool := nbit c.tkin 3

/-! ## Captures -/

/-- The width of a trim in bits (R460). -/
def trimWidth (k : Nat) : Nat := if k = 130 then 10 else if 132 ≤ k ∧ k ≤ 135 then 6 else 8
/-- The factory code of a trim (R460). -/
def trimFactory (k : Nat) : Nat := (Config.otpTrim k).toNat % 2 ^ trimWidth k
/-- The effective code of a trim under a set of user offsets (R461). -/
def trimEff (offs : SMap Int) (k : Nat) : Nat :=
  (clampInt 0 (2 ^ trimWidth k - 1) (Int.ofNat (trimFactory k) + mapGet (dflt 0) offs k)).toNat
/-- The input delay of a trim in picoseconds. -/
def trimPs (s : State) (k : Nat) : Nat := 20 * trimEff s.pw.calLive.offs k

/-- The capture of an instant that lies some picoseconds back, floored to a quantum in tenths of a nanosecond, and stamped
on a channel (R89, R91, R92). Quantum 0 takes the instant as it is. -/
def capture (s : State) (age quantum chanN : Nat) (coarse : Bool) : Cap :=
  let u := s.tape.clk - psUnits age
  let ofs := ofsAt u s.tape.ofs s.tape.steps * Int.ofNat nsUnits
  let d := Int.ofNat u + ofs
  let q := if quantum = 0 then d
    else (d * 10 / Int.ofNat (quantum * nsUnits)) * Int.ofNat (quantum * nsUnits) / 10
  let t := unitsPs (q - ofs).toNat
  let tick := unsigned 16 (q * 10 / Int.ofNat (25 * nsUnits))
  { dt := unsigned 64 ((2 * q + Int.ofNat nsUnits) / Int.ofNat (2 * nsUnits)), h4 := h4At s chanN t, hits := hitsAt s t u,
    tick := if coarse then tick / 8 * 8 else tick }

/-- A capture for a talker: its channel, PRIO and MALF are those in force at the instant (R90, R107). -/
def captureTk (s : State) (talker age quantum : Nat) (coarse : Bool) : Cap :=
  let u := s.tape.clk - psUnits age
  { capture s age quantum (tkChan s talker u) coarse with tkin := tkinAt s talker u }

/-- A capture of an async, CAN or LIN talker (R89, R91): 2.5 ns FINE, 20 ns COARSE, with the input delay of a trim. -/
def captureFine (s : State) (talker age trim : Nat) : Cap :=
  captureTk s talker (age + trimPs s trim) (if s.pw.coarse then 200 else 25) s.pw.coarse

/-! ## Targets -/

/-- How far a position lies beyond a cycle and angle, in 2^-64 turn, by the half-range rule. -/
def beyond (p : Int) (cyc ang : Nat) : Int :=
  signed 96 (unsigned 96 (p - (Int.ofNat cyc * 0x10000000000000000 + Int.ofNat ang * 0x10000000000)))

/-- How far a channel is past a phase target in the direction it turned in at acceptance, in 2^-64 turn, by the half-range rule:
not negative when the target is reached or passed (R85, R93, R95). -/
def phasePast (s : State) (ch cyc ang : Nat) (rev : Bool) : Int :=
  let d := beyond (chanPos (s.chan ch) s.now) cyc ang
  if rev then -d else d

/-- A channel turns in reverse (R85). -/
def turnsBack (s : State) (ch : Nat) : Bool := decide (((s.chan ch).segs.head?.getD {}).rate < 0)

/-- Whether a motion from one position to another reaches an angle in a cycle whose 32-bit count is a multiple of a number, the
first position not counted (R100, R178). -/
def reaches (p q ang : Int) (div : Nat) : Bool :=
  let t : Int := 0x10000000000000000
  (List.range (2 * div)).any (fun i =>
    let n : Int := if p < q then (p - ang) / t + 1 + Int.ofNat i else -((ang - p) / t) - 1 - Int.ofNat i
    let x := n * t + ang
    decide ((p < x ∧ x ≤ q) ∨ (q ≤ x ∧ x < p)) && decide (unsigned 32 n % div = 0))

/-- Whether a channel has reached an angle, in a cycle as said, after an instant and until another, in a stretch whose state
qualifies; stretches newest first. -/
def motionReaches (ok : Nat → Bool) (ang : Int) (div since until_ : Nat) : List Seg → Bool
  | [] => false
  | g :: r =>
    let a := max since g.t
    (decide (a < until_) && ok g.st && reaches (segPos g a) (segPos g until_) ang div) ||
      (decide (since < g.t ∧ g.t ≤ until_) && ok g.st && g.pre.any (fun p => reaches p (segPos g g.t) ang div)) ||
      (decide (since < g.t) && motionReaches ok ang div since (min until_ g.t) r)

/-- The elapsed time, in ps, at which the motion last came to a position; stretches newest first. -/
def reachTime (x : Int) (until_ : Nat) : List Seg → Option Nat
  | [] => none
  | g :: r =>
    let p := segPos g g.t
    let q := segPos g until_
    if g.rate ≠ 0 ∧ ((p ≤ x ∧ x ≤ q) ∨ (q ≤ x ∧ x ≤ p)) then
      some (g.t + ((x - p).natAbs + g.rate.natAbs - 1) / g.rate.natAbs)
    else reachTime x g.t r

/-- DT of an instant of elapsed time in ps, by the offset then in force (R69). -/
def State.dtOf (s : State) (t : Nat) : Nat := unsigned 64 (Int.ofNat (t / 1000) + ofsAt (psUnits t) s.tape.ofs s.tape.steps)

/-- A channel on which no phase target can wait (R97). -/
def chanLost (s : State) (ch : Nat) : Bool := decide (chanSt (s.chan ch) = 0 ∨ chanSt (s.chan ch) = 4)

/-- Whether DT or the channel has reached a target. -/
def targetDue (s : State) : Target → Bool
  | .dt t => decide (t ≤ s.dt)
  | .phase ch cyc ang rev => decide (0 ≤ phasePast s ch cyc ang rev)

/-- Whether a target lies in the past already or 2^31 cycles or more ahead (R95): a DT before now, an angle before the present
one, a cycle beyond the half range. -/
def targetLate (s : State) : Target → Bool
  | .dt t => decide (t < s.dt)
  | .phase ch cyc ang rev =>
    let k := (if rev then cycNow s ch + 0x100000000 - cyc else cyc + 0x100000000 - cycNow s ch) % 0x100000000
    decide (0x80000000 ≤ k) || (decide (k = 0) && decide (0 < phasePast s ch cyc ang rev))

/-- The first cycle in which a channel at a position reaches an angle, in the direction it turns in (R85, R93). -/
def firstReach (ch ang : Nat) (rev : Bool) (p : Int) : Target :=
  let here := decide (posAng p = ang ∧ p % 0x10000000000 = 0)
  if rev then
    if ang ≤ posAng p then .phase ch (posCyc p) ang true else .phase ch ((posCyc p + 0xFFFFFFFF) % 0x100000000) ang true
  else if posAng p < ang ∨ here = true then .phase ch (posCyc p) ang false
  else .phase ch ((posCyc p + 1) % 0x100000000) ang false

/-- NEXT_ANGLE (R93): the first cycle in which the channel reaches the angle after the guard. -/
def nextAngle (s : State) (ch ang : Nat) : Target :=
  let g := max 20 (s.rf 0x3048 0 16)
  firstReach ch ang (turnsBack s ch) (segPos ((s.chan ch).segs.head?.getD {}) (s.now + 1000 * g))

/-- The next cycle in which a late phase target is not late (R95 NEXT). -/
def nextNotLate (s : State) (ch ang : Nat) : Target := firstReach ch ang (turnsBack s ch) (chanPos (s.chan ch) s.now)

/-- The DT at which a held entry's target came, as its release is late or early by it (R200): a phase target's is the instant at
which the channel came to it, none when no motion did. -/
def targetDt (s : State) : Target → Option Nat
  | .dt t => some t
  | .phase ch cyc ang _ =>
    let p := chanPos (s.chan ch) s.now
    (reachTime (p - beyond p cyc ang) s.now (s.chan ch).segs).map s.dtOf

/-- A hold's target, resolved at acceptance (R93); none when it cannot be resolved or its channel is lost (R97). The record's
stamp is its H2, H3 and H4. -/
def holdTarget (s : State) (x : HoldSpec) (stamp : Nat) (h4 : Word) : Option Target :=
  let d := (mkD x.w2 x.w1).toNat
  let ang := field x.w1 0 24
  match x.form with
  | 0 => some (.dt d)
  | 1 => some (.dt ((Int.ofNat stamp + signed 64 d).toNat % 0x10000000000000000))
  | 2 => if chanLost s x.chan then none else some (nextAngle s x.chan ang)
  | 3 => if chanLost s x.chan then none else some (.phase x.chan x.w2.toNat ang (turnsBack s x.chan))
  | _ =>
    if chanLost s x.chan ∨ carriesPhase h4 x.chan = false then none
    else some (.phase x.chan ((fullCycle (cycNow s x.chan) (field h4 24 6) + x.w2.toNat) % 0x100000000) ang (turnsBack s x.chan))

end Sys2Proof.Machine
end

