-- ==== Sys2Proof/Machine/Parse.lean ====
section
/-!
DEFINITION. The character parsers of the framings (R114 to R124): IEC 61162-1, SLIP, COBS, idle-gap and raw, as pure
functions of one character and the unit in progress.
-/
namespace Sys2Proof.Machine

/-- The settings of the IEC parser: AP_FRM_CTRL and AP_FRM_LEN, or a datagram stream's (R129, R135). -/
structure IecCfg where
  cks : Nat
  tag : Nat
  lenient : Bool
  maxlen : Nat
  tagmax : Nat

/-- What one character did to a unit: the unit goes on, or it has ended with a status, and whether the character was part
of it. A character that was not is then handled outside a unit. -/
inductive ParseOut (σ : Type) where
  | more (s : σ)
  | done (s : σ) (status : Nat) (consumed : Bool)

/-- AP_FRM_LEN.MAXLEN of IEC framing: below 8 acts as 8, above 2,053 as 2,053 (R119). -/
def iecMax (v : Nat) : Nat := if v < 8 then 8 else if 2053 < v then 2053 else v

/-- MAXLEN of SLIP, COBS, idle-gap and raw framing: 0 and above 2,048 act as 2,048 (R122). -/
def byteMax (v : Nat) : Nat := if v = 0 ∨ 2048 < v then 2048 else v

/-- A character that begins a unit or a new unit in IEC framing (R114). -/
def iecStarter (c : Byte) : Bool := decide (c = 0x24#8 ∨ c = 0x21#8 ∨ c = 0x5C#8)

/-- The IEC parser at the first character of a unit: a TAG block or the sentence (R114). -/
def iecBegin (keepTag : Bool) (c : Byte) : Iec :=
  if c = 0x5C#8 then { ph := .tag, pay := if keepTag then [c] else [], tagChars := 1 }
  else { ph := .addr, pay := [c], cnt := 1, start := some c }

/-- The first character of a unit under its settings: a TAG character that TAGMAX does not admit ends it OVERLENGTH (R114, R115). -/
def iecFirst (g : IecCfg) (c : Byte) : ParseOut Iec :=
  let s := iecBegin (decide (g.tag ≠ 0)) c
  if g.tagmax < s.tagChars then .done s 6 true else .more s

/-- A letter of either case. -/
def isLetter (b : Byte) : Bool := decide ((65 ≤ b.toNat ∧ b.toNat ≤ 90) ∨ (97 ≤ b.toNat ∧ b.toNat ≤ 122))

/-- A TAG block's fields are each a letter, a colon and a value (R115 PARSE). -/
def tagFieldsOk (body : List Byte) : Bool :=
  (splitAtByte 0x2C#8 body).all (fun f => match f with
    | l :: c :: _ :: _ => isLetter l && decide (c = 0x3A#8)
    | _ => false)

/-- Whether an address field holds 2 to 16 digits or upper-case letters (R116). -/
def addrOk (a : List Byte) : Bool :=
  decide (2 ≤ a.length ∧ a.length ≤ 16) &&
    a.all (fun b => decide ((48 ≤ b.toNat ∧ b.toNat ≤ 57) ∨ (65 ≤ b.toNat ∧ b.toNat ≤ 90)))

/-- The 6-bit code of a character (R53). -/
def charCode (b : Option Byte) : Nat :=
  match b with
  | some c => if 0x20 ≤ c.toNat ∧ c.toNat ≤ 0x5F then c.toNat - 0x20 else 0x3F
  | none => 0x3F

/-- H5 of an IEC unit (R52, R53): all ones where the unit ended before its start character. -/
def iecH5 (s : Iec) : Word :=
  match s.start with
  | none => 0xFFFFFFFF#32
  | some c =>
    let st := if c = 0x21#8 then 1 else 0
    w32 (st * 0x40000000 + charCode s.addr[0]? * 0x1000000 + charCode s.addr[1]? * 0x40000 + charCode s.addr[2]? * 0x1000 +
      charCode s.addr[3]? * 0x40 + charCode s.addr[4]?)

/-- The status of a sentence that reaches its end of line (R103, R117). -/
def iecEolStatus (g : IecCfg) (s : Iec) : Nat :=
  let ck :=
    if s.ckSeen then (if g.cks = 0 ∨ s.ck = s.x then 0 else 1)
    else if g.cks = 2 ∨ g.cks = 3 then 2 else 0
  max s.st ck

/-- The unit with a status noted: the highest code counts (R103). -/
def Iec.note (s : Iec) (st : Nat) : Iec := { s with st := max s.st st }

/-- The unit as its address field ends: SYNTAX unless R116 holds. -/
def Iec.endAddr (s : Iec) : Iec := if addrOk s.addr then s else s.note 5

/-- The end of a unit at a character that breaks its form: SYNTAX, or ABORTED at a character that begins a new unit
(R114, R117, R118). -/
def iecBreak (s : Iec) (c : Byte) : ParseOut Iec :=
  .done s (max s.st (if iecStarter c then 7 else 5)) false

/-- Whether a further sentence character would pass MAXLEN, or a kept payload byte the payload limit (R119). -/
def iecOver (g : IecCfg) (s : Iec) (payByte : Bool) : Bool :=
  decide (iecMax g.maxlen < s.cnt + 1) || (payByte && decide (2048 < s.pay.length + 1))

/-- One character inside a TAG block (R115). -/
def iecTag (g : IecCfg) (s : Iec) (c : Byte) : ParseOut Iec :=
  let keep := decide (g.tag ≠ 0)
  let s1 := { s with tagChars := s.tagChars + 1, pay := if keep then s.pay ++ [c] else s.pay }
  let tooLong : ParseOut Iec := .done s (max s.st 6) false
  let full := decide (g.tagmax < s.tagChars + 1) || (keep && decide (2048 < s.pay.length + 1))
  match s.ph with
  | .tag =>
    if c = 0x5C#8 ∨ c = 0x24#8 ∨ c = 0x21#8 then iecBreak s c
    else if c = 0x2A#8 then (if full then tooLong else .more { s1 with ph := .tagC1 })
    else if c.toNat < 0x20 ∨ 0x7E < c.toNat then iecBreak s c
    else if full then tooLong
    else .more { s1 with tagX := s.tagX ^^^ c.toNat, tagBody := s.tagBody ++ [c] }
  | .tagC1 =>
    match hexVal c with
    | some d => if full then tooLong else .more { s1 with ph := .tagC2, tagDig := d }
    | none => iecBreak s c
  | .tagC2 =>
    match hexVal c with
    | some d => if full then tooLong else .more { s1 with ph := .tagEnd, tagDig := s.tagDig * 16 + d }
    | none => iecBreak s c
  | .tagEnd =>
    if c = 0x5C#8 then
      if full then tooLong
      else
        let s2 := { s1 with ph := .tagAfter, tagX := 0, tagBody := [] }
        if 2 ≤ g.tag then
          let s3 := if s.tagX = s.tagDig then s2 else s2.note 1
          .more (if tagFieldsOk s.tagBody then s3 else s3.note 5)
        else .more s2
    else iecBreak s c
  | _ =>
    if c = 0x5C#8 then (if full then tooLong else .more { s1 with ph := .tag })
    else if c = 0x24#8 ∨ c = 0x21#8 then
      if iecOver g s true then tooLong
      else .more { s with ph := .addr, start := some c, cnt := 1, pay := s.pay ++ [c] }
    else iecBreak s c

/-- One character inside a sentence (R116 to R119). -/
def iecSent (g : IecCfg) (s : Iec) (c : Byte) : ParseOut Iec :=
  let s1 := { s with cnt := s.cnt + 1 }
  let tooLong : ParseOut Iec := .done s (max s.st 6) false
  if iecStarter c then .done s 7 false
  else if c = 0x0D#8 ∧ (s.ph = .addr ∨ s.ph = .data ∨ s.ph = .ckEol) then
    if iecOver g s false then tooLong
    else .more { (if s.ph = .addr then s1.endAddr else s1) with ph := .cr }
  else if c = 0x0A#8 ∧ (s.ph = .addr ∨ s.ph = .data ∨ s.ph = .ckEol) then
    if iecOver g s false then tooLong
    else
      let s2 := if s.ph = .addr then s1.endAddr else s1
      if g.lenient then .done s2 (iecEolStatus g s2) true else .done s2 (max s2.st 5) true
  else match s.ph with
  | .cr =>
    if c = 0x0A#8 then (if iecOver g s false then tooLong else .done s1 (iecEolStatus g s1) true)
    else iecBreak s c
  | .ck1 =>
    match hexVal c with
    | some d => if iecOver g s false then tooLong else .more { s1 with ph := .ck2, ck := d }
    | none => iecBreak s c
  | .ck2 =>
    match hexVal c with
    | some d => if iecOver g s false then tooLong else .more { s1 with ph := .ckEol, ck := s.ck * 16 + d, ckSeen := true }
    | none => iecBreak s c
  | .ckEol => iecBreak s c
  | _ =>
    if c = 0x2A#8 then
      if iecOver g s false then tooLong
      else .more { (if s.ph = .addr then s1.endAddr else s1) with ph := .ck1 }
    else if iecOver g s true then tooLong
    else
      let s2 := { s1 with pay := s.pay ++ [c], x := s.x ^^^ c.toNat }
      let s3 := if c.toNat < 0x20 ∨ 0x7E < c.toNat then s2.note 5 else s2
      if s.ph = .addr then
        (if c = 0x2C#8 then .more { s3.endAddr with ph := .data } else .more { s3 with addr := s.addr ++ [c] })
      else .more s3

/-- One character of an IEC unit (R114 to R119). -/
def iecChar (g : IecCfg) (s : Iec) (c : Byte) : ParseOut Iec :=
  match s.ph with
  | .tag | .tagC1 | .tagC2 | .tagEnd | .tagAfter => iecTag g s c
  | _ => iecSent g s c

/-- The unit with decoded bytes appended, or ended OVERLENGTH when they would pass MAXLEN (R122 to R124). -/
def pushBytes (u : UnitSt) (maxlen : Nat) (bs : List Byte) : ParseOut UnitSt :=
  if maxlen < u.pay.length + bs.length then .done u (max u.st 6) true
  else .more { u with pay := u.pay ++ bs }

/-- One byte of a SLIP unit other than one that finds no unit (R120). -/
def slipChar (maxlen : Nat) (u : UnitSt) (c : Byte) : ParseOut UnitSt :=
  if u.esc then
    let u1 := { u with esc := false }
    if c = 0xC0#8 then .done u1 (max u.st 5) true
    else if c = 0xDC#8 then pushBytes u1 maxlen [0xC0#8]
    else if c = 0xDD#8 then pushBytes u1 maxlen [0xDB#8]
    else pushBytes { u1 with st := max u.st 5 } maxlen [c]
  else if c = 0xC0#8 then .done u u.st true
  else if c = 0xDB#8 then .more { u with esc := true }
  else pushBytes u maxlen [c]

/-- One byte of a COBS unit (R121). -/
def cobsChar (maxlen : Nat) (u : UnitSt) (c : Byte) : ParseOut UnitSt :=
  if c = 0x00#8 then .done u (if u.cobsLeft = 0 then u.st else max u.st 5) true
  else if u.cobsLeft = 0 then
    let u1 := { u with cobsLeft := c.toNat - 1, cobsZero := decide (c ≠ 0xFF#8) }
    if u.cobsZero then pushBytes u1 maxlen [0x00#8] else .more u1
  else pushBytes { u with cobsLeft := u.cobsLeft - 1 } maxlen [c]

/-- The payload bytes of a character: one, or two with 9-bit characters (R111). -/
def charBytes (nine : Bool) (v : Nat) : List Byte :=
  if nine then [BitVec.ofNat 8 v, BitVec.ofNat 8 (v / 256 % 2)] else [BitVec.ofNat 8 v]

/-- The length of a raw unit in payload bytes (R124). -/
def rawLen (nine : Bool) (v : Nat) : Nat :=
  let m := byteMax v
  if nine then 2 * (max 1 (m / 2)) else m

/-- One character of a raw unit (R124). -/
def rawChar (maxlen : Nat) (u : UnitSt) (v : Nat) : ParseOut UnitSt :=
  let u1 := { u with pay := u.pay ++ charBytes u.nine v }
  if rawLen u.nine maxlen ≤ u1.pay.length then .done u1 u.st true else .more u1

/-- The parity bits of a LIN identifier, as the protected identifier (R272). -/
def linPid (id : Nat) : Byte :=
  let b := fun i => b2n (nbit id i)
  let p0 := (b 0 + b 1 + b 2 + b 4) % 2
  let p1 := (b 1 + b 3 + b 4 + b 5 + 1) % 2
  BitVec.ofNat 8 (id % 64 + p0 * 64 + p1 * 128)

/-- The LIN checksum: inverted eight-bit sum with carry, over the data and, for the enhanced model, the protected
identifier (ISO 17987, R268). -/
def linSum (bs : List Byte) : Byte :=
  let s := bs.foldl (fun a b => let t := a + b.toNat; if 256 ≤ t then t - 255 else t) 0
  BitVec.ofNat 8 (255 - s)

/-- The checksum of a LIN frame; identifiers 60 and 61 always use the classic model (R270). -/
def linChecksum (pid : Byte) (model : Nat) (data : List Byte) : Byte :=
  if model = 1 then linSum (pid :: data) else linSum data

end Sys2Proof.Machine
end

