-- ==== Sys2Proof/Machine/Emit.lean ====
section
/-!
DEFINITION. What each egress medium carries of a record (R213, R214, R259, R284, R296 to R298, R394), as pure functions of
the delivered record and the settings.
-/
namespace Sys2Proof.Machine

/-- The effective format of a record (R213). -/
def effFmt (h pw : List Word) : Nat :=
  let f := field (wordAt h 0) 24 8
  if f = 0x40 then field (wordAt pw 0) 0 8 else f
/-- The effective type of a record (R213). -/
def effType (h pw : List Word) : Word := if field (wordAt h 0) 24 8 = 0x40 then wordAt pw 1 else wordAt h 5
/-- The content that an egress emits: the prefix words of format 0x40 are stripped (R213). -/
def effContent (h : List Word) (pay : List Byte) : List Byte := if field (wordAt h 0) 24 8 = 0x40 then pay.drop 8 else pay

/-- Two upper-case hexadecimal digits. -/
def hex2 (v : Nat) : List Byte := [hexDigit (v / 16), hexDigit v]

/-- The end of an IEC sentence: `*hh` and CR LF (R214); none without a start character. -/
def iecTail (pay : List Byte) : Option (List Byte) :=
  (startPos pay 0).map (fun p =>
    0x2A#8 :: hex2 (xorBytes (pay.drop (p + 1))) ++ [0x0D#8, 0x0A#8])

/-- The SLIP escapes of R120. -/
def slipEsc (pay : List Byte) : List Byte :=
  pay.flatMap (fun b => if b = 0xC0#8 then [0xDB#8, 0xDC#8] else if b = 0xDB#8 then [0xDB#8, 0xDD#8] else [b])

/-- COBS groups of a content with its phantom final zero (R121): the group in progress comes first in reverse. -/
def cobsGo : List Byte → List Byte → List Byte
  | [], g => BitVec.ofNat 8 (g.length + 1) :: g.reverse
  | b :: t, g =>
    if b = 0x00#8 then (BitVec.ofNat 8 (g.length + 1) :: g.reverse) ++ cobsGo t []
    else if g.length = 253 then (0xFF#8 :: (b :: g).reverse) ++ (if t.isEmpty then [] else cobsGo t [])
    else cobsGo t (b :: g)
/-- A content COBS-encoded, without delimiter (R121). -/
def cobsEnc (pay : List Byte) : List Byte := cobsGo pay []

/-- The COBS groups that a content known so far has closed (R121, R211): each closes at its zero or at 254 bytes. -/
def cobsOpen : List Byte → List Byte → List Byte
  | [], _ => []
  | b :: t, g =>
    if b = 0x00#8 then (BitVec.ofNat 8 (g.length + 1) :: g.reverse) ++ cobsOpen t []
    else if g.length = 253 then (0xFF#8 :: (b :: g).reverse) ++ cobsOpen t []
    else cobsOpen t (b :: g)

/-- The bytes that an asynchronous port emits of a content known so far, without what ends the sentence (R211, R214); the whole
content when final. None is FORMAT_MISMATCH. -/
def asyncBody (nine : Bool) (fmt : Nat) (pay : List Byte) (final : Bool) : Option (List Byte) :=
  if nine ∧ (fmt = 1 ∨ fmt = 2 ∨ fmt = 3 ∨ fmt = 0x18 ∨ fmt = 0x22) then none
  else if fmt = 2 then some (0xC0#8 :: slipEsc pay)
  else if fmt = 3 then some (if final then cobsEnc pay else cobsOpen pay [])
  else some pay

/-- What ends a sentence of a content (R214); none is FORMAT_MISMATCH. -/
def asyncTail (fmt : Nat) (pay : List Byte) : Option (List Byte) :=
  if fmt = 1 ∨ fmt = 0x22 then iecTail pay
  else some (if fmt = 2 then [0xC0#8] else if fmt = 3 then [0x00#8] else [])

/-- The bytes that an asynchronous port emits of a content known so far (R214); all of it when final. None is
FORMAT_MISMATCH. -/
def asyncStream (nine : Bool) (fmt : Nat) (pay : List Byte) (final : Bool) : Option (List Byte) :=
  (asyncBody nine fmt pay final).bind (fun b => if final then (asyncTail fmt pay).map (b ++ ·) else some b)

/-- What follows the character in the shifter when a cut-through delivery is aborted (R216). -/
def asyncAbort (fmt : Nat) : List Byte :=
  if fmt = 2 then [0xDB#8, 0xC0#8] else if fmt = 3 then [0xFF#8, 0x00#8] else []

/-- Data bits of AP_CHAR (R247, R279). -/
def charBits (c : Word) : Nat := let d := field c 0 4; if 5 ≤ d ∧ d ≤ 9 then d else 8
/-- Whether AP_CHAR has a parity bit. -/
def charPar (c : Word) : Bool := decide (1 ≤ field c 4 3 ∧ field c 4 3 ≤ 4)
/-- The stop index s of R247. -/
def stopIndex (c : Word) : Nat := 1 + charBits c + b2n (charPar c)

/-- The parity bit that a character's data bits carry (R247). -/
def parityWant (c : Word) (v : Nat) : Bool :=
  let odd := !evenOnes 9 v
  match field c 4 3 with
  | 1 => odd
  | 2 => !odd
  | 3 => true
  | _ => false

/-- The data bits of a character in the order in which they are on the line (R247): MSB_FIRST turns it round. -/
def bitOrder (c : Word) (v : Nat) : Nat := if bit c 9 then revBits (charBits c) v else v % 2 ^ charBits c

/-- The ball's level in each bit time of a character: start bit, data bits, parity bit, first stop bit, turned over when the
driven line is inverted (R245, R247, R258). -/
def charLine (c : Word) (inv : Bool) (v : Nat) : List Bool :=
  let d := (List.range (charBits c)).map (nbit (bitOrder c v))
  ([false] ++ d ++ (if charPar c then [parityWant c (v % 2 ^ charBits c)] else []) ++ [true]).map (· != inv)

/-- The stop bits of a transmitted character, in half bits (R247). -/
def stopHalves (c : Word) : Nat := let st := field c 7 2; if st = 0 then 2 else if st = 1 then 3 else 4

/-- The bit time of a port setting in units of 10 ns / 1,024 (R248). -/
def bitTime (rate : Word) : Nat :=
  if bit rate 26 then 8 * max 0x200 (field rate 0 26) else 16 * max 0x100 (field rate 0 26)

/-- The value of the next character and the bytes it takes (R259). -/
def nextChar (c : Word) (bs : List Byte) : Nat × Nat :=
  if charBits c = 9 then (((byteAt bs 0).toNat + 256 * ((byteAt bs 1).toNat % 2)), min 2 bs.length)
  else ((byteAt bs 0).toNat % 2 ^ charBits c, 1)

/-- Valid FD data lengths: the least that holds n bytes. -/
def fdLen (n : Nat) : Nat :=
  if n ≤ 8 then n else if n ≤ 12 then 12 else if n ≤ 16 then 16 else if n ≤ 20 then 20 else if n ≤ 24 then 24
  else if n ≤ 32 then 32 else if n ≤ 48 then 48 else 64

/-- The frame that controller n sends of a content (R284); none is FORMAT_MISMATCH. For an XL frame the data begin with the
four AF bytes. -/
def canFrameOf (n : Nat) (ctrl txcfg : Word) (passive : Bool) (fmt : Nat) (ty : Word) (pay : List Byte) : Option Output :=
  let l := pay.length
  if fmt = 0x10 ∧ field ty 30 2 = 0 ∧ l ≤ 8 then some (.canFrame n 0 ty pay false false)
  else if fmt = 0x10 ∧ field ty 30 2 = 3 ∧ l = 1 then some (.canFrame n 1 ty [byteAt pay 0 &&& 0x0F#8] false false)
  else if fmt = 0x11 ∧ bit ctrl 1 ∧ l ≤ 64 then
    some (.canFrame n 2 ty (pay ++ List.replicate (fdLen l - l) (BitVec.ofNat 8 (field txcfg 16 8))) (bit txcfg 9) passive)
  else if fmt = 0x12 ∧ bit ctrl 2 ∧ 5 ≤ l ∧ l ≤ 2048 then some (.canFrame n 3 ty pay false false)
  else none

/-- A MAC frame of a payload with its FCS, inverted when the sentence is aborted after its first bit (R214, R216). -/
def macFrame (pay : List Byte) (invert : Bool) : List Byte :=
  let p := pay ++ List.replicate (60 - pay.length) 0x00#8
  let f := crc32eth p
  p ++ wordBytes (if invert then ~~~f else f)

/-- The Internet checksum: the ones' complement sum of 16-bit words in network order. -/
def inetSum : List Byte → Nat
  | [] => 0
  | [a] => a.toNat * 256
  | a :: b :: t => a.toNat * 256 + b.toNat + inetSum t
/-- Carries folded. -/
def fold16 (v : Nat) : Nat := let a := v % 65536 + v / 65536; a % 65536 + a / 65536
/-- The checksum field of bytes. -/
def inetCk (bs : List Byte) : Nat := 65535 - fold16 (fold16 (inetSum bs))

/-- The MAC address bytes of a pair of registers. -/
def macBytes (lo hi : Word) : List Byte := wordBytes lo ++ (wordBytes hi).take 2

/-- Offset of stream register r of stream number n (0 to 15). -/
def stOff (n r : Nat) : Nat := 0x7900 + 0x400 * (n / 8) + 0x40 * (n % 8) + r
/-- Offset of uplink register r. -/
def euOff (u r : Nat) : Nat := 0x7800 + 0x400 * u + r

/-- The egress settings of a stream that a frame latches when it opens (R294): its registers in order. -/
def streamCfg (s : State) (n : Nat) : List Word := (List.range 9).map (fun i => s.reg (stOff n (4 * i)))

/-- An IPv4 and UDP frame of a stream of uplink u under latched settings, without FCS and unpadded (R296). -/
def udpFrame (s : State) (u : Nat) (c : List Word) (ident : Nat) (pay : List Byte) : List Byte :=
  let dhi := wordAt c 3
  let eth := macBytes (wordAt c 2) dhi ++ macBytes (s.reg (euOff u 8)) (s.reg (euOff u 0x0C))
  let vlan := if bit dhi 31 then [0x81#8, 0x00#8] ++ natBytesBE 2 (field dhi 28 3 * 8192 + field dhi 16 12) else []
  let sip := natBytesBE 4 (s.reg (euOff u 0x10)).toNat
  let dip := natBytesBE 4 (wordAt c 4).toNat
  let ctrl := s.reg (euOff u 0)
  let ul := 8 + pay.length
  let ip0 := [0x45#8, BitVec.ofNat 8 (field ctrl 8 6 * 4)] ++ natBytesBE 2 (20 + ul) ++ natBytesBE 2 ident ++
    [0x40#8, 0x00#8, BitVec.ofNat 8 (field ctrl 14 8), 0x11#8]
  let ip := ip0 ++ natBytesBE 2 (inetCk (ip0 ++ [0x00#8, 0x00#8] ++ sip ++ dip)) ++ sip ++ dip
  let ports := natBytesBE 2 (field (wordAt c 1) 16 16) ++ natBytesBE 2 (field (wordAt c 1) 0 16)
  let ck := inetCk (sip ++ dip ++ [0x00#8, 0x11#8] ++ natBytesBE 2 ul ++ ports ++ natBytesBE 2 ul ++ pay)
  eth ++ vlan ++ [0x08#8, 0x00#8] ++ ip ++ ports ++ natBytesBE 2 ul ++ natBytesBE 2 (if ck = 0 then 65535 else ck) ++ pay

/-- The TAG block that a datagram stream puts before a sentence (R297). -/
def sfiTag (lo hi : Word) (n : Nat) : List Byte :=
  let body := [asc 's', asc ':'] ++ wordBytes lo ++ (wordBytes hi).take 2 ++ [asc ',', asc 'n', asc ':'] ++ decDigits 1 n
  0x5C#8 :: body ++ (0x2A#8 :: hex2 (xorBytes body)) ++ [0x5C#8]

/-- A sentence in a datagram (R214, R297); none is FORMAT_MISMATCH. -/
def datagramBody (fmt : Nat) (pay : List Byte) : Option (List Byte) :=
  if fmt = 1 ∨ fmt = 0x22 then (iecTail pay).map (pay ++ ·) else none

/-- The record as delivered, in words (R40, R298, R374, R394). -/
def deliveredWords (h0 : Word) (h pw : List Word) (tr : Word) : List Word := h0 :: h.drop 1 ++ pw ++ [tr]

/-- A sentence frame of the peer link (R394). -/
def peerFrame (k mode : Nat) (chk rep : Bool) (ws : List Word) : List Word :=
  w32 (k + mode * 8 + b2n chk * 16 + b2n rep * 32 + ws.length * 64) :: ws

end Sys2Proof.Machine
end

