-- ==== Sys2Proof/Machine/HostOps.lean ====
section
/-!
DEFINITION. The shared operations of the host interface: ring registers, index write-back, moderation (R365 to R367, R376),
and the completion of commands (R377, R378, R383).
-/
namespace Sys2Proof.Machine

/-! ## The PCI Express function (R1, R357) -/

/-- The Device ID (R1), which HI_ID.PART repeats (R472). -/
def deviceId : BitVec 16 := 0x7480#16
/-- The class code (R357). -/
def classCode : Nat := 0x028000
/-- Bytes of BAR0, the only BAR, 64-bit memory and not prefetchable (R357). -/
def bar0Bytes : Nat := 0x20000
/-- The capabilities of the function (R357). -/
inductive PciCap where
  /-- D0 and D3hot, No_Soft_Reset 1. -/
  | powerManagement
  /-- Max Payload Size supported in bytes, and Extended Tag Field supported; 10-bit tags are not. -/
  | pciExpress (maxPayload : Nat) (extendedTag : Bool)
  | advancedErrorReporting
  | functionLevelReset
  | aspmL1
  deriving DecidableEq, Repr
/-- What the function lists; MSI, MSI-X, INTx, SR-IOV, ATS, PRI, PASID, TPH and ASPM L0s are not implemented (R357). -/
def pciCaps : List PciCap := [.powerManagement, .pciExpress 512 true, .advancedErrorReporting, .functionLevelReset, .aspmL1]
/-- A word of the configuration header, as far as the spec gives it: identity, Bus Master Enable and the capabilities list bit, class
code, the kind of BAR0, the absence of other BARs and of an expansion ROM, Interrupt Pin 0. -/
def configWord (s : State) (o : Nat) : Word :=
  let rest := Config.configBits o
  match o with
  | 0x00 => w32 (deviceId.toNat * 0x10000 + Config.vendorId.toNat)
  | 0x04 => (rest &&& ~~~0x100004#32) ||| w32 (b2n s.bme * 4 + 0x100000)
  | 0x08 => (rest &&& 0xFF#32) ||| w32 (classCode * 0x100)
  | 0x10 => (rest &&& ~~~w32 (bar0Bytes - 1)) ||| 0x4#32
  | 0x18 => 0#32
  | 0x1C => 0#32
  | 0x20 => 0#32
  | 0x24 => 0#32
  | 0x30 => 0#32
  | 0x3C => rest &&& 0xFFFF00FF#32
  | _ => rest

/-- The register block of a ring (R389): 0 to 31 HT, 32 to 63 HR, 64 CMD, 65 CPL. -/
def ringOff (r : Nat) : Nat :=
  if r < 32 then 0x1000 + 0x20 * r else if r < 64 then 0x1400 + 0x20 * (r - 32) else 0x1800 + 0x20 * (r - 64)

/-- Whether the device can issue requests to the host (R358, R361, R477). -/
def State.hostUp (s : State) : Bool := s.up? && s.perst && s.bme && !s.d3hot

/-- Descriptors are fetched: entering HIBERNATE stops it (R452). -/
def hostFetches (s : State) : Bool := s.hostUp && s.awake && decide (s.pw.req ≠ some 4)

/-- The bytes of a Max Payload Size or Max Read Request Size code; at most 512 bytes of payload are supported (R357). -/
def Pci.payload (p : Pci) : Nat := 128 * 2 ^ min 2 p.mps
/-- The bytes of the Max Read Request Size (R358). -/
def Pci.readSize (p : Pci) : Nat := 128 * 2 ^ min 5 p.mrrs

/-- The part of a transfer that one request carries (R358): no more than a size, and none across a 4 KiB boundary. -/
def reqSize (size addr len : Nat) : Nat := min len (min size (4096 - addr % 4096))

/-- A write to host memory in its requests, in address order (R358). -/
def hostWrites (addr : Nat) (bytes : List Byte) (s : State) : State := go bytes.length addr bytes s
where
  /-- Requests of what is left of a write. -/
  go : Nat → Nat → List Byte → State → State
    | 0, _, _, s => s
    | n + 1, a, bs, s =>
      if bs = [] then s
      else
        let k := reqSize s.pci.payload a bs.length
        go n (a + k) (bs.drop k) (emit (.hostWrite a (bs.take k)) s)

/-- A read of host memory in its requests, in address order (R358). -/
def hostReads (addr len : Nat) (s : State) : State := go len addr len s
where
  /-- Requests of what is left of a read. -/
  go : Nat → Nat → Nat → State → State
    | 0, _, _, s => s
    | n + 1, a, l, s =>
      if l = 0 then s
      else
        let k := reqSize s.pci.readSize a l
        go n (a + k) (l - k) (emit (.readReq a k) s)

/-- HI_WB_BASE (R367). -/
def wbBase (s : State) : Nat := (s.reg 0x1934).toNat * 0x100000000 + (s.reg 0x1930).toNat

/-- The device-side index of a ring, where the host reads it: D of HT, HR and CMD, H of CPL (R366). -/
def devIdx (g : Ring) (r : Nat) : Word := if r = 65 then g.h else g.d

/-- The offset of a ring's slot in the write-back area (R367). -/
def wbSlot (r : Nat) : Nat := if r < 64 then 4 * r else 0x100 + 4 * (r - 64)

/-- An index write-back (R367). -/
def wbIndex (r : Nat) (s : State) : State :=
  whenDo s.hostUp (fun s => count (ctHi 340) 1 (hostWrites (wbBase s + wbSlot r) (wordBytes (devIdx (s.ring r) r)) s)) s

/-- A ring is enabled: active with EN 1 (R365). -/
def ringOn (s : State) (r : Nat) : Bool := (s.ring r).active && s.rb (ringOff r + 8) 8

/-- The DONE bit of a ring rises (R376). -/
def raiseDone (r : Nat) (s : State) : State :=
  if r < 32 then raise 0x1908 (2 ^ r) s else if r < 64 then raise 0x1910 (2 ^ (r - 32)) s else raise 0x1900 1 s

/-- A completion of a ring under moderation (R376); the index write-back comes first. -/
def ringCompleted (r : Nat) (s : State) : State :=
  let s1 := wbIndex r s
  let g := s1.ring r
  let n := g.done + 1
  if max 1 (s.rf (ringOff r + 0x14) 0 16) ≤ n then raiseDone r (s1.setRing r { g with done := 0 })
  else s1.setRing r { g with done := n }

/-- LAST_ERR and ERR_IDX of a ring, with its error bit (R370, R389). -/
def ringErr (r code idx : Nat) (s : State) : State :=
  let s1 := s.setReg (ringOff r + 0x18) (w32 (code + (idx % 65536) * 65536))
  if r < 32 then raise 0x1918 (2 ^ r) s1 else if r < 64 then raise 0x1920 (2 ^ (r - 32)) s1 else s1

/-- The address of a descriptor of a ring and its size: HT and HR 16 bytes in generation 1, else 32; CMD 32; CPL 16. -/
def descAddr (g : Ring) (r : Nat) (i : Word) : Nat :=
  let sz := if r = 65 then 16 else if r = 64 then 32 else if g.gen = 1 then 16 else 32
  g.base + (i.toNat % 2 ^ g.size) * sz

/-- The pending command with an index. -/
def findCmd (s : State) (idx : Word) : Option Cmd := s.cmds.find? (fun c => c.idx = idx)
/-- A change of the pending command with an index. -/
def modCmd (idx : Word) (f : Cmd → Cmd) (s : State) : State :=
  { s with cmds := s.cmds.map (fun c => if c.idx = idx then f c else c) }
/-- A command ends with a status and results; its completion is then ready to be written (R378). -/
def doneCmd (idx : Word) (st : Nat) (r0 r1 : Word) (s : State) : State :=
  modCmd idx (fun c => { c with started := true, done := some (st, r0, r1) }) s

/-- The opcode of a command. -/
def Cmd.op (c : Cmd) : Nat := field (wordAt c.w 0) 0 8
/-- The acting domain of a command. -/
def Cmd.dom (c : Cmd) : Nat := field (wordAt c.w 0) 8 3

/-- A pending PORT_SERVICE of a port completes (R277, R287, R290). -/
def serviceDone (port : Nat) (s : State) : State :=
  { s with cmds := s.cmds.map (fun c =>
      if c.op = 9 ∧ c.started ∧ c.done = none ∧ field (wordAt c.w 1) 0 8 = port then { c with done := some (0, 0#32, 0#32) }
      else c) }

end Sys2Proof.Machine
end

