-- ==== Sys2Proof/Machine/PeerOps.lean ====
section
/-!
DEFINITION. The shared operations of the Fetasen link (R391, R392, R394, R407): flits, credits, fault logs.
-/
namespace Sys2Proof.Machine

/-- The link is UP or UP_X1 (R390). -/
def peerUp (s : State) : Bool := decide (s.peer.st = 2 ∨ s.peer.st = 3)

/-- The link CRC of a flit (R391): CRC-32C over header and payload, without binding. -/
def flitCrc (hdr : Word) (pay : List Word) : Word := crc32c (wordsBytes (hdr :: pay))

/-- The credits that the next flit returns: CR_SEL and CR_COUNT as they stand in its header, and what is left (R391). -/
def takeCredits (m : SMap Nat) : Nat × SMap Nat :=
  match m with
  | [] => (0, [])
  | (k, n) :: t => let c := min 15 n
                   (k + c * 32, mapSet (dflt 0) ((k, n) :: t) k (n - c))

/-- A flit's header now (R391): a virtual channel, the next sequence number, the acknowledgement, NAK and credits. -/
def flitHdr (vc : Nat) (p : Peer) (cr : Nat) : Word :=
  w32 (vc + p.txSeq * 4 + ((p.rxSeq + 1023) % 1024) * 0x1000 + b2n p.nak * 0x400000 + cr * 0x800000)

/-- A payload filled up to the 14 words of a flit (R391). -/
def padFlit (pay : List Word) : List Word := pay ++ List.replicate (14 - pay.length) 0#32

/-- A flit sent on a virtual channel: sequenced, acknowledging, kept until acknowledged (R391). -/
def sendFlit (vc sub : Nat) (pay : List Word) (s : State) : State :=
  let p := s.peer
  let (cr, ret) := takeCredits p.ret
  let f : Flit := { hdr := flitHdr vc p cr, pay := padFlit pay, sub := sub }
  count (ctPb 16) 1 (emit (.flit f)
    { s with peer := { p with txSeq := (p.txSeq + 1) % 1024, unacked := p.unacked ++ [f], ret := ret } })

/-- A flit of link control (R392): it is neither credited nor kept. Its first word is 1 IDENT, 2 idle, 3 retrain, 4 a request
for a boot image. -/
def linkFlit (kind : Nat) (s : State) : State :=
  let p := s.peer
  let (cr, ret) := takeCredits p.ret
  count (ctPb 16) 1 (emit (.flit { hdr := flitHdr 3 p cr, pay := padFlit [w32 kind, w32 (b2n s.rank), 0x748000B0#32] })
    { s with peer := { p with ret := ret } })

/-- The credit counter of a sub-channel (0 to 7), of REQ (8) or of CPL (9). -/
def peerCredit (s : State) (k : Nat) : Nat := mapGet (dflt 0) s.peer.credit k
/-- A credit counter set. -/
def setCredit (k n : Nat) (s : State) : State :=
  { s with peer := { s.peer with credit := mapSet (dflt 0) s.peer.credit k n } }

/-- Whether a flit of the waiting sentence words may go now (R391, R392). -/
def peerMaySend (s : State) : Bool :=
  peerUp s && decide (0 < peerCredit s s.peer.txSub ∧ s.peer.unacked.length < 512)

/-- One flit of the waiting words, padded with zeros (R394): the sentences that end in it will be acknowledged with it. -/
def peerFlit (s : State) : State :=
  let p := s.peer
  let ws := p.txq.take 14
  let ends := ws.filterMap (·.2)
  let old := mapGet (dflt []) p.sent p.txSub
  let p1 := { p with txq := p.txq.drop 14,
                     sent := mapSet (dflt []) p.sent p.txSub (old ++ ends.map (fun (lq, r) => (lq, r, p.txSeq))) }
  let s1 := setCredit p.txSub (peerCredit s p.txSub - 1) { s with peer := p1 }
  sendFlit 0 p.txSub (ws.map (·.1)) s1

/-- Full flits sent as long as credits last (R392, R394). -/
def peerPump : Nat → State → State
  | 0, s => s
  | n + 1, s => if 14 ≤ s.peer.txq.length ∧ peerMaySend s then peerPump n (peerFlit s) else s

/-- A flit whose content ends early is padded and sent (R394). -/
def peerFlush (s : State) : State := if s.peer.txq ≠ [] ∧ peerMaySend s then peerFlit s else s

/-- An entry of the outbound fault log (R407). -/
def logOut (e : FaultEnt) (s : State) : State :=
  let p := { s.peer with faults := s.peer.faults + 1 }
  let s1 := raise 0xC008 0x20 s
  if p.olog.length < 16 then count (ctPb 32) 1 { s1 with peer := { p with olog := p.olog ++ [e] } }
  else raise 0xC080 0x20 (raise 0xC008 0x80 (count (ctPb 34) 1 { s1 with peer := p }))

/-- An entry of the inbound fault log (R407). -/
def logIn (e : FaultEnt) (s : State) : State :=
  let p := s.peer
  let s1 := raise 0xC008 0x40 s
  if p.ilog.length < 16 then count (ctPb 33) 1 { s1 with peer := { p with ilog := p.ilog ++ [e] } }
  else raise 0xC090 0x20 (raise 0xC008 0x80 (count (ctPb 35) 1 s1))

/-- A write that is no longer open: acknowledged, or entered in the log (R408). -/
def closeWrite (tag : Nat) (s : State) : State :=
  { s with peer := { s.peer with writes := s.peer.writes.filter (fun w => w.tag ≠ tag) },
           cmds := s.cmds.map (fun c => { c with fence := c.fence.filter (· ≠ tag) }) }

/-- Fences whose writes have all completed or faulted end in command order (R408). -/
def fencesGo : List Cmd → Nat → List Cmd × Nat × Nat
  | [], n => ([], n, 0)
  | c :: t, n =>
    if c.op = 7 ∧ c.started ∧ c.done = none then
      if c.fence = [] then
        let (t', n', k) := fencesGo t 0
        ({ c with done := some (0, w32 n, 0#32) } :: t', n', k + 1)
      else (c :: t, n, 0)
    else
      let (t', n', k) := fencesGo t n
      (c :: t', n', k)

/-- Pending fences looked at after a write has ended (R408). -/
def fencesCheck (s : State) : State :=
  let (cs, n, k) := fencesGo s.cmds s.peer.faults
  count (ctPb 41) k { s with cmds := cs, peer := { s.peer with faults := n } }

end Sys2Proof.Machine
end

