-- ==== Sys2Proof/Machine/Egress.lean ====
section
/-!
DEFINITION. The egress points (R191 to R217): which lane head a sentence boundary chooses, the check of the record, and the
start and end of a sentence on each medium.
-/
namespace Sys2Proof.Machine

/-- The egress point of a listener (R192): 0 to 47 AP, 48 to 63 CN, 64 to 67 TS, 68 and 69 EU, 70 host receive, 71 peer,
72 to 75 internal. -/
def epOf (k : Nat) : Nat :=
  if k < 68 then k else if k < 76 then 68 else if k < 84 then 69 else if k < 116 then 70 else if k < 124 then 71
  else k - 52

/-- The listeners of an egress point (R192). -/
def epListeners (ep : Nat) : List Nat :=
  if ep < 68 then [ep] else if ep = 68 then (List.range 8).map (· + 68) else if ep = 69 then (List.range 8).map (· + 76)
  else if ep = 70 then (List.range 32).map (· + 84) else if ep = 71 then (List.range 8).map (· + 116) else [ep + 52]

/-- The lane bobbins that hold or have held references of a listener (R191, R195). -/
def lanesOf (s : State) (k : Nat) : List Nat := (s.laneLq.filter (fun e => e.2 = k)).map (·.1)

/-- The references waiting in a lane, head first. -/
def laneAll (s : State) (b : Nat) : List Ref := (List.range (laneRefs s b)).map (laneRef s b)

/-- The head of a lane. -/
def laneHead (s : State) (b : Nat) : Option Ref := if laneRefs s b = 0 then none else some (laneRef s b 0)

/-- Whether the record of a reference can be emitted now: complete, or begun as cut-through (R215). -/
def refReady (s : State) (r : Ref) : Bool :=
  r.cut || (match s.pin r.addr with
    | some p => p.complete
    | none => true)

/-- A lane head is eligible (R197, R374). -/
def eligible (s : State) (k b : Nat) (r : Ref) : Bool :=
  refReady s r &&
  (r.held || (lanesOf s k).all (fun b' => b' = b ||
    (laneAll s b').all (fun q => q.held || decide (q.talker ≠ r.talker) || decide (refIdx s r ≤ refIdx s q)))) &&
  (decide (epOf k ≠ 70) || (ringOn s (32 + (k - 84)) && decide ((s.ring (32 + (k - 84))).hr ≠ [])))

/-- A candidate at a boundary: listener, lane bobbin, head. -/
structure Cand where
  lq : Nat
  bob : Nat
  ref : Ref

/-- The eligible heads of an egress point, in listener and bobbin order. -/
def candidates (s : State) (ep : Nat) : List Cand :=
  (epListeners ep).flatMap (fun k => (lanesOf s k).filterMap (fun b =>
    match laneHead s b with
    | some r => if eligible s k b r then some { lq := k, bob := b, ref := r } else none
    | none => none))

/-- The candidate of a class with the lowest sentence index (R196). -/
def lowestIdx (s : State) (c : Nat) : List Cand → Option Cand
  | [] => none
  | x :: t =>
    match lowestIdx s c t with
    | none => if x.ref.cls = c then some x else none
    | some y => if x.ref.cls = c ∧ refIdx s x.ref ≤ refIdx s y.ref then some x else some y

/-- The active list after what has become eligible and ceased to be (R198): bobbins of lanes whose eligible head is of class
P2 to P7; a lane that joins gets new_round, one that is empty loses its deficit. -/
def egRefresh (ep : Nat) (s : State) : State :=
  let e := s.eg ep
  let el := ((candidates s ep).filter (fun c => 2 ≤ c.ref.cls)).map (·.bob)
  let keep := e.active.filter (fun b => el.contains b)
  let join := el.filter (fun b => !e.active.contains b)
  s.setEg ep { e with active := keep ++ join,
                      round := join.foldl (fun m b => mapSet (dflt true) m b true) e.round,
                      deficit := mapFilter (fun b _ => decide (0 < laneRefs s b)) e.deficit }

/-- F of R198. -/
def quantumF (c : Nat) : Nat := 32 * (8 - c)

/-- The cost of a reference (R198). -/
def refCost (s : State) (r : Ref) : Nat := field (s.data r.addr) 0 16 + 16

/-- The deficit round robin of R198: the lane that is served, and the egress point after it. -/
def drr (s : State) (cs : List Cand) : Nat → Egress → Option Cand × Egress
  | 0, e => (none, e)
  | n + 1, e =>
    match e.active with
    | [] => (none, e)
    | b :: rest =>
      match cs.find? (fun c => c.bob = b) with
      | none => drr s cs n { e with active := rest }
      | some c =>
        let w := max 1 (field (s.liveReg (lqOff c.lq + 4)) 0 4)
        let d0 := mapGet (dflt 0) e.deficit b
        let d := if mapGet (dflt true) e.round b then d0 + w * quantumF c.ref.cls else d0
        let k := refCost s c.ref
        if k ≤ d then
          (some c, { e with deficit := mapSet (dflt 0) e.deficit b (d - k), round := mapSet (dflt true) e.round b false })
        else
          drr s cs n { e with active := rest ++ [b], deficit := mapSet (dflt 0) e.deficit b d,
                              round := mapSet (dflt true) e.round b true }

/-- The choice at a boundary (R196). -/
def choose (s : State) (ep : Nat) : Option Cand × State :=
  let cs := candidates s ep
  match lowestIdx s 0 cs with
  | some c => (some c, s)
  | none =>
    match lowestIdx s 1 cs with
    | some c => (some c, s)
    | none =>
      let (r, e) := drr s cs (80 * (cs.length + 1)) (s.eg ep)
      (r, s.setEg ep e)

/-! ## The check of a record -/

/-- The bank that the rules of the device run on: the live bank of the first good engine (R412). -/
def devBank (s : State) : Bank :=
  let e := if (s.eng 0).st = 0 then s.eng 0 else if (s.eng 1).st = 0 then s.eng 1 else s.eng 2
  if s.cons.liveBank = 0 then e.bank0 else e.bank1

/-- OPTIONS.CHECK_REPAIR as it is live (R162, R320). -/
def checkRepair (s : State) : Bool := bit (wordAt (img (devBank s) 15 0) 0) 0

/-- What a reader's check of a record came to (R319, R320). -/
inductive CheckOut where
  | good
  | poison
  | mismatch
  deriving DecidableEq, Repr

/-- A reader's view of a record after its check: the words, the outcome, and whether the trailer was repaired. -/
structure Checked where
  v : RecView
  out : CheckOut
  repaired : Bool := false

/-- The side-table entry of a record; a record that has aged out is still read by its address (R190, R238). -/
def pinOr (s : State) (a : Nat) : Pin :=
  match s.pin a with
  | some p => p
  | none =>
    match bobOfAddr s a 512 with
    | some b => { bob := b, pos := a - field (s.liveReg (carveOff b)) 0 15 * 64 }
    | none => {}

/-- A record as a reader has read it, checked (R319 to R321): reader 0 is an egress point of listener k, 1 the release verifier,
2 the derivation unit. -/
def checkView (reader k : Nat) (v : RecView) (s1 : State) : State × Checked :=
  match v.cls with
  | .verified => (s1, { v := v, out := .good })
  | .mismatch => (s1, { v := v, out := .mismatch })
  | .poison => (s1, { v := v, out := .poison })
  | .wordPoison =>
    let rep := checkRepair s1
    let s2 := raise 0xB800 2 (count (ctCk 57) 1 s1)
    let s3 := (s2.setReg 0xB80C (w32 (field (wordAt v.h 1) 20 12 + field (wordAt v.h 1) 0 20 * 0x1000))).setReg 0xB810
      (w32 ((if reader = 0 then k else 0) + b2n rep * 0x80 + reader * 0x100))
    if rep then
      (raise 0xB800 4 (count (ctCk 58) 1 s3), { v := { v with tr := trailerOf v.h v.pw }, out := .good, repaired := true })
    else (s3, { v := v, out := .poison })

/-- A record read whole and checked by a reader (R215, R319). -/
def checkRecord (reader k a : Nat) (s : State) : State × Checked :=
  let p := pinOr s a
  let (s1, v) := readRecord p.bob p.pos s
  checkView reader k v s1

/-- A record whose words before position n have been read clean already, read on to its end and checked (R157, R215). -/
def checkFrom (reader k a n : Nat) (clean : Bool) (s : State) : State × Checked :=
  let p := pinOr s a
  let h := (List.range 6).map (fun i => laneData s p.bob (p.pos + i))
  let m := 6 + payWordsOf (min 2048 (field (wordAt h 0) 0 16))
  let had := (List.range (min n m - 6)).map (fun i => laneData s p.bob (p.pos + 6 + i))
  let (s1, pw, ok) := readWords p.bob (m - n) (p.pos + n) s
  let (s2, tr, ok') := readWords p.bob 1 (p.pos + m) s1
  checkView reader k
    { h := h, pw := had ++ pw, tr := wordAt tr 0, bad := !clean || ok.any (!·), trBad := ok'.any (!·), oks := ok ++ ok' } s2

/-- The release verifier reads and checks a complete record while its decision is made (R215, R236). -/
def verifyRecord (a : Nat) (s : State) : State :=
  match s.pin a with
  | none => s
  | some p =>
    if p.complete = false ∨ p.bad ∨ p.ver.isSome then s
    else
      let (s1, c) := checkRecord 1 0 a s
      let n : Nat := match c.out with
        | .good => 0
        | .poison => 1
        | .mismatch => 2
      s1.setPin a { p with ver := some { h := c.v.h, pw := c.v.pw, tr := c.v.tr, outcome := n, repaired := c.repaired } }

/-- The verifier's result as a reader's. -/
def Verified.checked (v : Verified) : Checked :=
  { v := { h := v.h, pw := v.pw, tr := v.tr, bad := false, trBad := false },
    out := if v.outcome = 0 then .good else if v.outcome = 1 then .poison else .mismatch, repaired := v.repaired }

/-- An egress point's check of a stored record (R215): the verifier's words where they were handed to it, else its own read. -/
def epCheck (ep k a : Nat) (s : State) : State × Checked :=
  match s.pin a with
  | some p =>
    (match p.ver with
      | some v => if p.handed.contains ep then (s.setPin a { p with handed := p.handed.erase ep }, v.checked) else checkRecord 0 k a s
      | none => checkRecord 0 k a s)
  | none => checkRecord 0 k a s

/-- The delivered H0 (R40, R216). -/
def deliveredH0 (h : List Word) (r : Ref) (bad : Bool) : Word :=
  wordAt h 0 ||| w32 (b2n r.held * 0x40000 + b2n r.cut * 0x20000 + b2n bad * 0x10000)

/-- A delivery aborted by the check (R217). -/
def abortCount (k : Nat) (o : CheckOut) (t : Nat) (s : State) : State :=
  match o with
  | .good => s
  | .poison => rtOutcome 2 k t (count (ctLq k 4) 1 s)
  | .mismatch => rtOutcome 3 k t (count (ctLq k 5) 1 s)

/-- A delivery withdrawn under R109 before it starts is counted (R217). -/
def withdrawn (k : Nat) (s : State) : State := count (ctLq k 5) 1 s

/-- A sentence that the egress cannot carry (R214). -/
def formatMismatch (k : Nat) (r : Ref) (s : State) : State :=
  dropRef r.addr (rtOutcome 4 k r.talker (count (ctLq k 6) 1 s))

/-- A held sentence starts: more than 2.5 ns after its target it is counted (R200). -/
def heldDelay (k : Nat) (r : Ref) (s : State) : State :=
  match r.held, (s.pin r.addr).bind (·.due) with
  | true, some d => whenDo (decide (d + 2 < s.dt)) (count (ctLq k 7) 1) s
  | _, _ => s

/-- A sentence counted as delivered and its reference returned (R190, R218). -/
def delivered (k : Nat) (r : Ref) (s : State) : State :=
  dropRef r.addr (whenDo r.cut (count (ctLq k 1) 1) (count (ctLq k 0) 1 s))

/-! ## Ports and controllers as egress points -/

/-- The offset of register r of AP n. -/
def apOff (n r : Nat) : Nat := 0x4000 + 0x80 * n + r
/-- The offset of register r of CN n. -/
def cnOff (n r : Nat) : Nat := 0x6000 + 0x100 * n + r
/-- The offset of register r of TS n. -/
def tsOff (n r : Nat) : Nat := 0x7000 + 0x200 * n + r

/-- The line mode of a port (R244): 0 FULL, 1 SINGLE, 2 HDX_DE. -/
def lineMode (s : State) (n : Nat) : Nat :=
  let d := s.rf (apOff n 0) 1 2
  if d = 1 then 1 else if d = 2 ∧ n < 16 then 2 else 0
/-- A port in LIN mode (R268). -/
def linMode (s : State) (n : Nat) : Bool := decide (s.rf (apOff n 0x40) 0 3 = 6)

/-- Whether a port, controller or T1S port, by talker ID, is out of service (R277, R287, R290). -/
def outOfService (s : State) (t : Nat) : Bool :=
  if t < 0x30 then (s.port t).oos else if t < 0x40 then (s.can (t - 0x30)).oos else if t < 0x44 then (s.ts (t - 0x40)).oos
  else false

/-- The port that a loopback or format listener names (R193, R219). -/
def loopPort (s : State) (k : Nat) : Nat := s.liveReg (lqOff k) |> (field · 16 8)

/-- A pending removal from service happens at a boundary (R277, R287, R290). -/
def serviceBoundary (ep : Nat) (s : State) : State :=
  if (s.eg ep).cur.isSome then s
  else if ep < 48 then
    if (s.port ep).oosPend && decide ((s.port ep).linTx = []) then serviceDone ep (s.setPort ep { s.port ep with oos := true, oosPend := false, de := false }) else s
  else if ep < 64 then
    if (s.can (ep - 48)).oosPend then
      serviceDone (0x30 + (ep - 48)) (s.setCan (ep - 48) { s.can (ep - 48) with oos := true, oosPend := false }) else s
  else if ep < 68 then
    if (s.ts (ep - 64)).oosPend then
      serviceDone (0x40 + (ep - 64)) (s.setTs (ep - 64) { s.ts (ep - 64) with oos := true, oosPend := false }) else s
  else s

/-- Whether an egress point may start a sentence now (R246, R265, R277, R286, R287, R292, R295, R358, R394). -/
def epReady (s : State) (ep : Nat) : Bool :=
  s.awake && (s.eg ep).cur.isNone && decide (s.pw.req ≠ some 4) && !(decide (s.pw.req = some 3 ∧ 48 ≤ ep ∧ ep < 70)) &&
  (if ep < 48 then
    let p := s.port ep
    s.rb (apOff ep 0) 0 && !p.oos && !p.oosPend && (decide (lineMode s ep = 0) || (p.idle && !p.rxBusy))
  else if ep < 64 then
    let c := s.can (ep - 48)
    s.rb (cnOff (ep - 48) 0) 0 && decide (s.rf (cnOff (ep - 48) 0) 3 2 ≠ 1 ∧ s.rf (cnOff (ep - 48) 0) 3 2 ≠ 2) &&
      decide (c.st ≠ 2) && !c.oos && !c.oosPend
  else if ep < 68 then s.rb (tsOff (ep - 64) 0) 0 && !(s.ts (ep - 64)).oos && !(s.ts (ep - 64)).oosPend
  else if ep < 70 then
    s.rb (euOff (ep - 68) 0) 0 && (s.up (ep - 68)).link && decide ((s.up (ep - 68)).closed.length < 32)
  else if ep = 70 then s.hostUp
  else if ep = 71 then peerUp s && decide (s.peer.txq.length < 14)
  else true)

/-- An egress point is idle (R209): no sentence on its medium, which on an uplink is no closed frame still to be sent, and every
lane of its listeners empty. -/
def epIdle (s : State) (ep : Nat) : Bool :=
  epReady s ep && (ep < 68 || 70 ≤ ep || (s.up (ep - 68)).closed.isEmpty) && (epListeners ep).all (fun k => (lanesOf s k).all (fun b => laneRefs s b = 0))

/-! ## Uplink frames -/

/-- The payload header of a closed frame (R297, R298). -/
def frameHead (s : State) (u : Nat) (f : UpFrame) : List Byte :=
  if field (wordAt f.cfg 0) 0 2 = 2 then [asc 'U', asc 'd', asc 'P', asc 'b', asc 'C', 0x00#8]
  else [0x51#8, 0x57#8, 0x4B#8, 0x42#8, 0x01#8, BitVec.ofNat 8 f.sents.length] ++ natBytes 2 f.stream ++
    natBytes 4 (mapGet (dflt 0) (s.up u).bseq f.stream + ((s.up u).closed.filter (fun g => g.stream = f.stream)).length) ++ natBytes 4 0 ++ natBytes 8 s.dt

/-- A stream's open frame closes (R295 to R298); while 32 closed frames wait it stays open until one has gone. -/
def closeFrame (n : Nat) (s : State) : State :=
  let u := n / 8
  let x := s.up u
  match mapFind x.opens n with
  | none => s
  | some f =>
    if 32 ≤ x.closed.length then s.setUp u { x with opens := mapIns x.opens n { f with due := true } }
    else
    let raw := field (wordAt f.cfg 0) 0 2 = 1
    let body := f.sents.flatMap (·.body)
    let bytes := if raw then (if f.cut then [] else macFrame body false)
      else macFrame (udpFrame s u f.cfg x.ipId (frameHead s u f ++ body)) false
    s.setUp u { x with
      opens := mapDel x.opens n,
      closed := x.closed ++ [{ f with bytes := bytes }],
      ipId := if raw then x.ipId else (x.ipId + 1) % 65536 }

/-- The UDP payload of an open frame in bytes. -/
def framePay (f : UpFrame) : Nat :=
  (if field (wordAt f.cfg 0) 0 2 = 3 then 24 else 6) + (f.sents.flatMap (·.body)).length

/-- PACK.MAXPAY of a stream's settings, held between 64 and 8,972 (R303). -/
def maxPay (cfg : List Word) : Nat := let v := field (wordAt cfg 5) 0 14; if v < 64 then 64 else if 8972 < v then 8972 else v

/-- What a stream carries of a checked record, under settings (R214, R297, R298); none is FORMAT_MISMATCH. -/
def streamBody (s : State) (n : Nat) (cfg : List Word) (r : Ref) (c : Checked) : Option (List Byte) :=
  let fmt := effFmt c.v.h c.v.pw
  let pay := effContent c.v.h c.v.pay
  match field (wordAt cfg 0) 0 2 with
  | 1 => if fmt = 0x20 ∨ fmt = 0x21 then some pay else none
  | 2 =>
    let tag := if bit (wordAt cfg 0) 10 then sfiTag (wordAt cfg 7) (wordAt cfg 8) (mapGet (dflt 1) (s.up (n / 8)).line n) else []
    (datagramBody fmt pay).map (tag ++ ·)
  | 3 => some (wordsBytes (deliveredWords (deliveredH0 c.v.h r false) c.v.h c.v.pw c.v.tr))
  | _ => none

/-- A sentence placed into the open frame of its stream (R295). -/
def placeSentence (k : Nat) (r : Ref) (c : Checked) (s : State) : State :=
  let n := k - 68
  let u := n / 8
  let cfg0 := match mapFind (s.up u).opens n with
    | some f => f.cfg
    | none => streamCfg s n
  match streamBody s n cfg0 r c with
  | none => formatMismatch k r s
  | some b0 =>
    let kind := field (wordAt cfg0 0) 0 2
    let maxp := maxPay cfg0
    -- the frame in progress closes when the sentence would pass MAXPAY
    let s1 := match mapFind (s.up u).opens n with
      | some f => if kind ≠ 1 ∧ maxp < framePay f + b0.length then closeFrame n s else s
      | none => s
    let opening := (mapFind (s1.up u).opens n).isNone
    let f := (mapFind (s1.up u).opens n).getD { stream := n, cfg := streamCfg s1 n }
    match (if opening then streamBody s1 n f.cfg r c else some b0) with
    | none => formatMismatch k r s1
    | some b =>
      if kind ≠ 1 ∧ opening ∧ maxPay f.cfg < framePay f + b.length then formatMismatch k r s1
      else
        let f1 := { f with sents := f.sents ++ [{ lq := k, ref := r, body := b }], cut := r.cut }
        let x := s1.up u
        let line := if kind = 2 then (let v := mapGet (dflt 1) x.line n
                                      mapSet (dflt 1) x.line n (if v = 999 then 1 else v + 1)) else x.line
        let s2 := heldDelay k r (s1.setUp u { x with opens := mapIns x.opens n f1, line := line })
        if kind = 1 ∨ field (wordAt f.cfg 5) 16 16 = 0 ∨ r.cls ≤ 1 ∨ (kind = 3 ∧ f1.sents.length = 255) then closeFrame n s2
        else s2

/-! ## Host delivery -/

/-- A delivery to a host-receive ring (R374 to R376). -/
def hostDeliver (k : Nat) (r : Ref) (c : Checked) (s : State) : State :=
  let q := 32 + (k - 84)
  let g := s.ring q
  match g.hr with
  | [] => s
  | d :: rest =>
    let p := (s.pin r.addr).getD {}
    let bad := decide (c.out ≠ .good)
    let ws := deliveredWords (deliveredH0 c.v.h r bad) c.v.h c.v.pw c.v.tr
    let fits := decide (4 * ws.length ≤ field (wordAt d 2) 0 16)
    let addr := (wordAt d 1).toNat * 0x100000000 + (wordAt d 0).toNat / 4 * 4
    let n := if fits then 4 * ws.length else 0
    let st := if fits then b2n bad else 2
    let w2 := w32 (n + st * 0x10000 + b2n p.chkFail * 0x80000 + b2n (c.repaired || p.repaired) * 0x100000 + b2n r.mirror * 0x200000 +
      r.cls * 0x400000)
    let back := w2 :: wordAt c.v.h 1 :: (if g.gen = 1 then [] else
      [wordAt ws 0, if g.gen = 3 then wordAt c.v.h 4 else 0#32, wordAt c.v.h 2, wordAt c.v.h 3])
    let s1 := whenDo fits (fun s => hostWrites addr (wordsBytes ws) (heldDelay k r s)) s
    let s2 := hostWrites (descAddr g q g.d + 8) (wordsBytes back) s1
    let s3 := count (ctHi (5 * q + 1)) n (count (ctHi (5 * q)) 1 (s2.setRing q { g with hr := rest, d := g.d + 1#32 }))
    let s4 := whenDo (rest.isEmpty && (lanesOf s3 k).any (fun b => 0 < laneRefs s3 b)) (count (ctHi (5 * q + 4)) 1) s3
    let s5 := ringCompleted q s4
    if fits = false then formatMismatch k r (ringErr q 4 g.d.toNat (count (ctHi (5 * q + 2)) 1 s5))
    else
      let s6 := whenDo bad (fun s => count (ctHi (5 * q + 3)) 1 (abortCount k c.out r.talker s)) s5
      delivered k r s6

/-! ## Starting a sentence -/

/-- A sentence begun at an egress point as its current one. -/
def setCur (ep : Nat) (c : Option Cur) (s : State) : State := s.setEg ep { s.eg ep with cur := c }

/-- The response buffer of a LIN identifier loaded (R271); none is FORMAT_MISMATCH. -/
def linLoad (n : Nat) (ty : Word) (pay : List Byte) (s : State) : Option State :=
  let p := s.port n
  let id := field ty 0 6
  let e := mapGet (dflt 0#32) p.lin id
  if linPid id ≠ BitVec.ofNat 8 (field ty 0 8) ∨ field e 5 2 ≠ 2 ∨ pay.length ≠ field e 0 4 then none
  else some (s.setPort n { p with buf := mapIns p.buf id pay,
                                  linLoaded := p.linLoaded || (p.linResp && decide (p.linTx ≠ [] ∧ p.linTxId = id)) })

/-- A stored sentence begun on the medium of port, controller or T1S port t, at egress point ep: its frame or characters, none
for FORMAT_MISMATCH. -/
def mediumUnits (s : State) (t : Nat) (r : Ref) (h pw : List Word) (pay0 : List Byte) (final : Bool) :
    Option (List Byte × Option Output) :=
  let fmt := effFmt h pw
  let ty := effType h pw
  let pay := effContent h pay0
  if t < 0x30 then
    (asyncStream (charBits (s.reg (apOff t 4)) = 9) fmt pay final).map (fun b => (b, none))
  else if t < 0x40 then
    let n := t - 0x30
    if r.cut ∧ final = false then some ([], none)
    else (canFrameOf n (s.reg (cnOff n 0)) (s.reg (cnOff n 0x14)) (decide ((s.can n).st = 1)) fmt ty pay).map (fun f => ([], some f))
  else
    if fmt ≠ 0x20 ∧ fmt ≠ 0x21 then none
    else if r.cut ∧ final = false then some ([], none)
    else if 1518 < pay.length then none
    else some ([], some (.ether (t - 0x40) (macFrame pay false)))

/-- The port that an egress point drives, as a talker ID. -/
def epPort (s : State) (ep : Nat) : Nat := if ep < 68 then ep else loopPort s (ep + 52)

/-- A CAN controller's egress uses the notch of a class L lane (R231, R285). -/
def canNotch (s : State) (ep b : Nat) : Bool := decide (48 ≤ ep ∧ ep < 64) && classL s b

/-- MARK (R229): the notch at RP, LAPSED cleared, the lease started. -/
def markBob (b : Nat) (s : State) : State :=
  let v := s.bob b
  s.setBob b { v with notch := some v.rp, lapsed := false, lease := s.reg (0x9004 + 0x10 * b) }
/-- UNMARK (R229): NP is cleared, and LAPSED, which only a MARK clears, stays (R243). -/
def unmarkBob (b : Nat) (s : State) : State := s.setBob b { s.bob b with notch := none }
/-- The status of a REWIND (R229). -/
inductive Rewound where
  | ok
  | lapsed
  | noNotch
  deriving DecidableEq, Repr
/-- REWIND (R229): with a notch set, RP becomes NP; else the status says why not. -/
def rewindBob (b : Nat) (s : State) : State × Rewound :=
  match (s.bob b).notch with
  | some n => (s.setBob b { s.bob b with rp := n }, .ok)
  | none => (s, if (s.bob b).lapsed then .lapsed else .noNotch)

/-- The end of a CAN frame's use of its lane: the notch is cleared and the lane released up to RP (R231). -/
def canRelease (ep b : Nat) (s : State) : State :=
  if canNotch s ep b then releaseTo b (s.bob b).rp (unmarkBob b s) else s

/-- The two words of the head reference of a lane popped (R225, R229, R231): the state, the reference, and whether each word
is clean. -/
def popRef (ep b : Nat) (s : State) : State × Ref × Bool × Bool :=
  let v := s.bob b
  let (s1, w0, ok0) := readWord b (posAddr s b v.rp) s
  let (s2, w1, ok1) := readWord b (posAddr s b (v.rp + 1)) s1
  let s3 := if canNotch s ep b then s2.setBob b { s2.bob b with rp := v.rp + 2 } else laneSkip b s2
  (s3, refOf w0 w1, ok0, ok1)

/-- The pin of a reference read with the poison tag is returned where its record can be named (R238): without ADDR, in the pin
table of the ingress bobbin of its talker. -/
def poisonRef (k : Nat) (r : Ref) (ok0 ok1 : Bool) (s : State) : State :=
  let s1 := raise 0x8F20 4 (abortCount k .poison r.talker s)
  if ok0 then dropRef r.addr s1
  else if ok1 then
    match s1.pins.find? (fun e => e.2.talker = r.talker ∧ e.2.seq = r.seq ∧ 0 < e.2.refs ∧
        (List.range 3).any (fun m => e.2.bob = ingBob s1 (writerOf r.talker) m ∧ (s1.split ∨ m = 0))) with
    | some e => dropRef e.1 s1
    | none => s1
  else s1

/-! ## What an asynchronous transmitter sends (R211, R215, R216, R258, R259) -/

/-- A port changed. -/
def modPort (n : Nat) (f : Port → Port) (s : State) : State := s.setPort n (f (s.port n))

/-- A sentence of a port has ended (R190, R262). -/
def portEnd (ep n : Nat) (s : State) : State :=
  modPort n (fun p => { p with idle := false }) (serviceBoundary ep (setCur ep none s))

/-- The content of a unit so far: that of the IEC parser in its framing. -/
def unitPay (u : UnitSt) : List Byte := if field u.ctrl 0 3 = 1 then u.iec.pay else u.pay

/-- The bytes received of an early record that do not fill a word yet, where the record is the unit's own (R211). -/
def partBytes (a : Nat) (p : Pin) (s : State) : List Byte :=
  match (s.port p.talker).unit with
  | some u => if p.talker < 48 ∧ u.early = some a then (unitPay u).drop (4 * (p.words - 6)) else []
  | none => []

/-- The format of the record that a current sentence emits. -/
def curFmt (s : State) (c : Cur) : Nat :=
  match s.pin c.ref.addr with
  | some p => field (laneData s p.bob p.pos) 24 8
  | none => 0

/-- The length of a complete record's payload; the words written of one that is not complete. -/
def payLen (s : State) (p : Pin) : Nat :=
  if p.complete && !p.bad then min 2048 (field (laneData s p.bob p.pos) 0 16) else 4 * (p.words - 6)

/-- The payload bytes of a record that have been received so far (R211), without the effects of a read. -/
def cutBytes (s : State) (a : Nat) : List Byte :=
  match s.pin a with
  | none => []
  | some p =>
    let n := payLen s p
    (wordsBytes ((List.range ((n + 3) / 4)).map (fun i => laneData s p.bob (p.pos + 6 + i)))).take n ++
      (if p.complete then [] else partBytes a p s)

/-- Whether the record that a delivery emits is complete. -/
def curComplete (s : State) (c : Cur) : Bool := ((s.pin c.ref.addr).map (·.complete)).getD true

/-- A port takes two bytes to a character (R259). -/
def ninePort (s : State) (n : Nat) : Bool := decide (charBits (s.port n).txChar = 9)

/-- The characters that a current sentence has still to send, as far as they are known. -/
def curStream (s : State) (n : Nat) (c : Cur) : List Byte :=
  if c.ref.cut && !c.fin && !c.aborted then
    ((asyncBody (ninePort s n) (curFmt s c) (cutBytes s c.ref.addr) (curComplete s c)).getD []).drop c.sent
  else c.bytes.drop c.sent

/-- The character that a current sentence has in the transmit shifter, with the bytes that it takes: on a port of 9 data bits a
byte alone waits for its second, unless it is the last (R259). -/
def curShift (s : State) (n : Nat) (c : Cur) : Option (Nat × Nat) :=
  if c.hit || c.backoff then none
  else if c.shift.isSome then c.shift
  else
    let l := curStream s n c
    if l = [] then none
    else if ninePort s n && decide (l.length = 1) && c.ref.cut && !c.fin && !c.aborted && !curComplete s c then none
    else some (nextChar (s.port n).txChar l)

/-- The egress point whose sentence a port's transmitter sends: out of service, a loopback listener's (R277). -/
def portEp (s : State) (n : Nat) : Nat :=
  if (s.port n).oos then
    (if (s.eg 74).cur.isSome ∧ loopPort s 126 = n then 74 else if (s.eg 75).cur.isSome ∧ loopPort s 127 = n then 75 else n)
  else n

/-- The character in a port's transmit shifter, with the bytes that it takes (R246, R258, R263, R264, R277). -/
def shiftOf (s : State) (n : Nat) : Option (Nat × Nat) :=
  if s.awake = false ∨ (s.rb (apOff n 0) 0 = false ∧ (s.port n).txTail = false) then none
  else match (s.port n).linTx with
    | b :: _ => some (b.toNat, 1)
    | [] => (s.eg (portEp s n)).cur.bind (curShift s n)

/-- A character is in the transmit shifter (R263, R279). -/
def txBusy (s : State) (n : Nat) : Bool := (shiftOf s n).isSome

/-- A port takes part in a transmission of its own: its current sentence or a LIN header or response is being driven, idle
times between its characters included (R261, R265, R267). -/
def txActive (s : State) (n : Nat) : Bool :=
  decide ((s.port n).linTx ≠ []) || (s.port n).txTail ||
  (match (s.eg n).cur with
    | some c => !c.hit && !c.backoff && s.rb (apOff n 0) 0
    | none => false)

/-- A cut-through delivery of a port is found bad, with a character in the shifter or none (R109, R216): nothing is emitted before
the first character; else the character in the shifter completes and the format's abort sequence follows. -/
def cutAbort (n : Nat) (c : Cur) (sh : Option (Nat × Nat)) (o : CheckOut) (s : State) : State :=
  let s1 := abortCount c.lq o c.ref.talker s
  let rest := if c.sent = 0 ∧ sh.isNone then [] else asyncAbort (curFmt s c)
  if sh.isNone ∧ rest = [] then dropRef c.ref.addr (portEnd n n s1)
  else setCur n (some { c with aborted := true, bytes := rest, sent := 0, shift := sh }) s1

/-- A cut-through delivery reads what its next character needs (R211, R215): payload words one by one while they are in the store,
and after the last character of the content the trailer. -/
def cutLoad (n : Nat) : Nat → State → State
  | 0, s => s
  | k + 1, s =>
    match (s.eg n).cur with
    | none => s
    | some c =>
      match s.pin c.ref.addr with
      | none => s
      | some p =>
        let fmt := curFmt s c
        let nine := ninePort s n
        if c.ref.cut = false ∨ c.fin ∨ c.aborted then s
        else
          let len := payLen s p
          let all := p.complete && decide ((len + 3) / 4 ≤ c.read)
          let have_ := (asyncBody nine fmt c.bytes all).getD []
          if c.sent + (if nine ∧ all = false then 1 else 0) < have_.length then s
          else if c.read < (len + 3) / 4 then
            let (s1, w, ok) := readWord p.bob (posAddr s p.bob (p.pos + 6 + c.read)) s
            if ok then
              cutLoad n k (setCur n (some { c with read := c.read + 1, bytes := (c.bytes ++ wordBytes w).take len }) s1)
            else cutAbort n c none .poison s1
          else if p.complete then
            let (s1, x) := checkFrom 0 c.lq c.ref.addr (6 + c.read) true s
            if x.out ≠ .good then cutAbort n c none x.out s1
            else
              match asyncStream nine fmt x.v.pay true with
              | none => cutAbort n c none .mismatch s1
              | some bs => setCur n (some { c with bytes := bs, fin := true, repaired := x.repaired }) s1
          else s

/-- A current sentence of a port whose last character has gone ends (R190, R216, R218). -/
def curOver (ep n : Nat) (s : State) : State :=
  match (s.eg ep).cur with
  | none => s
  | some c =>
    if (c.ref.cut && !c.fin && !c.aborted) || c.shift.isSome || decide (c.sent < c.bytes.length) then s
    else if c.aborted then dropRef c.ref.addr (portEnd ep n s)
    else delivered c.lq c.ref (portEnd ep n s)

/-- A change of every port that emits a record as it arrives. -/
def onCuts (a : Nat) (f : Nat → Cur → State → State) (s : State) : State :=
  forAll (mapKeys s.egress) (fun n s =>
    match (s.eg n).cur with
    | some c => if n < 48 ∧ c.ref.addr = a ∧ c.ref.cut ∧ c.aborted = false ∧ c.fin = false then f n c s else s
    | none => s) s

/-- What has come of a record reaches the ports that emit it as it arrives (R211). -/
def cutFeed (a : Nat) (s : State) : State := onCuts a (fun n _ s => curOver n n (cutLoad n 520 s)) s

/-- The unit of a record is about to end badly: the ports that emit it abort as for poison (R109). -/
def cutBad (a : Nat) (s : State) : State := onCuts a (fun n c s => cutAbort n c (curShift s n c) .poison s) s

/-! ## Starting a sentence on its medium -/

/-- A sentence begun on a port drives its line and its direction enable (R262, R265). -/
def drivePort (n : Nat) (s : State) : State :=
  modPort n (fun p => { p with de := decide (lineMode s n = 2), idle := false }) s

/-- A cut-through delivery begun (R209, R215): a header word read with the poison tag keeps it from the medium (R237). -/
def beginCut (ep k b : Nat) (r : Ref) (p : Pin) (s : State) : State :=
  let (s1, h, ok) := readWords p.bob 6 p.pos s
  if ok.any (!·) || bit (wordAt h 0) 16 then canRelease ep b (dropRef r.addr (abortCount k .poison r.talker s1))
  else if 68 ≤ ep then
    placeSentence k r { v := { h := h, pw := [], tr := 0#32, bad := false, trBad := false }, out := .good } s1
  else
    let s2 := setCur ep (some { lq := k, bob := b, ref := r, idx := p.idx }) s1
    if ep < 48 then curOver ep ep (cutLoad ep 520 (drivePort ep s2)) else s2

/-- A delivery to a peer listener: its sentence frame is queued for flits (R394). -/
def beginPeer (k : Nat) (r : Ref) (p : Pin) (c : Checked) (s0 : State) : State :=
  let s1 := heldDelay k r s0
  let bad := decide (c.out ≠ .good)
  let ws := peerFrame (k - 116) (s1.rf (0xC020 + 4 * (k - 116)) 0 1) p.chkFail (c.repaired || p.repaired)
    (deliveredWords (deliveredH0 c.v.h r bad) c.v.h c.v.pw c.v.tr)
  let s2 := if s1.peer.txSub = k - 116 then s1 else peerFlush s1
  let q := s2.peer.txq ++ (ws.dropLast.map (fun w => (w, none))) ++ [(ws.getLastD 0#32, some (k, r))]
  peerPump 64 (abortCount k c.out r.talker { s2 with peer := { s2.peer with txq := q, txSub := k - 116 } })

/-- The format sink's check of a sentence for the medium of a port (R193). -/
def sinkFits (port : Nat) (r : Ref) (c : Checked) (s : State) : Bool :=
  if 0x44 ≤ port then true
  else if port < 0x30 ∧ linMode s port ∧ effFmt c.v.h c.v.pw = 0x18 then
    (linLoad port (effType c.v.h c.v.pw) (effContent c.v.h c.v.pay) s).isSome
  else (mediumUnits s port r c.v.h c.v.pw c.v.pay true).isSome

/-- A stored sentence that passed its check goes to a port's, controller's or T1S port's medium, or to its internal loop (R193,
R214, R271). -/
def beginMedium (ep k b port : Nat) (r : Ref) (p : Pin) (c : Checked) (s1 : State) : State :=
  if port < 0x30 ∧ linMode s1 port ∧ effFmt c.v.h c.v.pw = 0x18 ∧ ep < 48 then
    match linLoad port (effType c.v.h c.v.pw) (effContent c.v.h c.v.pay) s1 with
    | some s2 => delivered k r (heldDelay k r s2)
    | none => formatMismatch k r s1
  else
    match mediumUnits s1 port r c.v.h c.v.pw c.v.pay true with
    | none => canRelease ep b (formatMismatch k r s1)
    | some ([], none) => delivered k r (heldDelay k r s1)
    | some (bs, fr) =>
      let s2 := setCur ep (some { lq := k, bob := b, ref := r, idx := p.idx, bytes := bs, repaired := c.repaired, frame := fr })
        (heldDelay k r s1)
      match fr with
      | some o => if ep < 68 then emit o s2 else s2
      | none => if ep < 48 then drivePort ep s2 else s2

/-- A sentence that its egress point cannot or need not keep on a medium, or its start (R193, R214 to R217, R295, R374,
R394). The reference has been popped. -/
def beginRef (ep k b : Nat) (r : Ref) (s : State) : State :=
  let p := pinOr s r.addr
  let port := epPort s ep
  if p.bad then canRelease ep b (dropRef r.addr (withdrawn k s))
  else if r.cut then beginCut ep k b r p s
  else
    let (s1, c) := epCheck ep k r.addr s
    if ep = 70 then hostDeliver k r c s1
    else if ep = 71 then beginPeer k r p c s1
    else if c.out ≠ .good then canRelease ep b (dropRef r.addr (abortCount k c.out r.talker s1))
    else if 68 ≤ ep ∧ ep < 70 then placeSentence k r c s1
    else if ep = 72 then delivered k r (heldDelay k r s1)
    else if ep = 73 then
      if sinkFits port r c s1 then delivered k r (heldDelay k r s1) else formatMismatch k r s1
    else if 74 ≤ ep ∧ (0x44 ≤ port ∨ outOfService s1 port = false) then delivered k r (heldDelay k r s1)
    else beginMedium ep k b port r p c s1

/-- The head of a lane taken and begun (R196, R229, R238). -/
def startAt (ep k b : Nat) (s : State) : State :=
  let s0 := if canNotch s ep b then markBob b s else s
  let (s1, r, ok0, ok1) := popRef ep b s0
  if ok0 && ok1 then egRefresh ep (beginRef ep k b r s1)
  else egRefresh ep (canRelease ep b (poisonRef k r ok0 ok1 s1))

/-- A sentence boundary of an egress point (R196): the choice and the start. -/
def boundary (ep : Nat) (s : State) : State :=
  let s0 := serviceBoundary ep s
  if epReady s0 ep then
    let s1 := egRefresh ep s0
    match choose s1 ep with
    | (some c, s2) => startAt ep c.lq c.bob s2
    | (none, s2) => if ep = 71 then peerFlush s2 else s2
  else s0

end Sys2Proof.Machine
end

