-- ==== Sys2Proof/Machine/Fanout.lean ====
section
/-!
DEFINITION. From a released decision to the lanes (R188 to R194, R209 to R212), derived records (R157, R172 to R174) and the
holds of the tape unit (R93 to R98).
-/
namespace Sys2Proof.Machine

/-- The configuration of a listener that a decision's bank belongs to (R195, R417). -/
def lqCfg (s : State) (bank k : Nat) : Word :=
  if bank = s.cons.liveBank then s.liveReg (lqOff k) else mapGet regReset s.cons.prevLq (lqOff k)

/-! ## Cut-through -/

/-- Twice the length of a transmitted character in bits (R247, R258). -/
def txBits2 (c : Word) : Nat :=
  2 * (1 + charBits c + b2n (charPar c)) + stopHalves c
/-- Clock cycles per bit of a CAN bit timing register (R281, R303): in a data phase, values above their range act as the maximum. -/
def canCycles (v : Word) (data : Bool) : Nat :=
  let hold := fun (k m : Nat) => if data then min k m else k
  (hold (field v 0 8) 31 + 1) * (3 + hold (field v 8 8) 63 + hold (field v 16 7) 31)
/-- The link rate of a raw medium in Mb/s, by talker ID (R210, R291). -/
def rawRate (s : State) (t : Nat) : Nat :=
  if t < 0x44 then 10
  else match s.rf (euOff ((t - 0x44) / 8) 0) 1 2 with
    | 0 => 10000
    | 1 => 5000
    | 2 => 2500
    | _ => 1000

/-- The source medium is at least as fast as the listener's, and the listener's medium can carry the sentence (R210). -/
def fastEnough (s : State) (hd : Header) (k : Nat) : Bool :=
  let t := field (wordAt hd.h 1) 20 12
  let fmt := field (wordAt hd.h 0) 24 8
  if t < 0x30 then
    decide (k < 48) && !(linMode s k && decide (fmt = 0x18)) &&
      (asyncStream (charBits (s.port k).txChar = 9) fmt [] false).isSome &&
      decide (txBits2 (s.port t).rxChar * bitTime (s.port t).rxRate ≤ txBits2 (s.port k).txChar * bitTime (s.port k).txRate)
  else if t < 0x40 then
    let n := t - 0x30
    let m := k - 48
    decide (48 ≤ k ∧ k < 64) &&
      (canFrameOf m (s.reg (cnOff m 0)) 0#32 false fmt (wordAt hd.h 5) (List.replicate hd.keyLen 0#8)).isSome &&
      decide (canCycles (s.reg (cnOff n 4)) false ≤ canCycles (s.reg (cnOff m 4)) false) &&
      (decide (fmt ≠ 0x11) || decide (canCycles (s.reg (cnOff n 8)) true ≤ canCycles (s.reg (cnOff m 8)) true)) &&
      (decide (fmt ≠ 0x12) || decide (canCycles (s.reg (cnOff n 0x0C)) true ≤ canCycles (s.reg (cnOff m 0x0C)) true))
  else if t < 0x54 then
    (decide (64 ≤ k ∧ k < 68) || (decide (68 ≤ k ∧ k < 84) && decide (s.rf (stOff (k - 68) 0) 0 2 = 1))) &&
      decide (rawRate s (if k < 68 then 0x40 else 0x44 + (k - 68)) ≤ rawRate s t)
  else false

/-- A delivery of a decision is made cut-through (R32, R157, R209). -/
def cutThrough (s : State) (e : DecEntry) (k : Nat) : Bool :=
  e.hdr.early && e.dec.tmpl.isNone && e.dec.hold.isNone && fastEnough s e.hdr k && epIdle s (epOf k)

/-! ## Deliveries -/

/-- One delivery of a decision to a listener (R189, R194, R209). -/
def deliver (e : DecEntry) (k cls : Nat) (held mirror : Bool) (a : Nat) (s : State) : State :=
  let t := field (wordAt e.hdr.h 1) 20 12
  let sub := ((s.pin a).map (·.sub)).getD 0
  if 116 ≤ k ∧ k < 124 ∧ bit (wordAt e.hdr.h 0) 20 then countTalker t sub 6 1 s
  else
    let cfg := lqCfg s e.bank k
    let cut := !held && cutThrough s e k
    let r : Ref := { addr := a, cls := cls, held := held, mirror := mirror, cut := cut, talker := t,
                     seq := field (wordAt e.hdr.h 1) 0 20 }
    let idle := !cut && epIdle s (epOf k)
    let (s1, put) := pushRef k cfg r s
    -- the release verifier hands its words to a point that is idle
    let s1 := match s1.pin a with
      | some p => if put && idle && p.ver.isSome then s1.setPin a { p with handed := p.handed ++ [epOf k] } else s1
      | none => s1
    if put && cut then startAt (epOf k) k (laneBob k cfg (laneOf k cfg cls)) s1 else egRefresh (epOf k) s1

/-- The deliveries of a listener set that are withdrawn before they start (R109, R194, R217): the record that they would name is never
written. -/
def withdrawSet (e : DecEntry) (s : State) : State :=
  let t := field (wordAt e.hdr.h 1) 20 12
  forAll (lsetList e.dec.lset) (fun k s =>
    if 116 ≤ k ∧ k < 124 ∧ bit (wordAt e.hdr.h 0) 20 then countTalker t ((s.pin e.hdr.addr).map (·.sub) |>.getD 0) 6 1 s
    else if bit (lqCfg s e.bank k) 31 then withdrawn k s
    else laneDropped k 2 { addr := e.hdr.addr, talker := t, seq := field (wordAt e.hdr.h 1) 0 20 } s) s

/-- The deliveries of a listener set, ascending (R189). -/
def deliverSet (e : DecEntry) (cls : Nat) (held : Bool) (a : Nat) (s : State) : State :=
  forAll (lsetList e.dec.lset) (fun k => deliver e k cls held false a) s

/-- The mirror deliveries of a decision (R152, R189), of the original record. -/
def deliverMirrors (e : DecEntry) (s : State) : State :=
  forAll e.dec.mir (fun x => deliver e x.1 x.2 false true e.hdr.addr) s

/-- The pin of the time before fan-out ends (R190). -/
def waitOver (a : Nat) (s : State) : State := modPin a (fun p => { p with wait := 0 }) s

/-! ## Derived records -/

/-- The translation and cell outcomes of R186 with their cause bits. -/
def xcOverflow (s : State) : State := (raise 0x8180 1 (count (ctXc 6) 1 s)).setReg 0x8188 (w32 (6 * 0x400 + 0x2000))
/-- A derived record written with POISON (R174). -/
def xcPoison (s : State) : State := raise 0x8180 2 (count (ctXc 7) 1 s)

/-- The template of a decision: its image in the bank in which the decision was made (R172); the empty image when none was
loaded. -/
def tmplImg (s : State) (bank i : Nat) : List Word :=
  let e := if (s.eng 0).st = 0 then s.eng 0 else if (s.eng 1).st = 0 then s.eng 1 else s.eng 2
  img (if bank = 0 then e.bank0 else e.bank1) 8 i

/-- The header and content of a derived record (R172, R173); none when the content overflows or the template is empty. -/
def deriveRecord (s : State) (e : DecEntry) (c : Checked) : Option (List Word × List Byte) :=
  let h0 := wordAt c.v.h 0
  let bad := decide (c.out ≠ .good)
  let (h5, pay) := applyRewrites (field h0 24 8) (wordAt c.v.h 5) c.v.pay e.dec.rewrites
  let mk := fun (fmt : Nat) (x : Bool) (ty : Word) (body : List Byte) =>
    ([mkH0 fmt (field h0 21 3) (bit h0 20) (x || bit h0 19) bad body.length, wordAt c.v.h 1, wordAt c.v.h 2,
      wordAt c.v.h 3, wordAt c.v.h 4, ty], body)
  match e.dec.tmpl with
  | none => some (mk (field h0 24 8) false h5 pay)
  | some i =>
    let im := tmplImg s e.bank i
    if im = [] then none
    else
      let body := runTemplate im { vals := e.dec.f.map some, fmt := field h0 24 8, pay := pay, bind := wordAt c.v.h 1 }
      if 2048 < body.length then none
      else some (mk (field (wordAt im 0) 0 8) true (if bit (wordAt im 0) 20 then h5 else wordAt im 1) body)

/-- A record written into a derivation bobbin and pinned (R172, R230, R233); RP follows the words written. -/
def writeDerived (b : Nat) (p0 : Pin) (ws : List Word) (full : Bool) (s : State) : State × Option Nat :=
  if bobFree s b < ws.length then (heldSpaceDrop b s, none)
  else
    let v := s.bob b
    let a := posAddr s b v.wp
    let s1 := pushWords b ws s
    let s2 := s1.setBob b { s1.bob b with rp := (s1.bob b).wp }
    (s2.setPin a { bob := b, pos := v.wp, words := ws.length, talker := p0.talker, seq := p0.seq, idx := p0.idx, mrg := p0.mrg,
                   wait := 1, chkFail := p0.chkFail, repaired := p0.repaired, sub := p0.sub, complete := full, bad := p0.bad }, some a)

/-- The derived record of a decision built from a complete original (R172 to R174, R232). Of an original whose unit ended badly after
its early header none is written, and what would have named it is withdrawn (R109). -/
def buildDerived (m : Nat) (e : DecEntry) (s : State) : State × Option Nat :=
  if ((s.pin e.hdr.addr).map (·.bad)).getD false then (withdrawSet e s, none)
  else
  let (s1, c) := checkRecord 2 0 e.hdr.addr s
  match deriveRecord s1 e c with
  | none => (xcOverflow s1, none)
  | some (h, body) =>
    let s2 := whenDo (decide (c.out ≠ .good)) xcPoison s1
    let p0 := (s2.pin e.hdr.addr).getD {}
    writeDerived (derivBob s2 (if s2.split then m else 0)) { p0 with repaired := p0.repaired || c.repaired } (recordWords h body) true s2

/-- The words of a derived record that is built word by word which the original's words so far give (R157): those before the
first write that reaches past them, which the final LENGTH decides. -/
def buildPrefix (fmt : Nat) (h5 : Word) (rs : List Rewrite) (pw : List Word) : List Word :=
  let n := 4 * pw.length
  let (_, pay) := applyRewrites fmt h5 (wordsBytes pw ++ List.replicate (2048 - n) 0x00#8) rs
  let safe := rs.foldl (fun k r => min k ((r.openAt n).getD n)) n
  bytesWords (pay.take (safe / 4 * 4))

/-- A derived record that is built word by word ends without its words (R109, R232): what emits it aborts, and what waits is
withdrawn. -/
def buildEnds (x : Build) (s : State) : State :=
  let s1 := cutBad x.addr s
  let s2 := match s1.pin x.addr with
    | some p => unpinCheck x.addr (s1.setPin x.addr { p with bad := true, complete := true })
    | none => s1
  modPin x.orig (fun p => { p with wait := 0 }) { s2 with builds := s2.builds.filter (fun y => y.addr ≠ x.addr) }

/-- The original of a derived record that is built word by word is complete (R157, R174): its last words and its trailer are read, and
the derived record gets the rest of its words, its final header and its trailer. -/
def buildLast (x : Build) (pd : Pin) (fmt : Nat) (s : State) : State :=
  let (s1, c) := checkFrom 2 0 x.orig (6 + x.read) (!x.bad) s
  let bad := decide (c.out ≠ .good)
  let h0 := wordAt c.v.h 0
  let (h5', pay) := applyRewrites fmt (wordAt c.v.h 5) c.v.pay x.rewrites
  let h := [mkH0 fmt (field h0 21 3) (bit h0 20) (bit h0 19) bad pay.length, wordAt c.v.h 1, wordAt c.v.h 2, wordAt c.v.h 3,
    wordAt c.v.h 4, h5']
  let ws := recordWords h pay
  let rest := ws.drop (6 + x.words)
  let s2 := whenDo bad xcPoison s1
  if bobFree s2 pd.bob < rest.length then buildEnds x (heldSpaceDrop pd.bob s2)
  else
    let s3 := pushWords pd.bob rest ((s2.setWord x.addr (wordAt ws 0)).setWord (posAddr s2 pd.bob (pd.pos + 5)) h5')
    let s4 := s3.setBob pd.bob { s3.bob pd.bob with rp := (s3.bob pd.bob).wp }
    let s5 := s4.setPin x.addr { pd with words := ws.length, complete := true, repaired := pd.repaired || c.repaired }
    let s6 := cutFeed x.addr { s5 with builds := s5.builds.filter (fun y => y.addr ≠ x.addr) }
    modPin x.orig (fun p => { p with wait := 0 }) (unpinCheck x.addr s6)

/-- A derived record that is built word by word goes on (R157, R236): the original's new words are read, and the words that they give
are written; the derivation unit does not wait for space (R232). -/
def buildStep (x : Build) (s : State) : State :=
  match s.pin x.orig, s.pin x.addr with
  | some po, some pd =>
    let fmt := field (s.data x.orig) 24 8
    let h5 := (laneData s po.bob (po.pos + 5))
    if po.bad then buildEnds x s
    else if po.complete then buildLast x pd fmt s
    else
      let n := po.words - 6
      let (s0, _, oks) := readWords po.bob (n - x.read) (po.pos + 6 + x.read) s
      let pw := (List.range n).map (fun i => laneData s po.bob (po.pos + 6 + i))
      let ws := (buildPrefix fmt h5 x.rewrites pw).drop x.words
      if bobFree s0 pd.bob < ws.length then buildEnds x (heldSpaceDrop pd.bob s0)
      else
        let s1 := pushWords pd.bob ws s0
        let s2 := s1.setBob pd.bob { s1.bob pd.bob with rp := (s1.bob pd.bob).wp }
        let s3 := s2.setPin x.addr { pd with words := pd.words + ws.length }
        let y : Build := { x with words := x.words + ws.length, read := n, bad := x.bad || oks.any (!·) }
        cutFeed x.addr { s3 with builds := s3.builds.map (fun z => if z.addr = x.addr then y else z) }
  | _, _ => { s with builds := s.builds.filter (fun y => y.addr ≠ x.addr) }

/-- Every derived record that is being built from a record goes on. -/
def buildsFor (a : Nat) (s : State) : State := forAll (s.builds.filter (fun x => x.orig = a)) buildStep s

/-- A cut-through derived record begun (R157): its header words. -/
def beginBuild (m : Nat) (e : DecEntry) (s : State) : State × Option Nat :=
  let p0 := (s.pin e.hdr.addr).getD {}
  let (s0, h, oks) := readWords p0.bob 6 p0.pos s
  let (h5, _) := applyRewrites (field (wordAt h 0) 24 8) (wordAt h 5) (List.replicate 2048 0x00#8) e.dec.rewrites
  let (s1, a) := writeDerived (derivBob s (if s.split then m else 0)) p0 (h.take 5 ++ [h5]) false s0
  match a with
  | none => (s1, none)
  | some d =>
    (buildsFor e.hdr.addr { s1 with
      builds := s1.builds ++ [{ orig := e.hdr.addr, addr := d, rewrites := e.dec.rewrites, bad := oks.any (!·) }] }, some d)

/-! ## Holds -/

/-- An outcome of a held entry counted (R98, R429). -/
def holdCount (k t sub : Nat) (s : State) : State := count (ctHold k) 1 (countTalker t sub 7 1 s)

/-- The references of a fired hold placed at P0 under the listener settings live at the firing, its pin returned (R94, R189, R195,
R200, R417). -/
def placeHeld (x : Held) (s : State) : State :=
  let e : DecEntry := { hdr := { addr := x.orig, h := recHead s x.addr, idx := x.idx }, dec := x.dec, bank := s.cons.liveBank }
  let s1 := modPin x.addr (fun p => { p with due := targetDt s x.target, wait := 1 }) s
  modPin x.addr (fun p => { p with holds := p.holds - 1, wait := 0 }) (deliverSet e 0 true x.addr s1)

/-- A held entry taken out of the pool. -/
def dropHeld (x : Held) (s : State) : State :=
  { s with tape := { s.tape with held := s.tape.held.filter (fun y => ¬ (y.mrg = x.mrg ∧ y.idx = x.idx)) } }

/-- A held entry fires (R94): it places its references, or, when its derived record is still to be built, waits for that. -/
def fireHeld (x : Held) (s : State) : State :=
  if x.need then
    { s with tape := { s.tape with held := s.tape.held.map (fun y =>
        if y.mrg = x.mrg ∧ y.idx = x.idx then { y with fired := true } else y) } }
  else placeHeld x (dropHeld x s)

/-- A held entry withdrawn without a delivery (R95, R97). -/
def cancelHeld (x : Held) (s : State) : State :=
  let s1 := dropHeld x s
  let s2 := if x.need then { s1 with fan := s1.fan.filter (fun j => ¬ (j.later ∧ j.mrg = x.mrg ∧ j.ent.hdr.idx = x.idx)) } else s1
  modPin x.addr (fun p => { p with holds := p.holds - 1 }) s2

/-- The talker and sub-channel of a record's side-table entry. -/
def pinTalker (s : State) (a : Nat) : Nat × Nat :=
  match s.pin a with
  | some p => (p.talker, p.sub)
  | none => (0, 0)

/-- The LOST option of a held entry (R97). -/
def lostHeld (x : Held) (s : State) : State :=
  let (t, sub) := pinTalker s x.orig
  let drop := (x.dec.hold.map (·.lostDrop)).getD false
  if drop then cancelHeld x (holdCount 3 t sub s) else fireHeld x (holdCount 2 t sub s)

/-- The late option of a held entry that a jump has carried past (R95). -/
def lateHeld (x : Held) (s : State) : State :=
  let (t, sub) := pinTalker s x.orig
  let s1 := raise 0x3040 (0x200000) s
  match (x.dec.hold.map (·.late)).getD 0, x.target with
  | 1, _ => cancelHeld x (holdCount 1 t sub s1)
  | 2, .phase ch _ ang _ =>
    { s1 with tape := { s1.tape with held := s1.tape.held.map (fun y =>
        if y.mrg = x.mrg ∧ y.idx = x.idx then { y with target := nextNotLate s1 ch ang } else y) } }
  | _, _ => fireHeld x (holdCount 1 t sub s1)

/-- What the tape unit does with a decision's hold at acceptance (R93, R95, R97, R98). -/
inductive HoldOut where
  | wait (t : Target)
  /-- Released at acceptance, with the DT of its target where it has one. -/
  | now (due : Option Nat)
  | drop
  deriving DecidableEq, Repr

/-- The acceptance of a hold (R93, R95, R97, R98). -/
def acceptHold (e : DecEntry) (x : HoldSpec) (s : State) : State × HoldOut :=
  let (t, sub) := pinTalker s e.hdr.addr
  let stamp := (mkD (wordAt e.hdr.h 3) (wordAt e.hdr.h 2)).toNat
  match holdTarget s x stamp (wordAt e.hdr.h 4) with
  | none => if x.lostDrop then (holdCount 3 t sub s, .drop) else (holdCount 2 t sub s, .now none)
  | some g =>
    if targetLate s g then
      let s1 := raise 0x3040 (0x200000) s
      match x.late, g with
      | 1, _ => (holdCount 1 t sub s1, .drop)
      | 2, .phase ch _ ang _ =>
        if 8192 ≤ s1.tape.held.length then
          (holdCount 4 t sub (raise 0x3040 (0x400000) s1), if x.lostDrop then .drop else .now (targetDt s g))
        else (s1, .wait (nextNotLate s1 ch ang))
      | _, _ => (holdCount 1 t sub s1, .now (targetDt s g))
    else if 8192 ≤ s.tape.held.length then
      (holdCount 4 t sub (raise 0x3040 (0x400000) s), if x.lostDrop then .drop else .now (targetDt s g))
    else (s, .wait g)

/-! ## Fan-out -/

/-- Whether some delivery of a decision that only rewrites may be cut through (R157, R209). -/
def wantsCut (s : State) (e : DecEntry) : Bool := (lsetList e.dec.lset).any (fun k => bit (lqCfg s e.bank k) 31 && cutThrough s e k)

/-- A job whose listener set goes to a record, then the mirror set (R189). -/
def finishJob (j : FanJob) (a : Option Nat) (s : State) : State :=
  let cls := if j.held then 0 else j.ent.dec.cls
  let s1 := match a with
    | none => s
    | some d =>
      if j.later then s
      else if j.held then
        deliverSet { j.ent with bank := s.cons.liveBank } cls true d (modPin d (fun p => { p with due := j.due, wait := 1 }) s)
      else deliverSet j.ent cls false d s
  let s2 := if j.later then s1 else deliverMirrors j.ent s1
  let s3 := match a with
    | some d => if j.later then s2 else waitOver d s2
    | none => s2
  if s3.builds.any (fun x => x.orig = j.ent.hdr.addr) then s3 else waitOver j.ent.hdr.addr s3

/-- The jobs at the front of the fan-out order that can be done now, in release order (R189): one whose references wait for a derived
record holds back those behind it; one that only builds the record of a hold does not. -/
def fanGo : Nat → List FanJob → State → List FanJob × State
  | 0, l, s => (l, s)
  | _, [], s => ([], s)
  | n + 1, j :: t, s =>
    if j.derive = false then fanGo n t (finishJob j (some j.ent.hdr.addr) s)
    else if j.later then
      let (l, s1) := fanGo n t s
      (j :: l, s1)
    else if !(((s.pin j.ent.hdr.addr).map (·.complete)).getD true) && !j.held && wantsCut s j.ent then
      let (s1, a) := beginBuild j.mrg j.ent s
      fanGo n t (finishJob j a s1)
    else (j :: t, s)

/-- Fan-out of the jobs that can go (R189). -/
def fanRun (s : State) : State :=
  let (l, s1) := fanGo (s.fan.length + 1) s.fan { s with fan := [] }
  { s1 with fan := l ++ s1.fan }

/-- The mirror set less the listeners that are in the listener set too (R137). -/
def mirOnlySet (d : Decision) : List (Nat × Nat) := d.mir.filter (fun x => decide (x.1 ∉ lsetList d.lset))

/-- A released decision enters fan-out (R137, R189, R93). -/
def fanRelease (m : Nat) (e0 : DecEntry) (s : State) : State :=
  let e := { e0 with dec := { e0.dec with mir := mirOnlySet e0.dec } }
  let derive := e.dec.tmpl.isSome || !e.dec.rewrites.isEmpty
  let a := e.hdr.addr
  match e.dec.hold with
  | none =>
    fanRun { s with fan := s.fan ++ [{ mrg := m, ent := e, derive := derive }] }
  | some x =>
    if e.dec.lset = 0#128 then fanRun { s with fan := s.fan ++ [{ mrg := m, ent := e, derive := derive }] }
    else
      match acceptHold e x s with
      | (s1, .now due) => fanRun { s1 with fan := s1.fan ++ [{ mrg := m, ent := e, derive := derive, held := true, due := due }] }
      | (s1, .drop) =>
        fanRun { s1 with fan := s1.fan ++ [{ mrg := m, ent := { e with dec := { e.dec with lset := 0#128 } }, derive := derive }] }
      | (s1, .wait g) =>
        let h : Held := { mrg := m, idx := e.hdr.idx, addr := a, orig := a, dec := e.dec, bank := e.bank, target := g, need := derive }
        let s2 := { s1 with tape := { s1.tape with held := s1.tape.held ++ [h] } }
        let s3 := modPin a (fun p => { p with holds := p.holds + 1 }) s2
        let mirOnly : FanJob := { mrg := m, ent := { e with dec := { e.dec with lset := 0#128 } }, derive := false }
        fanRun { s3 with fan := s3.fan ++ mirOnly :: (if derive then [{ mrg := m, ent := e, derive := true, later := true }] else []) }

/-- A derived record for a hold stands ready: the held entry names it, or places it when it has fired (R174). -/
def heldReady (j : FanJob) (a : Option Nat) (s : State) : State :=
  match s.tape.held.find? (fun y => y.mrg = j.mrg ∧ y.idx = j.ent.hdr.idx) with
  | none =>
    match a with
    | some d => waitOver d s
    | none => s
  | some x =>
    let orig := modPin x.orig (fun p => { p with holds := p.holds - 1 })
    match a with
    | none => orig (dropHeld x s)
    | some d =>
      let y := { x with addr := d, need := false }
      let s1 := orig (modPin d (fun p => { p with holds := p.holds + 1, wait := 0 }) s)
      let s2 := { (dropHeld x s1) with tape := { (dropHeld x s1).tape with held := (dropHeld x s1).tape.held ++ [y] } }
      if x.fired then fireHeld y s2 else s2

/-- Whether a job waits for a derivation that can be made now. -/
def derivable (s : State) (j : FanJob) : Bool := j.derive && ((s.pin j.ent.hdr.addr).map (·.complete)).getD true

/-- The first job whose derived record can be built, none behind a job that waits for its original (R189). -/
def nextDerive (s : State) : List FanJob → Option FanJob
  | [] => none
  | j :: t => if derivable s j then some j else if j.derive && !j.later then none else nextDerive s t

/-- The derivation unit builds the next derived record (R172). -/
def deriveNext (s : State) : State :=
  match nextDerive s s.fan with
  | none => s
  | some j =>
    let (s1, a) := buildDerived j.mrg j.ent { s with fan := s.fan.erase j }
    let s2 := if j.later then heldReady j a s1 else s1
    let s3 := finishJob j a s2
    fanRun s3

end Sys2Proof.Machine
end

