-- ==== Sys2Proof/Machine/Tape.lean ====
section
/-!
DEFINITION. The tape unit (R69 to R101): steps, the servo, phase channels, held releases, strobes and PPS_OUT.
-/
namespace Sys2Proof.Machine

/-- The tape unit replaced. -/
def modTape (f : Tape → Tape) (s : State) : State := { s with tape := f s.tape }

/-! ## Grids and steps (R73, R77, R100, R178) -/

/-- The first instant of a grid with an interval, from a base on, that is not before an instant; interval 0 has the base
alone. -/
def gridNext (base per dt : Nat) : Option Nat :=
  if dt ≤ base then some base else if per = 0 then none else some (base + (dt - base + per - 1) / per * per)

/-- The first instant of a grid fixed to DT by an offset, not before an instant. -/
def gridMod (ofs : Int) (per dt : Nat) : Nat := dt + intMod (ofs - Int.ofNat dt) per

/-- The next PPS_OUT instant not before DT (R77). -/
def ppsGrid (s : State) (dt : Nat) : Option Nat :=
  if s.rb 0x3030 0 then some (gridMod (sInt (s.reg 0x3034)) 1000000000 dt) else none

/-- TP_POn registers. -/
def poOff (n r : Nat) : Nat := 0x3300 + 0x20 * n + r
/-- The mode of a strobe (R100): 0 ANGLE, 1 DT_PERIOD, 2 DT_ONESHOT. -/
def poMode (s : State) (n : Nat) : Nat := let m := s.rf (poOff n 0) 1 2; if m = 3 then 0 else m

/-- A strobe's next leading edge in the DT modes, not before an instant (R100). -/
def poNext (s : State) (n dt : Nat) : Option Nat :=
  let d := (s.strobe n).dt.toNat
  if s.rb (poOff n 0) 0 = false then none
  else match poMode s n with
    | 1 => gridNext d (s.reg (poOff n 0x0C)).toNat dt
    | 2 => some d
    | _ => none

/-- The active level of a strobe is driven (R100). -/
def poDrive (n : Nat) (on : Bool) (s : State) : State := emit (.pin n (on != s.rb (poOff n 0) 5)) s

/-- A leading edge of a strobe (R100, R101): an active pulse restarts with PO_OVERLAP; DT_ONESHOT clears EN. -/
def poFire (n : Nat) (s : State) : State :=
  let v := s.strobe n
  let s1 := whenDo v.active (raise 0x3040 (0x800000)) s
  let s2 := poDrive n true (s1.setStrobe n { v with active := true })
  if poMode s n = 2 then
    touch (poOff n 0) 1 ((s2.setReg (poOff n 0) (setField (s2.reg (poOff n 0)) 0 1 0)).setStrobe n { s2.strobe n with next := none })
  else s2

/-- The schedules that DT values fix, after DT has been set to a value by a step (R73). -/
def regrid (s : State) : State :=
  let dt := s.dt
  let s1 := modTape (fun t => { t with ppsNext := ppsGrid s dt }) s
  let s2 := forAll [0, 1, 2, 3] (fun n s => if poMode s n = 1 then s.setStrobe n { s.strobe n with next := poNext s n dt } else s) s1
  { s2 with cells := s2.cells.map (fun e =>
      let im := img (devBank s2) 9 e.1
      (e.1, if e.2.nextDt.isSome then
        { e.2 with nextDt := some (gridMod (Int.ofNat (wordAt im 2).toNat) (1000 * (wordAt im 1).toNat) dt) } else e.2)) }

/-- A step of DT by a signed number of nanoseconds (R72, R73). -/
def stepDt (d : Int) (s : State) : State :=
  let old := s.dt
  let s1 := modTape (fun t => { t with steps := (t.clk, t.ofs) :: t.steps, ofs := t.ofs + d }) s
  let new := s1.dt
  let s2 := modTape (fun t => { t with held := t.held.map (fun h =>
    match h.target with
    | .dt x => if 0 < d ∧ old < x ∧ x ≤ new then { h with stepped := true } else h
    | _ => h) }) s1
  raise 0x3040 (0x100000) (regrid s2)

/-- A write of TP_STEP_HI (R70, R72). -/
def wrStepHi (v : Word) (s : State) : State :=
  modTape (fun t => { t with dtValid := true }) (stepDt (signed 64 (mkD v (s.reg 0x3018)).toNat) s)

/-- FREQ set, saturated to its range (R71). -/
def setFreq (v : Word) (s : State) : State :=
  let f := sInt v
  let g := clampInt (-0x20C49BA5) 0x20C49BA5 f
  modTape (fun t => { t with freq := w32 (unsigned 32 g) }) (whenDo (decide (g ≠ f)) (raise 0x3040 (0x80000)) s)

/-- A write of TP_FREQ (R71, R74). -/
def wrFreq (v : Word) (s : State) : State := if s.rf 0x3020 0 2 = 0 then setFreq v s else s

/-- A write of TP_CTRL (R70). -/
def wrTpCtrl (v : Word) (s : State) : State := whenDo (bit v 0) (modTape (fun t => { t with dtValid := true })) s

/-! ## The servo (R74 to R76) -/

/-- The servo moves to a state; leaving LOCKED raises DISC_UNLOCK. -/
def servoTo (st : Nat) (s : State) : State :=
  let s1 := whenDo (decide (s.tape.servo = 2 ∧ st ≠ 2)) (raise 0x3040 (0x40000)) s
  modTape (fun t => { t with servo := st, lockCnt := 0 }) s1

/-- A write of TP_DISC (R74, R76). -/
def wrDisc (v : Word) (s : State) : State :=
  let was := s.rf 0x3020 0 2
  let s1 := s.setReg 0x3020 (v &&& 0xFFFF#32)
  let now := field v 0 2
  if now = 0 then servoTo 0 s1 else if now ≠ was then servoTo 1 s1 else s1

/-- The loop driven by a sample: FREQ takes a free value (R76). -/
def servoDrive (s : State) : State :=
  let (n, s1) := s.fresh
  setFreq (Config.servoFreq n) s1

/-- A servo sample (R76). -/
def servoSample (off : Int) (s : State) : State :=
  let far := decide (2 ^ (s.rf 0x3020 5 3) * 1000 < off.natAbs)
  let near := decide (off.natAbs ≤ 2 ^ (s.rf 0x3020 8 4))
  match s.tape.servo with
  | 1 =>
    let s1 := if far then stepDt (-off) s else servoDrive s
    let n := if near then s1.tape.lockCnt + 1 else 0
    if 8 ≤ n then raise 0x3040 (0x20000) (modTape (fun t => { t with servo := 2, lockCnt := 0, dtValid := true }) s1)
    else modTape (fun t => { t with lockCnt := n }) s1
  | 2 => if far then servoTo 1 s else servoDrive s
  | 3 => servoTo 1 s
  | _ => s

/-- A write of TP_OFFS (R74, R76): a sample for the AS sources. -/
def wrOffs (v : Word) (s : State) : State := if 2 ≤ s.rf 0x3020 0 2 then servoSample (sInt v) s else s

/-- A rising edge of PPS_IN (R75). -/
def ppsIn (age : Nat) (s : State) : State :=
  let c := capture s (age + trimPs s 124) 25 0 false
  let s1 := (s.setReg 0x3028 (w32 c.dt)).setReg 0x302C (w32 (c.dt / 0x100000000))
  let e : Int := Int.ofNat (c.dt % 1000000000)
  if s.rf 0x3020 0 2 = 1 then servoSample (if 500000000 ≤ e then e - 1000000000 else e) s1 else s1

/-- No sample for the servo's limit (R76). -/
def servoMiss (s : State) : State :=
  let src := s.rf 0x3020 0 2
  if src ≠ 0 ∧ (s.tape.servo = 1 ∨ s.tape.servo = 2) then
    whenDo (decide (src = 1)) (raise 0x3040 (0x10000)) (raise 0x3040 (0x40000) (servoTo 3 s))
  else s

/-! ## Phase channels (R79 to R88) -/

/-- TP_PRn registers. -/
def prOff (n r : Nat) : Nat := 0x3100 + 0x40 * n + r
/-- The mode that a TP_PRn_CFG value selects (R79): 0 OFF, 1 ZC, 2 QE, 3 PP, 4 EXT. -/
def prMode (v : Word) : Nat := let m := field v 0 3; if 4 < m then 0 else m
/-- CPR, at least 1 as a divisor. -/
def prCpr (s : State) (n : Nat) : Nat := max 1 (s.rf (prOff n 0x0C) 0 24)
/-- PP_MISS (R79). -/
def prMiss (v : Word) : Nat := max 1 (field v 26 2)

/-- A new stretch of motion from now on. -/
def Chan.push (c : Chan) (g : Seg) : Chan := { c with segs := g :: c.segs }

/-- The outcome of a cell or, without a cell, of a TRANSLATE in SE_XC_LAST (R187). -/
def xcLast (c : Option Nat) (k : Nat) (s : State) : State :=
  s.setReg 0x8188 (w32 (c.getD 0 + k * 0x400 + b2n c.isNone * 0x2000))

/-- The enabled PHASE cells on a channel (R178). -/
def phaseCells (s : State) (n : Nat) : List Nat :=
  ((devBank s).filter (fun e => decide (e.1 / 65536 = 9) && bit (wordAt e.2.img 0) 2 &&
    decide (field (wordAt e.2.img 0) 0 2 = 1 ∧ field (wordAt e.2.img 0) 4 2 = n))).map (fun e => e.1 % 65536)

/-- SKIP_LOST for the PHASE cells on a channel (R178). -/
def skipLost (n : Nat) (s : State) : State :=
  forAll (phaseCells s n) (fun c s => xcLast (some c) 4 (raise 0x8180 8 (count (ctXc 4) 1 s))) s

/-- A PHASE cell's channel is watched from now on: what it has reached before does not fire (R178, R185). -/
def cellSkip (c : Nat) (s : State) : State := s.setCell c { s.cell c with since := s.now }

/-- An ANGLE strobe's channel is watched from now on (R100, R101). -/
def strobeSkip (n : Nat) (s : State) : State := s.setStrobe n { s.strobe n with since := s.now }

/-- The pending stitch and fittings with a target on a channel that is lost take effect at once with PHASE_LOST (R99). -/
def schedLost (n : Nat) (s : State) : State :=
  let on := fun (t : Option Target) => match t with
    | some (.phase ch _ _ _) => decide (ch = n)
    | _ => false
  let c := { s.cons with
    stitch := s.cons.stitch.map (fun x => if on x.target && !x.ripe then { x with target := none, ripe := true, status := 8 } else x),
    fits := s.cons.fits.map (fun x => if on x.target && !x.ripe then { x with target := none, ripe := true, status := 8 } else x) }
  { s with cons := c }

/-- Held entries on a channel, in index order. -/
def heldOn (s : State) (n : Nat) : List Held :=
  sortBy (fun a b => decide (a.idx ≤ b.idx)) (s.tape.held.filter (fun h => (match h.target with
    | .phase ch _ _ _ => decide (ch = n)
    | _ => false) && !h.fired))

/-- A channel enters LOST or OFF (R83, R97, R99, R178): count and angle freeze, and what waits on it is handled. -/
def enterLost (n st : Nat) (s : State) : State :=
  let c := s.chan n
  let s1 := s.setChan n { (c.push { t := s.now, st := st, pos := chanPos c s.now, rate := 0 }) with
    lastEv := none, prev := none, teeth := none }
  let s2 := forAll (heldOn s1 n) lostHeld s1
  skipLost n (schedLost n s2)

/-- One turn in the units of a position. -/
def turn : Int := 0x10000000000000000

/-- TP_PRn_OFFSET as a position (R79). -/
def prOfs (v : Word) : Int := Int.ofNat (field v 0 24) * 0x10000000000
/-- TP_PRn_NOM in picoseconds (R82). -/
def prNom (s : State) (n : Nat) : Nat := 1000 * (s.reg (prOff n 4)).toNat
/-- How far a channel moves from one reference event to the next (R79): a cycle in ZC, a count or tooth in QE and PP. -/
def prStep (s : State) (n : Nat) : Int :=
  let m := prMode (s.reg (prOff n 0))
  if m = 2 ∨ m = 3 then turn / Int.ofNat (prCpr s n) else turn

/-- The rate with which the loop starts from NOM (R83), in 2^-64 turn per picosecond; free in EXT mode, where NOM gives none. -/
def nomRate (s : State) (n : Nat) : Int × State :=
  if prMode (s.reg (prOff n 0)) = 4 then
    let (k, s1) := s.fresh
    (signed 64 (Config.loopRate k).toNat, s1)
  else (prStep s n / Int.ofNat (max 1 (prNom s n)), s)

/-- The counted position of a QE channel with an OFFSET (R79, R85). -/
def qePos (s : State) (n : Nat) (ofs : Word) (cnt : Int) : Int := cnt * turn / Int.ofNat (prCpr s n) + prOfs ofs

/-- The bounds of the interpolated angle of a QE channel: the count boundaries beside the counted position (R85). -/
def qeBounds (s : State) (n : Nat) (ofs : Word) : Option Int × Option Int :=
  if prMode (s.reg (prOff n 0)) = 2 then
    let q := (s.chan n).qcnt
    (some (qePos s n ofs (q - 1)), some (qePos s n ofs (q + 1)))
  else (none, none)

/-- A channel enters ACQUIRE at a position that it has at an elapsed instant (R82, R83): the expected period is NOM, the motion goes
on from NOM in a direction, and the event that causes the entry, if any, counts as the first. -/
def enterAcquire (n : Nat) (pos : Int) (at_ : Nat) (dir : Int) (ev : Bool) (s : State) : State :=
  let (r, s1) := nomRate s n
  let c := s1.chan n
  let b := qeBounds s1 n c.ofs
  let g : Seg := { t := s1.now, st := 1, pos := pos + dir * r * Int.ofNat (s1.now - at_), rate := dir * r, lo := b.1, hi := b.2 }
  let s2 := s1.setChan n { (c.push g) with
    per := prNom s1 n, freq := dir * r, base := some pos, lastEv := if ev then some at_ else none, evs := b2n ev, good := 0,
    prev := none, teeth := none }
  forAll (phaseCells s2 n) cellSkip s2

/-- How far a position lies past a phase target in the target's direction. -/
def pastAt (p : Int) : Target → Int
  | .phase _ cyc ang rev => if rev then -(beyond p cyc ang) else beyond p cyc ang
  | .dt _ => 0

/-- The pending stitch and fittings that a jump of a channel has carried past (R95, R99): they are late, and take effect. -/
def schedPast (p : Target → Bool) (s : State) : State :=
  let hit := fun (t : Option Target) (ripe : Bool) => t.any p && !ripe
  let n := (s.cons.stitch.toList.filter (fun x => hit x.target x.ripe)).length +
    (s.cons.fits.filter (fun x => hit x.target x.ripe)).length
  let c := { s.cons with
    stitch := s.cons.stitch.map (fun x => if hit x.target x.ripe then { x with ripe := true, status := 7 } else x),
    fits := s.cons.fits.map (fun x => if hit x.target x.ripe then { x with ripe := true, status := 7 } else x) }
  whenDo (decide (n ≠ 0)) (raise 0x3040 0x200000) { s with cons := c }

/-- What waits for a target that a jump of a channel has carried past (R95, R99). -/
def carriedPast (n : Nat) (old new : Int) (s : State) : State :=
  let past := fun (t : Target) => (match t with
    | .phase ch _ _ _ => decide (ch = n)
    | .dt _ => false) && decide (pastAt old t < 0 ∧ 0 < pastAt new t)
  schedPast past (forAll ((heldOn s n).filter (fun h => past h.target)) lateHeld s)

/-- The settings in force from an event on (R88). -/
def evSettings (s : State) (n : Nat) (c : Chan) : Chan := { c with cfg := s.reg (prOff n 0), ofs := s.reg (prOff n 8) }

/-- INPUT_ERR of a channel. -/
def inputErr (n : Nat) : State → State := raise 0x3040 (2 ^ (12 + n))

/-- A reference event as the loop takes it (R79 to R87): its elapsed instant, its absolute position where it has one, how far the
channel moves to it from the event before, the interval since that event, and whether that interval is outside R82. -/
structure RefEv where
  te : Nat
  pos : Option Int
  step : Int
  iv : Option Nat
  bad : Bool
  deriving DecidableEq, Repr

/-- The phase error of a position against the channel's own at the event, less than half a turn (R84). -/
def phaseErr (here pos : Int) : Int := signed 64 (unsigned 64 (here - pos))

/-- The loop's proportional and integral terms for a phase error (R81): damping 0.707, natural bandwidth f / 2^(BW + 4) at the rate f
of reference events, so 2 x 0.707 x 2 pi / 2^(BW + 4) and (2 pi / 2^(BW + 4))^2 of the error in one interval. -/
def loopTerms (bw : Nat) (e : Int) (iv : Nat) : Int × Int :=
  (e * 88844 / Int.ofNat (10000 * 2 ^ (bw + 4) * max 1 iv), e * 394784 / Int.ofNat (10000 * 2 ^ (2 * (bw + 4)) * max 1 iv))

/-- The expected period of a loop at a rate (R82): the time of one step; in EXT mode the last interval. -/
def loopPer (s : State) (n : Nat) (freq : Int) (iv was : Nat) : Nat :=
  if prMode (s.reg (prOff n 0)) = 4 then iv else if freq = 0 then was else (prStep s n).natAbs / freq.natAbs

/-- A loop that goes on after an event in a state (R81, R82): its rate takes the phase error in, which has the free error of the edge's
time within R33. In ACQUIRE the position is the event's; in TRACK it is continuous. -/
def loopOn (n st good : Nat) (x : RefEv) (s : State) : State :=
  let (k, s1) := s.fresh
  let c := evSettings s1 n (s1.chan n)
  let iv := x.iv.getD c.per
  let here := chanPos c x.te
  let seeded := decide (c.evs + 1 = 2 ∨ c.freq = 0)
  let f0 := if seeded && x.iv.isSome then x.step / Int.ofNat (max 1 iv) else c.freq
  let jit := (Int.ofNat (Config.edgeError k).val - 3750) * f0
  let e := match x.pos with
    | some p => if seeded then 0 else phaseErr here p + jit
    | none => 0
  let kk := loopTerms (field c.cfg 4 3) e iv
  let freq := f0 - kk.2
  let old := chanPos c s1.now
  let pos := match st, x.pos with
    | 1, some p => p + freq * Int.ofNat (s1.now - x.te)
    | _, _ => old
  let b := qeBounds s1 n c.ofs
  let g : Seg := { t := s1.now, st := st, pos := pos, rate := if st = 1 then freq else freq - kk.1, lo := b.1, hi := b.2,
                   pre := if st = 1 ∧ (old < pos ↔ 0 < freq) then some old else none }
  let s2 := s1.setChan n { (c.push g) with
    per := if c.evs + 1 < 2 then prNom s1 n else loopPer s1 n freq iv c.per, freq := freq,
    base := if x.pos.isSome then x.pos else c.base.map (· + x.step), lastEv := some x.te, good := good, evs := c.evs + 1 }
  -- a correction against the motion brings no angle about twice
  if st = 1 ∧ freq ≠ 0 ∧ ¬ (old < pos ↔ 0 < freq) then
    let back := s2.now + (old - pos).natAbs / freq.natAbs
    forAll (phaseCells s2 n) (fun i s => s.setCell i { s.cell i with since := max (s.cell i).since back }) s2
  else s2

/-- A reference event (R82 to R87); force: R86's wrong number of teeth. The state says whether acquisition started or restarted. -/
def chanEvent (n : Nat) (force : Bool) (x : RefEv) (s : State) : State × Bool :=
  let c := s.chan n
  let here := chanPos c x.te
  let dir : Int := if x.step < 0 then -1 else 1
  let s1 := s.setChan n (evSettings s n c)
  let ofs := prOfs (s.reg (prOff n 8))
  let enter := fun (p : Int) (s : State) =>
    let q := if prMode (s.reg (prOff n 0)) = 2 then s.setChan n { s.chan n with qcnt := p / turn * Int.ofNat (prCpr s n) } else s
    enterAcquire n (p / turn * turn + ofs) x.te dir true q
  let jump := fun (s' : State) => carriedPast n (chanPos c s.now) (chanPos (s'.chan n) s.now) s'
  let restart := (jump (enterAcquire n (x.pos.getD here) x.te dir true (inputErr n s1)), true)
  match chanSt c with
  | 4 => (enter (here + turn) s1, true)
  | 1 =>
    if x.bad || force then restart
    else
      let g := if x.pos.any (fun p => decide ((phaseErr here p).natAbs < 0x400000000000000)) then c.good + 1 else 0
      if 16 ≤ g then (raise 0x3040 (2 ^ (8 + n)) (loopOn n 2 g x s), false)
      else (loopOn n 1 g x s, false)
  | 2 => if force then restart else (loopOn n 2 c.good x s, false)
  | 3 =>
    if force then restart
    else if x.pos.all (fun p => decide ((phaseErr here p).natAbs < 0x2000000000000000)) then
      (raise 0x3040 (2 ^ (8 + n)) (loopOn n 2 c.good x s), false)
    else (jump (enter (if posAng here < 0x800000 then here else here + turn) s1), true)
  | _ => (s, false)

/-- An interval against bounds of 0.5 and 2 times a nominal one (R82). -/
def outside (iv nom : Nat) : Bool := decide (2 * iv < nom) || decide (2 * nom < iv)

/-- The interval since the last reference event. -/
def evInterval (c : Chan) (te : Nat) : Option Nat := c.lastEv.map (te - ·)

/-- An edge falls within the BLANK fraction of the expected period after an accepted one (R80). -/
def blanked (c : Chan) (iv : Option Nat) : Bool :=
  let blank := field c.cfg 16 2
  iv.any (fun i => decide (blank ≠ 0 ∧ i * 16 < c.per * 2 ^ blank))

/-- The absolute position of an event at an angle: in ACQUIRE the one nearest to where the event before and the step to it lead, else
the one nearest to the loop's own (R79, R84). -/
def evPos (c : Chan) (te : Nat) (ang step : Int) : Int :=
  let near := match chanSt c, c.base with
    | 1, some b => if c.evs = 0 then chanPos c te else b + step
    | _, _ => chanPos c te
  near - phaseErr near ang

/-- A ZC edge (R79, R80, R82): it begins a cycle at OFFSET. -/
def zcEvent (n te : Nat) (s : State) : State :=
  let c := s.chan n
  let iv := evInterval c te
  if blanked c iv then s
  else (chanEvent n false { te := te, pos := some (evPos c te (prOfs (s.reg (prOff n 8))) turn), step := turn, iv := iv,
                            bad := iv.any (fun i => outside i (prNom s n)) } s).1

/-- A tooth in PP mode (R79, R82, R86): the first after a gap begins a cycle at OFFSET. An interval with none before it to be judged by
is taken as a tooth's or a gap's. -/
def ppEvent (n te : Nat) (s : State) : State :=
  let c := s.chan n
  let m := prMiss (s.reg (prOff n 0))
  let nn := prCpr s n
  let iv := evInterval c te
  if blanked c iv then s
  else
    let gap := match iv, c.prev with
      | some i, some p => decide ((m + 2) * p < 2 * i)
      | _, _ => false
    let nom := prNom s n
    let bad := iv.any (fun i => if gap then outside i ((m + 1) * nom)
      else if c.prev.isSome then outside i nom else outside i nom && outside i ((m + 1) * nom))
    let wrong := gap && c.teeth.any (fun k => decide (k ≠ nn - m))
    let teeth := if gap then some 1 else c.teeth.map (· + 1)
    let one := prStep s n
    let step := if gap || (c.prev.isNone && iv.any (fun i => outside i nom)) then Int.ofNat (m + 1) * one else one
    let known := if c.teeth.isSome then c else { c with base := none }
    let pos := teeth.map (fun k => evPos known te (prOfs (s.reg (prOff n 8)) + Int.ofNat (k - 1) * one) step)
    let (s1, fresh) := chanEvent n wrong { te := te, pos := pos, step := step, iv := iv, bad := bad } s
    let d := s1.chan n
    let teeth := if fresh then (if gap && !bad then some 1 else none) else teeth
    s1.setChan n { d with teeth := teeth, prev := if fresh then none else iv,
                          per := if teeth = some (nn - m) then (m + 1) * d.per else d.per }

/-- A count in QE mode (R79, R85): d is 1 forward, -1 in reverse. -/
def qeCount (n te : Nat) (d : Int) (s : State) : State :=
  let c := s.chan n
  let iv := evInterval c te
  let s1 := s.setChan n { c with qcnt := c.qcnt + d }
  (chanEvent n false { te := te, pos := some (qePos s n (s.reg (prOff n 8)) (c.qcnt + d)), step := d * prStep s n, iv := iv,
                       bad := iv.any (fun i => outside i (prNom s n)) } s1).1

/-- The index in QE mode (R85): a count more than 1 away from the turn's start raises INPUT_ERR, and is realigned. -/
def qeIndex (n : Nat) (s : State) : State :=
  let c := s.chan n
  let cpr : Int := Int.ofNat (prCpr s n)
  let w := c.qcnt % cpr
  let near := if 2 * w < cpr then c.qcnt - w else c.qcnt - w + cpr
  let s1 := s.setChan n { c with qcnt := near }
  whenDo (decide (1 < min w (cpr - w))) (inputErr n) s1

/-- A reference event on a channel's inputs (R79 to R86): kind 0 the mode's event or a forward count, 1 a reverse count, 2 the
index, 3 an illegal transition; b: the count is made by PRn_B, whose own input delay it has (R80). -/
def refEvent (n kind : Nat) (b : Bool) (age : Nat) (s : State) : State :=
  let c := s.chan n
  if chanSt c = 0 then s
  else
    let mode := prMode (s.reg (prOff n 0))
    let trim := if kind = 2 then 114 + 3 * n else if b ∧ mode = 2 then 113 + 3 * n else 112 + 3 * n
    let te := s.now - (age + trimPs s trim)
    match mode, kind with
    | 1, 0 => zcEvent n te s
    | 3, 0 => ppEvent n te s
    | 2, 0 => qeCount n te 1 s
    | 2, 1 => qeCount n te (-1) s
    | 2, 2 => qeIndex n s
    | 2, 3 => inputErr n s
    | _, _ => s

/-- A write of TP_PRn_EXT (R87): the sample's cycle count is the one nearest to the channel's own that ends in its low 8 bits. -/
def wrExt (n : Nat) (v : Word) (s : State) : State :=
  let c := s.chan n
  let d := (mkD (s.reg (prOff n 0x24)) (s.reg (prOff n 0x20))).toNat
  if prMode (s.reg (prOff n 0)) ≠ 4 ∨ chanSt c = 0 then s
  else if c.extDt.any (fun e => decide (d ≤ e)) then inputErr n s
  else
    let te := ((Int.ofNat d - s.tape.ofs) * 1000).toNat
    let own := chanPos c te / turn
    let full := own + signed 8 (unsigned 8 (Int.ofNat (field v 24 8) - own))
    let pos := full * turn + Int.ofNat (field v 0 24) * 0x10000000000
    let iv := evInterval c te
    let step := match c.base with
      | some b => pos - b
      | none => turn
    (chanEvent n false { te := te, pos := some pos, step := step, iv := iv, bad := iv.any (fun i => outside i (prNom s n)) }
      (s.setChan n { c with extDt := some d })).1

/-- No reference event within 1.5 expected periods in TRACK (R83, R85). -/
def toHoldover (n : Nat) (s : State) : State :=
  let c := s.chan n
  let v := s.reg (prOff n 0)
  if chanSt c = 2 ∧ ¬ (prMode v = 2 ∧ bit v 7) then
    let g := c.segs.head?.getD {}
    raise 0x3040 (2 ^ n) (s.setChan n (c.push { g with t := s.now, st := 3, pos := chanPos c s.now }))
  else s

/-- HOLD_LIMIT expected periods without a reference event (R83, R97). -/
def toLost (n : Nat) (s : State) : State :=
  let st := chanSt (s.chan n)
  let v := s.reg (prOff n 0)
  if st = 1 ∨ st = 3 ∨ (st = 2 ∧ ¬ (prMode v = 2 ∧ bit v 7)) then raise 0x3040 (2 ^ (4 + n)) (enterLost n 4 s) else s

/-- QE_STILL (R85): after 1.5 expected periods the rate is zero and the angle rests at the counted position. -/
def qeStop (n : Nat) (s : State) : State :=
  let c := s.chan n
  let v := s.reg (prOff n 0)
  if chanSt c = 2 ∧ prMode v = 2 ∧ bit v 7 then
    s.setChan n { (c.push { t := s.now, st := 2, pos := qePos s n c.ofs c.qcnt, rate := 0 }) with freq := 0 }
  else s

/-- A channel starts in ACQUIRE where it stands (R78, R83, R88); the counted position of QE is the start of its cycle. -/
def chanStart (n : Nat) (s : State) : State :=
  let here := chanPos (s.chan n) s.now
  let s1 := s.setChan n { (evSettings s n (s.chan n)) with qcnt := here / turn * Int.ofNat (prCpr s n), extDt := none }
  let qe := decide (prMode (s.reg (prOff n 0)) = 2)
  enterAcquire n (if qe then here / turn * turn + prOfs (s.reg (prOff n 8)) else here) s.now 1 false s1

/-- A write of TP_PRn_CFG or TP_PRn_CPR (R83, R88). -/
def wrPr (n : Nat) (cpr : Bool) (v : Word) (s : State) : State :=
  let o := prOff n (if cpr then 0x0C else 0)
  let was := s.reg o
  let new := if cpr then v &&& 0xFFFFFF#32 else v &&& 0x0FFFFFFF#32
  let changed := if cpr then decide (was ≠ new)
    else decide (prMode was ≠ prMode new ∨ field was 3 1 ≠ field new 3 1 ∨ field was 26 2 ≠ field new 26 2)
  let s1 := s.setReg o new
  if changed = false then s1
  else
    let st := chanSt (s.chan n)
    let off := decide (prMode (s1.reg (prOff n 0)) = 0)
    let s2 :=
      if st = 1 ∨ st = 2 ∨ st = 3 then raise 0x3040 (2 ^ (4 + n)) (enterLost n (if off then 0 else 4) s1)
      else if st = 4 ∧ off then enterLost n 0 s1
      else s1
    if off then s2.setChan n { (evSettings s2 n (s2.chan n)) with qcnt := 0, extDt := none } else chanStart n s2

/-! ## Held releases -/

/-- The held entries that are due, in the order of R72 and R96. -/
def heldDue (s : State) : List Held :=
  let due := s.tape.held.filter (fun h => targetDue s h.target && !h.fired)
  let key : Held → Nat × Nat × Nat := fun h => match h.stepped, h.target with
    | true, .dt t => (0, t, h.idx)
    | _, _ => (1, 0, h.idx)
  sortBy (fun a b => decide ((key a).1 < (key b).1) ||
    (decide ((key a).1 = (key b).1) && (decide ((key a).2.1 < (key b).2.1) ||
      (decide ((key a).2.1 = (key b).2.1) && decide ((key a).2.2 ≤ (key b).2.2))))) due

/-- The first due held entry fires (R94, R96, R98). -/
def heldFire (s : State) : State :=
  match heldDue s with
  | [] => s
  | h :: _ =>
    let (t, sub) := pinTalker s h.orig
    fireHeld h (holdCount (if h.stepped then 5 else 0) t sub s)

/-! ## Strobes and PPS_OUT -/

/-- A write of a TP_POn register (R100, R101): 0 CFG, 1 ANGLE, 2 WIDTH, 3 PERIOD, 4 DT_LO, 5 DT_HI. -/
def wrStrobe (n r : Nat) (v : Word) (s : State) : State :=
  let o := poOff n (4 * r)
  let mask : Word := if r = 0 then 0xFF7F#32 else if r ≤ 2 then 0xFFFFFF#32 else 0xFFFFFFFF#32
  let was := s.rb (poOff n 0) 0
  let s1 := s.setReg o (v &&& mask)
  let on := s1.rb (poOff n 0) 0
  let takeDt := (decide (r = 0) && on && !was) || decide (r = 5)
  let s2 := if takeDt then s1.setStrobe n { s1.strobe n with dt := mkD (s1.reg (poOff n 0x14)) (s1.reg (poOff n 0x10)) } else s1
  let resched := decide (r ≠ 2 ∧ r ≠ 4)
  if on = false then s2.setStrobe n { s2.strobe n with next := none }
  else if resched = false then s2
  else
    let s3 := strobeSkip n (s2.setStrobe n { s2.strobe n with next := poNext s2 n s2.dt })
    if poMode s3 n = 2 ∧ (r = 5 ∨ r = 0) ∧ (s3.strobe n).dt.toNat < s3.dt then poFire n (raise 0x3040 (0x200000) s3)
    else s3

/-- The channel states in which an ANGLE strobe runs (R101): TRACK, and HOLDOVER with HOLD_RUN. -/
def strobeRuns (v : Word) (st : Nat) : Bool := decide (st = 2) || (decide (st = 3) && bit v 6)

/-- Whether an ANGLE strobe's leading edge falls due (R100, R101): its channel has come to ANGLE, in either direction, in a cycle whose
count is a multiple of DIV + 1. -/
def angleDue (s : State) (n : Nat) : Bool :=
  let v := s.reg (poOff n 0)
  motionReaches (strobeRuns v) (Int.ofNat (s.rf (poOff n 4) 0 24) * 0x10000000000) (field v 8 8 + 1) (s.strobe n).since s.now
    (s.chan (field v 3 2)).segs

/-- A strobe's leading edge falls due (R100). -/
def strobeDue (s : State) (n : Nat) : Bool :=
  s.rb (poOff n 0) 0 &&
  (if poMode s n = 0 then angleDue s n
   else match (s.strobe n).next with
    | some d => decide (d ≤ s.dt)
    | none => false)

/-- A strobe's leading edge (R100). -/
def strobeGo (n : Nat) (s : State) : State :=
  if strobeDue s n = false then s
  else
    let v := s.strobe n
    let s1 := if poMode s n = 0 then strobeSkip n s
      else if poMode s n = 1 then
        s.setStrobe n { v with next := (v.next.bind (fun d =>
          let p := (s.reg (poOff n 0x0C)).toNat
          if p = 0 then none else some (d + p))) }
      else s
    poFire n s1

/-- A strobe pulse completes its width (R100). -/
def strobeEnd (n : Nat) (s : State) : State :=
  let v := s.strobe n
  if v.active then poDrive n false (s.setStrobe n { v with active := false }) else s

/-- The first cycle from one on, upward or downward, whose 32-bit count is a multiple of a number. -/
def multCyc (c : Int) (d : Nat) (up : Bool) : Int :=
  let at_ : Nat → Int := fun i => if up then c + Int.ofNat i else c - Int.ofNat i
  (((List.range (2 * d)).find? (fun i => decide (unsigned 32 (at_ i) % d = 0))).map at_).getD c

/-- The DT of a strobe's next leading edge, 0 when none is scheduled (R100); on a channel that stands still no DT can be foreseen, and
the value is free. -/
def poNextDt (s : State) (n : Nat) : Nat :=
  if s.rb (poOff n 0) 0 = false then 0
  else if poMode s n ≠ 0 then ((s.strobe n).next).getD 0
  else
    let v := s.reg (poOff n 0)
    let c := s.chan (field v 3 2)
    let g := c.segs.head?.getD {}
    let p := chanPos c s.now
    if strobeRuns v (chanSt c) = false then 0
    else if g.rate = 0 then (Config.freeWord s.freeCtr).toNat
    else
      let a : Int := Int.ofNat (s.rf (poOff n 4) 0 24) * 0x10000000000
      let up := decide (0 < g.rate)
      let c0 := if up then (p - a) / turn + 1 else -((a - p) / turn) - 1
      let x := multCyc c0 (field v 8 8 + 1) up * turn + a
      let ps := ((x - p).natAbs + g.rate.natAbs - 1) / g.rate.natAbs
      (s.dt + ps / 1000) % 0x10000000000000000

/-- A PPS_OUT edge (R77). -/
def ppsOut (s : State) : State :=
  match s.tape.ppsNext with
  | none => s
  | some d =>
    if s.rb 0x3030 0 ∧ d ≤ s.dt then
      emit (.pin 4 (!s.rb 0x3030 1)) (modTape (fun t => { t with ppsActive := true, ppsNext := some (d + 1000000000) }) s)
    else s

/-- The end of a PPS_OUT pulse (R77). -/
def ppsEnd (s : State) : State :=
  if s.tape.ppsActive then emit (.pin 4 (s.rb 0x3030 1)) (modTape (fun t => { t with ppsActive := false }) s) else s

/-- A write of TP_PPS_OUT or its offset (R77). -/
def wrPps (o : Nat) (v : Word) (s : State) : State :=
  let s1 := s.setReg o (if o = 0x3030 then v &&& 0x3FFFF#32 else v)
  modTape (fun t => { t with ppsNext := ppsGrid s1 s1.dt }) s1

end Sys2Proof.Machine
end

