-- ==== Sys2Proof/Machine/Cells.lean ====
section
/-!
DEFINITION. The rate-cell emitter (R175 to R186, R501): value slots, triggers, emissions.
-/
namespace Sys2Proof.Machine

/-- The configuration of a cell: the live CELL entry (R177, R185). -/
def cellImg (s : State) (c : Nat) : List Word := img (devBank s) 9 c
/-- EN of a cell. -/
def cellEn (s : State) (c : Nat) : Bool := bit (wordAt (cellImg s c) 0) 2
/-- TRIG of a cell: 0 PERIOD, 1 PHASE, 2 SLOW_SIDE, 3 ON_CHANGE. -/
def cellTrig (s : State) (c : Nat) : Nat := field (wordAt (cellImg s c) 0) 0 2

/-- Slot i of a cell. -/
def CellSt.slot (x : CellSt) (i : Nat) : CellSlot :=
  match i with
  | 0 => x.v0
  | 1 => x.v1
  | 2 => x.v2
  | _ => x.v3
/-- Slot i of a cell replaced. -/
def CellSt.setSlot (x : CellSt) (i : Nat) (v : CellSlot) : CellSt :=
  match i with
  | 0 => { x with v0 := v }
  | 1 => { x with v1 := v }
  | 2 => { x with v2 := v }
  | _ => { x with v3 := v }
/-- A cell with empty slots (R171). -/
def CellSt.emptied (x : CellSt) : CellSt := { x with v0 := {}, v1 := {}, v2 := {}, v3 := {} }

/-- The slots of CHG_MASK; 0 means all four (R177). -/
def chgSlots (im : List Word) : List Nat := let m := field (wordAt im 5) 0 4; bitsOf 4 (if m = 0 then 15 else m)
/-- The slots of REQ_MASK. -/
def reqSlots (im : List Word) : List Nat := bitsOf 4 (field (wordAt im 5) 4 4)
/-- MIN_INT in picoseconds. -/
def minInt (im : List Word) : Nat := (wordAt im 2).toNat * 1000000

/-- MIN_INT has elapsed since the last emission fell due (R178, R501). -/
def minIntOver (s : State) (im : List Word) (x : CellSt) : Bool :=
  match x.last with
  | none => true
  | some t => decide (t + minInt im ≤ s.now)

/-- A write of a slot counts as a change (R178 ON_CHANGE, R501). -/
def slotChanged (im : List Word) (x : CellSt) (i : Nat) (v : Word) : Bool :=
  match x.vals with
  | none => true
  | some l =>
    match l.getD i none with
    | none => true
    | some w => decide ((wordAt im 4).toNat ≤ (sInt v - sInt w).natAbs)

/-- A released CELL step writes the slots of its field mask (R175). -/
def cellWrite (c m : Nat) (f : List Word) (stamp : Nat) (s : State) : State :=
  let im := cellImg s c
  let x := s.cell c
  let chg := (bitsOf 4 m).any (fun i => (chgSlots im).contains i && slotChanged im x i (wordAt f i))
  let y := (bitsOf 4 m).foldl (fun y i => y.setSlot i { val := wordAt f i, wr := true, time := stamp }) x
  s.setCell c { y with news := x.news ||| m, pendChg := x.pendChg || (chg && decide (cellTrig s c = 3) && cellEn s c) }

/-- The schedule of a PERIOD cell from an instant on (R178). -/
def periodNext (im : List Word) (dt : Nat) : Option Nat :=
  if field (wordAt im 0) 0 2 = 0 then some (gridMod (Int.ofNat (wordAt im 2).toNat) (1000 * (wordAt im 1).toNat) dt) else none

/-- A cell's schedule begins after the present cycle (R185, R178). -/
def cellSchedule (c : Nat) (s : State) : State :=
  let s1 := s.setCell c { s.cell c with nextDt := if cellEn s c then periodNext (cellImg s c) (s.dt + 1) else none }
  if cellTrig s1 c = 1 then cellSkip c s1 else s1

/-- A cell is newly enabled (R501). -/
def cellNew (c : Nat) (s : State) : State :=
  cellSchedule c (s.setCell c { s.cell c with born := s.now, last := none, vals := none, lastAddr := none, pendChg := false, news := 0 })

/-- The references of a talker's record at a listener: queued in a lane, held, being emitted, or in a frame that is not sent. -/
def waitsAt (s : State) (k t q : Nat) : Bool :=
  let me := fun (r : Ref) => decide (r.talker = t ∧ r.seq = q)
  (lanesOf s k).any (fun b => (laneAll s b).any me) ||
  (match (s.eg (epOf k)).cur with
    | some c => decide (c.lq = k) && me c.ref
    | none => false) ||
  (s.up 0).opens.any (fun f => f.2.sents.any (fun x => decide (x.lq = k) && me x.ref)) ||
  (s.up 1).opens.any (fun f => f.2.sents.any (fun x => decide (x.lq = k) && me x.ref)) ||
  (s.up 0).closed.any (fun f => f.sents.any (fun x => decide (x.lq = k) && me x.ref)) ||
  (s.up 1).closed.any (fun f => f.sents.any (fun x => decide (x.lq = k) && me x.ref)) ||
  s.peer.sent.any (fun l => l.2.any (fun x => decide (x.1 = k) && me x.2.1)) ||
  s.peer.txq.any (fun x => match x.2 with
    | some (l, r) => decide (l = k) && me r
    | none => false)

/-- The last emission still waits at the pacing listener (R178 SLOW_SIDE): it is to be formed, its decision is to come, or includes
the listener and has not been delivered or dropped there. -/
def paceWaits (s : State) (im : List Word) (x : CellSt) : Bool :=
  x.due.isSome || match x.lastAddr with
  | none => false
  | some h1 =>
    let k := field (wordAt im 0) 18 7
    let t := h1 / 0x100000
    let q := h1 % 0x100000
    let mine := s.pins.filter (fun e => e.2.talker = t ∧ e.2.seq = q)
    let job := s.fan.find? (fun j => mine.any (fun e => e.1 = j.ent.hdr.addr))
    let held := s.tape.held.any (fun h => h.dec.lset.getLsbD k && mine.any (fun e => e.1 = h.orig))
    let undecided := mine.any (fun e => e.2.wait ≠ 0) && (match job with
      | some j => j.ent.dec.lset.getLsbD k
      | none => true)
    waitsAt s k t q || held || undecided

/-- Whether a cell falls due now, and the due instant: DT and elapsed picoseconds (R178, R501). -/
def cellFalls (s : State) (c : Nat) : Option (Nat × Nat) :=
  let im := cellImg s c
  let x := s.cell c
  if s.awake = false ∨ cellEn s c = false then none
  else match cellTrig s c with
    | 0 => match x.nextDt with
      | some d => if d ≤ s.dt then some (d, s.now - (s.dt - d) * 1000) else none
      | none => none
    | 1 =>
      if motionReaches (fun st => decide (st ≠ 0 ∧ st ≠ 4)) (Int.ofNat (field (wordAt im 1) 0 24) * 0x10000000000)
          (field (wordAt im 1) 24 8 + 1) x.since s.now (s.chan (field (wordAt im 0) 4 2)).segs
      then some (s.dt, s.now) else none
    | 2 =>
      if (chgSlots im).any (fun i => nbit x.news i) && minIntOver s im x && !paceWaits s im x
      then some (s.dt, s.now) else none
    | _ =>
      let beat := decide ((wordAt im 1).toNat ≠ 0 ∧ x.last.getD x.born + (wordAt im 1).toNat * 1000000 ≤ s.now)
      if (x.pendChg && minIntOver s im x) || beat then some (s.dt, s.now) else none

/-- A cell falls due (R178); an emission that still waits takes the instant in (R182). -/
def cellDueGo (c : Nat) (s : State) : State :=
  match cellFalls s c with
  | none => s
  | some d =>
    let im := cellImg s c
    let x := s.cell c
    let y := { x with
      last := some d.2, pendChg := false, news := 0, since := s.now, lastAddr := none,
      nextDt := x.nextDt.map (fun n => n + 1000 * (wordAt im 1).toNat),
      due := match x.due with
        | some e => some e
        | none => some d }
    let s1 := s.setCell c y
    if x.due.isSome then xcLast (some c) 3 (raise 0x8180 8 (count (ctXc 3) 1 s1)) else s1

/-- The due cells, in the order of their due instant and then of cell number (R182). -/
def dueCells (s : State) : List (Nat × Nat × Nat) :=
  sortBy (fun a b => decide (a.2.2 < b.2.2) || (decide (a.2.2 = b.2.2) && decide (a.1 ≤ b.1)))
    (s.cells.filterMap (fun e => e.2.due.map (fun d => (e.1, d))))

/-- A slot is stale at a due instant (R180, R459). -/
def slotStale (im : List Word) (dt : Nat) (x : CellSlot) : Bool :=
  let f := (wordAt im 3).toNat
  decide (f ≠ 0) && (x.old || decide (Int.ofNat (f * 1000) < Int.ofNat dt - Int.ofNat x.time))

/-- An instant at which no emission is formed, with its outcome counter and cause bit (R179, R186). -/
def cellNone (c k bitNo : Nat) (s : State) : State := xcLast (some c) k (raise 0x8180 (2 ^ bitNo) (count (ctXc k) 1 s))

/-- An emission is formed after its checks (R179 to R182). -/
def cellForm (c dt el : Nat) (s0 : State) : State :=
  let im := cellImg s0 c
  let x := s0.cell c
  let w0 := wordAt im 0
  let s := s0.setCell c { x with due := none, lastAddr := none }
  let checked := if reqSlots im = [] then (List.range 4).filter (fun i => (x.slot i).wr) else reqSlots im
  let stale := checked.any (fun i => slotStale im dt (x.slot i))
  if (reqSlots im).any (fun i => !(x.slot i).wr) then cellNone c 2 2 s
  else if stale && bit w0 3 then cellNone c 1 2 s
  else
    let t := 0x400 + c
    let q := s.seqOf t
    let h1 := mkH1 t q
    let vals := (List.range 4).map (fun i => if (x.slot i).wr then some (x.slot i).val else none)
    let tn := field w0 9 9
    let ti := img (devBank s) 8 tn
    let body := runTemplate ti { vals := vals, bind := h1 }
    if ti = [] ∨ 2040 < body.length then cellNone c 6 0 s
    else
      let chn := field w0 4 2
      let h := [mkH0 0x40 (field w0 6 3) false false false (8 + body.length), h1, w32 dt, w32 (dt / 0x100000000), h4At s chn el,
        w32 (c + tn * 0x400 + b2n stale * 0x80000)]
      let pay := wordBytes (w32 (field (wordAt ti 0) 0 8)) ++ wordBytes (wordAt ti 1) ++ body
      match addRecord h pay { hits := hitsAt s el } s with
      | (_, .full) => heldSpaceDrop (ingBob s 72 (engOf s t 0)) s
      | (s1, _) =>
        let s2 := (s1.setSeq t (q + 1)).setCell c { s1.cell c with vals := some vals, lastAddr := some h1.toNat }
        let s3 := count (2144 + 1024 + c) 1 s2
        let s4 := whenDo stale (fun s => xcLast (some c) 0 (count (ctXc 0) 1 s)) s3
        whenDo (decide (el + 1000000 < s.now)) (fun s => xcLast (some c) 5 (raise 0x8180 0x10 (count (ctXc 5) 1 s))) s4

/-- The emitter takes the first due cell (R182). -/
def emitCell (s : State) : State :=
  match dueCells s with
  | [] => s
  | (c, dt, el) :: _ => if s.awake then cellForm c dt el s else s

/-- An ON_CHANGE cell after NAP (R184): a change whose MIN_INT elapsed meanwhile is skipped, and the heartbeat goes on from its last
instant that has passed. -/
def changeAfterNap (im : List Word) (x : CellSt) (now : Nat) : CellSt :=
  let per := (wordAt im 1).toNat * 1000000
  let on := fun (t : Nat) => if per = 0 then t else t + (now - t) / per * per
  match x.last with
  | none => { x with pendChg := false, born := on x.born }
  | some t => { x with pendChg := x.pendChg && decide (now < t + minInt im), last := some (on t) }

/-- Instants that passed during NAP are skipped (R184). -/
def cellsAfterNap (s : State) : State :=
  forAll (mapKeys s.cells) (fun c s =>
    let x := s.cell c
    let im := cellImg s c
    if cellEn s c = false then s
    else match cellTrig s c with
      | 0 => if x.nextDt.any (fun d => decide (d < s.dt)) then s.setCell c { x with nextDt := periodNext im s.dt } else s
      | 1 => cellSkip c s
      | 3 => s.setCell c (changeAfterNap im x s.now)
      | _ => s) s

end Sys2Proof.Machine
end

