-- ==== Sys2Proof/Machine/Early.lean ====
section
/-!
DEFINITION. Early headers (R108, R109, R161, R230): a record that is written word by word, with its progress tokens; and the
state of a CAN controller as its error counters change (R286).
-/
namespace Sys2Proof.Machine

/-! ## CAN state (R285, R286) -/

/-- A controller abandons the frame that it sends (R285). -/
def canAbandon (n : Nat) (s : State) : State :=
  match (s.eg (48 + n)).cur with
  | none => s
  | some c =>
    let s1 := setCur (48 + n) none (raise (cnOff n 0x1C) 0x10 (count (ctCn n 6) 1 s))
    serviceBoundary (48 + n) (dropRef c.ref.addr (canRelease (48 + n) c.bob s1))

/-- TEC and REC take new values, above 255 for the entry into bus-off, and the controller's state follows (R286). -/
def canCounts (n tec rcv : Nat) (s : State) : State :=
  let c := s.can n
  let warn := decide ((c.tec < 96 ∧ 96 ≤ tec) ∨ (c.rcv < 96 ∧ 96 ≤ rcv))
  let st := if 255 < tec then 2 else if 128 ≤ tec ∨ 128 ≤ rcv then 1 else 0
  let s1 := whenDo warn (raise (cnOff n 0x1C) 1) (s.setCan n { c with tec := min 255 tec, rcv := min 255 rcv, st := st })
  let s2 := whenDo (decide (c.st ≠ 1 ∧ st = 1)) (fun s => raise (cnOff n 0x1C) 2 (count (ctCn n 15) 1 s))
    (whenDo (decide (c.st ≠ 0 ∧ st = 0)) (raise (cnOff n 0x1C) 8) s1)
  if c.st ≠ 2 ∧ st = 2 then
    canAbandon n (raise (cnOff n 0x1C) 4 (count (ctCn n 14) 1
      (s2.setCan n { s2.can n with recovering := s2.rb (cnOff n 0) 5 })))
  else s2

/-- A controller destroys a cut-through frame with an error flag (R216, R285). -/
def canDestroy (n : Nat) (o : CheckOut) (s : State) : State :=
  match (s.eg (48 + n)).cur with
  | none => s
  | some c =>
    let s1 := count (ctCn n 7) 1 (emit (.canErrorFlag n) (abortCount c.lq o c.ref.talker s))
    let s2 := dropRef c.ref.addr (canRelease (48 + n) c.bob (setCur (48 + n) none s1))
    serviceBoundary (48 + n) (canCounts n ((s2.can n).tec + 8) (s2.can n).rcv s2)

/-! ## Early records -/

/-- A unit is given its early header (R108): its header and the payload words so far are written, it is pinned and enters the
merger's order. The second part is its store address. -/
def earlyBegin (h : List Word) (pay : List Byte) (hits keyLen : Nat) (tag : Bool) (s : State) : State × Option Nat × RecOut :=
  let t := field (wordAt h 1) 20 12
  let m := engOf s t 0
  let b := ingBob s (writerOf t) m
  let n := pay.length / 4
  let ws := h ++ bytesWords (pay.take (4 * n))
  if bobFree s b < ws.length then (s, none, .full)
  else
    let v := s.bob b
    let a := posAddr s b v.wp
    let s1 := countTalker t 0 0 1 (pushWords b ws s)
    let s2 := s1.setSeq t (field (wordAt h 1) 0 20 + 1)
    if nbit (s.mrg m).refused (field (wordAt h 0) 21 3) then
      (countTalker t 0 2 1 (s2.setBob b { s2.bob b with wp := v.wp }), none, .refused)
    else
      let p : Pin := { bob := b, pos := v.wp, words := ws.length, talker := t, seq := field (wordAt h 1) 0 20, mrg := m,
                       wait := 1, complete := false }
      let hd : Header := { addr := a, h := h, hits := hits, tagMark := tag, early := true, keyLen := keyLen, avail := n, made := s.edge }
      (mergePut m (.head a hd none) (s2.setPin a p), some a, .recorded)

/-- Further complete payload words of an early record are written, each with its token (R161); false when the bobbin is
full. -/
def earlyGrow (a : Nat) (pay : List Byte) (s : State) : State × Bool :=
  match s.pin a with
  | none => (s, true)
  | some p =>
    let n := pay.length / 4
    let have_ := p.words - 6
    let ws := (bytesWords (pay.take (4 * n))).drop have_
    if ws = [] then (s, true)
    else if bobFree s p.bob < ws.length then (s, false)
    else
      let s1 := (pushWords p.bob ws s).setPin a { p with words := p.words + ws.length }
      let s2 := forAll ((List.range ws.length).map (fun i => have_ + i + 1)) (fun k s => mergePut p.mrg (.token a k false s.edge) s) s1
      (cutFeed a (buildsFor a s2), true)

/-- A record that is abandoned before the merger has popped its header is removed from the merger's order and its bobbin: WP goes back
to its first word (R106, R234). -/
def earlyRemove (a : Nat) (p : Pin) (s : State) : State :=
  let g := s.mrg p.mrg
  let q := g.q.filter (fun e => match e with
    | .head b _ _ => decide (b ≠ a)
    | .token b _ _ _ => decide (b ≠ a))
  let v := s.bob p.bob
  let s1 := if p.pos + p.words = v.wp then s.setBob p.bob { v with wp := p.pos } else s
  admUpdate p.mrg (ingressRp p.bob ({ s1 with pins := mapDel s1.pins a }.setMrg p.mrg { g with q := q }))

/-- A unit ends with a status other than OK, or is abandoned, after its early header (R109): what emits its record aborts as for
poison, and its other deliveries are withdrawn. -/
def earlyBad (a : Nat) (full : Bool) (s : State) : State :=
  match s.pin a with
  | none => s
  | some p =>
    if full && inMerger s a then earlyRemove a p s
    else
      let s0 := cutBad a s
      let p := (s0.pin a).getD p
      let s1 := s0.setPin a { p with bad := true, complete := true }
      let s2 := buildsFor a (mergePut p.mrg (.token a (p.words - 6) true s.edge) s1)
      let s3 := forAll (List.range 16) (fun n s =>
        match (s.eg (48 + n)).cur with
        | some c => if c.ref.cut && ((s.pin c.ref.addr).map (·.bad)).getD false then canDestroy n .poison s else s
        | none => s) s2
      unpinCheck a (ingressRp p.bob (fanRun s3))

/-- A unit with an early header ends well (R108): the final LENGTH and type code, the rest of the payload and the trailer. -/
def earlyEnd (a : Nat) (h5 : Option Word) (pay : List Byte) (s : State) : State × Bool :=
  match s.pin a with
  | none => (s, true)
  | some p =>
    let old := recHead s a
    let h0 := w32 ((wordAt old 0).toNat / 65536 * 65536 + pay.length)
    let h := h0 :: (old.drop 1).take 4 ++ [h5.getD (wordAt old 5)]
    let ws := recordWords h pay
    let rest := ws.drop p.words
    if bobFree s p.bob < rest.length then (earlyBad a true s, false)
    else
      let s1 := (s.setWord a h0).setWord (posAddr s p.bob (p.pos + 5)) (wordAt h 5)
      let s2 := (pushWords p.bob rest s1).setPin a { p with words := ws.length, complete := true }
      let n := payWordsOf pay.length
      let new := (List.range (n - (p.words - 6))).map (fun i => p.words - 6 + i + 1)
      let s3 := forAll new (fun k s => mergePut p.mrg (.token a k false s.edge) s) s2
      let s4 := fanRun (buildsFor a (mergePut p.mrg (.token a n true s.edge) s3))
      -- a decision still to come finds the record complete
      let s5 := if p.wait ≠ 0 ∧ inMerger s4 a = false then verifyRecord a s4 else s4
      (unpinCheck a (ingressRp p.bob (cutFeed a s5)), true)

end Sys2Proof.Machine
end

