-- ==== Sys2Proof/Machine/Framing.lean ====
section
/-!
DEFINITION. The framer of an asynchronous port (R102 to R125, R134): units, junk, early headers and LIN frames.
-/
namespace Sys2Proof.Machine

/-- The framing mode of a port (R135): 0 OFF, 1 IEC 61162-1, 2 SLIP, 3 COBS, 4 idle-gap, 5 raw, 6 LIN. -/
def frmMode (ctrl : Word) : Nat := let m := field ctrl 0 3; if m = 7 then 0 else m
/-- AP_FRM_CTRL.CKS or TAG, where 3 acts as 2. -/
def frmTwo (v : Nat) : Nat := if v = 3 then 2 else v
/-- The settings of the IEC parser of a unit. -/
def iecCfgOf (ctrl len : Word) : IecCfg :=
  { cks := frmTwo (field ctrl 3 2), tag := frmTwo (field ctrl 5 2), lenient := bit ctrl 7, maxlen := field len 0 12,
    tagmax := field len 16 8 }

/-- Characters of junk counted (R134). -/
def junkN (n k : Nat) (s : State) : State := countTalker n 0 1 k (count (ctAp n 8) k s)

/-- The format of a unit's record (R55). -/
def unitFmt (mode : Nat) : Nat := if mode = 6 then 0x18 else mode
/-- The type code of a unit (R52). -/
def unitH5 (u : UnitSt) : Word :=
  match frmMode u.ctrl with
  | 1 => iecH5 u.iec
  | 6 => w32 (u.linPid.toNat + u.linModel * 256)
  | _ => w32 (leNat (u.pay.take 4))
/-- The header of a unit with a length (R36 to R52). -/
def unitHead (n : Nat) (u : UnitSt) (len : Nat) (h5 : Word) : List Word :=
  [mkH0 (unitFmt (frmMode u.ctrl)) u.prio false false false len, mkH1 n u.seq, w32 u.cap.dt, w32 (u.cap.dt / 0x100000000), u.cap.h4, h5]
/-- The TAG blocks of a unit can be addressed by letter (R115). -/
def unitTag (u : UnitSt) : Bool := decide (frmMode u.ctrl = 1 ∧ 2 ≤ frmTwo (field u.ctrl 5 2))

/-- A unit begun by a character or a break with its capture, under the settings then in force (R105, R107, R112). -/
def unitNew (n : Nat) (cap : Cap) (s : State) : UnitSt :=
  { ctrl := s.reg (apOff n 0x40), len := s.reg (apOff n 0x44), gap := s.reg (apOff n 0x48),
    nine := decide (charBits (s.port n).rxChar = 9), prio := cap.prio, malf := cap.malf, cap := cap,
    seq := s.seqOf n }

/-- Where a framing skips to after a unit that was cut off (R106, R119, R122, R123). -/
def skipOf (mode : Nat) : Nat := match mode with
  | 1 => 1
  | 2 => 2
  | 3 => 2
  | 4 => 3
  | _ => 0

/-- What is left of a unit that is abandoned in its middle is skipped: to the next point at which a unit can begin, in raw
framing the end of the abandoned unit's characters, counted above 16 (R106). -/
def skipRest (u : UnitSt) : Nat :=
  if frmMode u.ctrl = 5 then
    let left := (rawLen u.nine (field u.len 0 12) - u.pay.length) / (if u.nine then 2 else 1)
    if left = 0 then 0 else 16 + left
  else skipOf (frmMode u.ctrl)

/-- A unit that cannot be written is abandoned in its middle (R106). -/
def unitFull (n : Nat) (u : UnitSt) (s : State) : State :=
  abandonFull n 0 (modPort n (fun p => { p with unit := none, skip := skipRest u }) s)

/-- A unit ends with a status (R103, R105, R108, R109, R134). -/
def unitEnd (n : Nat) (u : UnitSt) (st : Nat) (s : State) : State :=
  let s0 := count (ctAp n st) 1 (modPort n (fun p => { p with unit := none }) s)
  let pay := unitPay u
  if u.dead then s0
  else match u.early with
  | some a =>
    if st = 0 then
      match earlyEnd a (if frmMode u.ctrl = 1 then none else some (unitH5 u)) pay s0 with
      | (s1, true) => s1
      | (s1, false) => abandonFull n 0 s1
    else earlyBad a false s0
  | none =>
    if st = 6 ∨ (st ≠ 0 ∧ u.malf = false) then count (ctAp n 9) 1 (countTalker n 0 1 1 s0)
    else
      match addRecord (unitHead n u pay.length (unitH5 u)) pay { status := st, hits := u.cap.hits, tagMark := unitTag u } s0 with
      | (_, .full) => abandonFull n 0 s0
      | (s1, _) => s1.setSeq n (u.seq + 1)

/-- The point of the early header has come (R108). -/
def earlyPoint (u : UnitSt) : Bool :=
  match frmMode u.ctrl with
  | 1 => decide (u.iec.ph = .data ∨ u.iec.ph = .ck1 ∨ u.iec.ph = .ck2 ∨ u.iec.ph = .ckEol)
  | 6 => false
  | _ => decide (u.pay ≠ [])

/-- A unit gets its early header (R108). -/
def unitEarly (n : Nat) (u : UnitSt) (s : State) : State :=
  let keep := fun (v : UnitSt) (s : State) => modPort n (fun p => { p with unit := some v }) s
  match earlyBegin (unitHead n u 0 (unitH5 u)) (unitPay u) u.cap.hits 0 (unitTag u) s with
  | (s1, some a, _) => keep { u with early := some a } s1
  | (s1, none, .refused) => keep { u with dead := true } s1
  | (s1, none, _) => unitFull n u s1

/-- A unit goes on: its early header is given when its point has come, and further words of an early record are written. -/
def unitMore (n : Nat) (u : UnitSt) (s : State) : State :=
  let keep := fun (v : UnitSt) (s : State) => modPort n (fun p => { p with unit := some v }) s
  if u.dead then keep u s
  else match u.early with
  | some a =>
    match earlyGrow a (unitPay u) s with
    | (s1, true) => keep u s1
    | (s1, false) => unitFull n u (earlyBad a true s1)
  | none =>
    if bit u.ctrl 9 && earlyPoint u then unitEarly n u s
    else keep u s

/-- A character word: its data bits and the flags that the framer acts on (R252). -/
structure RxChar where
  v : Nat
  err : Bool
  bk : Bool
  ov : Bool
  cap : Cap
  syncBad : Bool := false

/-- A receive word read by the framer; one that fails parity is treated as carrying NE (R237). -/
def rxChar (e : RxEnt) : RxChar :=
  let w : Word := e.w.setWidth 32
  { v := field w 0 9, err := bit w 9 || bit w 10 || bit w 11 || !parityOk e.w, bk := bit w 12, ov := bit w 13, cap := e.cap, syncBad := e.syncBad }

/-- The status that a kept character's flags give its unit (R110). -/
def flagStatus (c : RxChar) (u : UnitSt) : UnitSt :=
  { u with st := max u.st (if c.ov then 4 else if c.err then 3 else 0) }

/-- The character format is forbidden by the framing (R111, R268). -/
def frmForbidden (s : State) (n mode : Nat) : Bool :=
  let c := (s.port n).rxChar
  (decide (charBits c = 9) && decide (mode = 1 ∨ mode = 2 ∨ mode = 3)) ||
    (decide (mode = 6) && !(decide (charBits c = 8) && !charPar c && decide (field c 7 2 = 0)))

/-- What one kept character does to a unit of a framing other than LIN. -/
def unitChar (u : UnitSt) (v : Nat) : ParseOut UnitSt :=
  let b : Byte := BitVec.ofNat 8 v
  let mx := byteMax (field u.len 0 12)
  match frmMode u.ctrl with
  | 1 =>
    match iecChar (iecCfgOf u.ctrl u.len) u.iec b with
    | .more i => .more { u with iec := i }
    | .done i st c => .done { u with iec := i } st c
  | 2 => slipChar mx u b
  | 3 => cobsChar mx u b
  | 4 => pushBytes u mx (charBytes u.nine v)
  | _ => rawChar (field u.len 0 12) u v

/-- The first character of a unit of a framing other than LIN; none where it begins no unit (R114, R120, R121, R123, R124). -/
def unitFirst (u : UnitSt) (v : Nat) : Option (ParseOut UnitSt) :=
  let b : Byte := BitVec.ofNat 8 v
  match frmMode u.ctrl with
  | 1 =>
    if iecStarter b then
      some (match iecFirst (iecCfgOf u.ctrl u.len) b with
        | .more i => .more { u with iec := i }
        | .done i st c => .done { u with iec := i } st c)
    else none
  | 2 => if b = 0xC0#8 then none else some (unitChar u v)
  | 3 => if b = 0x00#8 then none else some (unitChar u v)
  | 4 => some (unitChar u v)
  | 5 => some (unitChar u v)
  | _ => none

/-- What follows from a character that a unit has taken in. A COBS unit whose content is empty is no unit (R121), and a unit
whose early-header point is its end gets its early header there (R31, R108). -/
def unitTook (n : Nat) (r : ParseOut UnitSt) (s : State) : State :=
  match r with
  | .more u => unitMore n u s
  | .done u st _ =>
    let full := max u.st st
    if frmMode u.ctrl = 3 ∧ u.pay = [] ∧ full = 0 then junkN n 1 (modPort n (fun p => { p with unit := none }) s)
    else
      let s0 := if full = 6 then modPort n (fun p => { p with skip := skipOf (frmMode u.ctrl) }) s else s
      if full = 0 ∧ (frmMode u.ctrl = 1 ∨ frmMode u.ctrl = 5) ∧ u.early = none ∧ u.dead = false ∧ bit u.ctrl 9 then
        let s1 := unitEarly n u s0
        match (s1.port n).unit with
        | some v => unitEnd n v full s1
        | none => s1
      else unitEnd n u full s0

/-- A character outside a unit (R110, R114, R119 to R124). -/
def charOutside (n : Nat) (c : RxChar) (s : State) : State :=
  let p := s.port n
  let mode := frmMode (s.reg (apOff n 0x40))
  let b : Byte := BitVec.ofNat 8 c.v
  let skip := decide (p.skip ≠ 0 ∧ (p.skip = skipOf mode ∨ (mode = 5 ∧ 16 < p.skip)))
  if frmForbidden s n mode then junkN n 1 (raise (apOff n 0x24) 0x100 s)
  else if skip && decide (16 < p.skip) then
    junkN n 1 (modPort n (fun p => { p with skip := if p.skip = 17 then 0 else p.skip - 1 }) s)
  else if mode = 0 ∨ mode = 6 ∨ c.bk ∨ c.err then junkN n 1 s
  else if skip && decide (p.skip = 2) then
    if (mode = 2 ∧ b = 0xC0#8) ∨ (mode = 3 ∧ b = 0x00#8) then modPort n (fun p => { p with skip := 0 }) s else junkN n 1 s
  else if skip && decide (p.skip = 3) then junkN n 1 s
  else
    match unitFirst (unitNew n c.cap s) c.v with
    | none => junkN n 1 s
    | some (.more u) => unitMore n (flagStatus c u) (modPort n (fun p => { p with skip := 0 }) s)
    | some (.done u st k) => unitTook n (.done (flagStatus c u) st k) (modPort n (fun p => { p with skip := 0 }) s)

/-! ## LIN frames (R125, R268 to R270) -/

/-- A LIN outcome that forms no unit (R125, R278). -/
def linError (n id reason : Nat) (s : State) : State :=
  (raise (apOff n 0x24) 0x800 (count (ctAp n 15) 1 s)).setReg (apOff n 0x38) (w32 (id + reason * 256))

/-- The table entry of an identifier (R270). -/
def linEntry (s : State) (n id : Nat) : Word := mapGet (dflt 0#32) (s.port n).lin id

/-- A LIN frame with a response ends with a status; the port's own response is no unit while LIN_OWN is 0 (R125). -/
def linEnd (n : Nat) (u : UnitSt) (st : Nat) (s : State) : State :=
  if u.linOwn && !bit u.ctrl 10 then modPort n (fun p => { p with unit := none }) s else unitEnd n u st s

/-- The frame slot of a LIN frame ends, or a new break cuts the frame off (R125). -/
def linOver (n : Nat) (u : UnitSt) (s : State) : State :=
  let s0 := modPort n (fun p => { p with unit := none }) s
  match u.linPh with
  | 0 => linError n 0 1 s0
  | 1 => linError n 0 3 s0
  | 4 => s0
  | _ => if u.pay = [] then linError n (u.linPid.toNat % 64) 3 s0 else linEnd n u 7 s

/-- A break begins a LIN frame (R110, R125, R269). -/
def linBegin (n : Nat) (c : RxChar) (s : State) : State :=
  modPort n (fun p => { p with unit := some { unitNew n c.cap s with nine := false } }) s

/-- A character inside a LIN frame (R125). -/
def linChar (n : Nat) (u : UnitSt) (c : RxChar) (s : State) : State :=
  let b : Byte := BitVec.ofNat 8 c.v
  let keep := fun (v : UnitSt) => modPort n (fun p => { p with unit := some v }) s
  let none_ := modPort n (fun p => { p with unit := none }) s
  match u.linPh with
  | 0 => if b = 0x55#8 ∧ c.syncBad = false then keep { u with linPh := 1 } else linError n 0 1 none_
  | 1 =>
    let id := b.toNat % 64
    let e := linEntry s n id
    if linPid id ≠ b then linError n id 2 none_
    else if field e 0 4 = 0 ∨ 8 < field e 0 4 ∨ field e 5 2 = 0 ∨ field e 5 2 = 3 then keep { u with linPh := 4, linPid := b }
    else keep { u with linPh := 2, linPid := b, linLen := field e 0 4,
                       linModel := if id = 60 ∨ id = 61 then 0 else field e 4 1 }
  | 2 =>
    let v := flagStatus c { u with pay := u.pay ++ [b] }
    keep (if v.linLen ≤ v.pay.length then { v with linPh := 3 } else v)
  | 3 =>
    let v := flagStatus c u
    linEnd n v (max v.st (if b = linChecksum v.linPid v.linModel v.pay then 0 else 1)) s
  | _ => s

/-! ## The framer -/

/-- A character inside a unit (R110). -/
def charInside (n : Nat) (u : UnitSt) (c : RxChar) (s : State) : State :=
  if frmMode u.ctrl = 6 then
    -- the break begins a frame if the port is still in LIN mode, which is sampled afresh
    if c.bk then whenDo (linMode s n && !frmForbidden s n 6) (linBegin n c) (linOver n u s)
    else if c.err && bit u.ctrl 8 && decide (u.linPh = 2 ∨ u.linPh = 3) then linEnd n u 7 s
    else linChar n u c s
  else if c.bk ∨ (c.err ∧ bit u.ctrl 8) then unitEnd n u 7 s
  else
    match unitChar u c.v with
    | .more v => unitMore n (flagStatus c v) s
    | .done v st true => unitTook n (.done (flagStatus c v) st true) s
    | .done v st false => charOutside n c (unitTook n (.done v st false) s)

/-- What the pop of a receive word that fails parity does besides the poison tag (R236, R243). -/
def portqRead (n : Nat) (e : RxEnt) (s : State) : State :=
  if parityOk e.w then s
  else
    let (k, s1) := s.fresh
    (raise 0x8F20 1 s1).setReg 0x8F28 (w32 ((Config.freeWord k).toNat % 0x200000 + n * 0x200000 + 0x40000000))

/-- The framer pops a receive word and applies it (R110). -/
def frameChar (n : Nat) (s : State) : State :=
  let p := s.port n
  match p.q with
  | [] => s
  | e :: t =>
    if s.awake = false then s
    else
      let c := rxChar e
      let s1 := portqRead n e (s.setPort n { p with q := t })
      match p.unit with
      | some u => charInside n u c s1
      | none =>
        if c.bk ∧ linMode s1 n ∧ frmForbidden s1 n 6 = false then linBegin n c s1 else charOutside n c s1

/-- A unit in progress ends ABORTED, and any skipping ends (R112). -/
def unitAbort (n : Nat) (s : State) : State :=
  let s1 := match (s.port n).unit with
    | some u => if frmMode u.ctrl = 6 then (if u.pay = [] then modPort n (fun p => { p with unit := none }) s else linEnd n u 7 s)
        else unitEnd n u 7 s
    | none => s
  modPort n (fun p => { p with skip := 0 }) s1

/-- The line has been idle for the gap (R123). -/
def gapEnd (n : Nat) (s : State) : State :=
  let s1 := match (s.port n).unit with
    | some u => if frmMode u.ctrl = 4 then unitEnd n u u.st s else s
    | none => s
  if (s1.port n).skip = 3 then modPort n (fun p => { p with skip := 0 }) s1 else s1

/-- The line has been silent for ABORT_BITS (R113). -/
def silence (n : Nat) (s : State) : State :=
  match (s.port n).unit with
  | some u =>
    let m := frmMode u.ctrl
    if (m = 1 ∨ m = 2 ∨ m = 3 ∨ m = 5) ∧ field u.gap 8 16 ≠ 0 then unitEnd n u 7 s else s
  | none =>
    if 16 < (s.port n).skip ∧ s.rf (apOff n 0x48) 8 16 ≠ 0 then modPort n (fun p => { p with skip := 0 }) s else s

/-- The frame slot of a LIN frame ends (R125, R273). -/
def linSlotEnd (n : Nat) (s : State) : State :=
  match (s.port n).unit with
  | some u => if frmMode u.ctrl = 6 then linOver n u s else s
  | none => s

end Sys2Proof.Machine
end

