-- ==== Sys2Proof/Machine/Async.lean ====
section
/-!
DEFINITION. Asynchronous ports (R244 to R277): receiver, transmitter, rates, collisions, LIN headers and service.
-/
namespace Sys2Proof.Machine

/-- The rate is above 2 Mbaud (R248, R275): N × RATE is below 10^8 × 1,024 / 2,000,000. -/
def rateOver2M (rate : Word) : Bool := decide (bitTime rate < 51200)

/-! ## The receiver (R250 to R257, R267, R269) -/

/-- The received line is inverted; in SINGLE mode INV_RX acts as 0 (R245). -/
def invRx (s : State) (n : Nat) : Bool := s.rb (apOff n 0) 4 && decide (lineMode s n ≠ 1)
/-- The driven line is inverted; in SINGLE mode INV_TX acts as 0 (R245). -/
def invTx (s : State) (n : Nat) : Bool := s.rb (apOff n 0) 5 && decide (lineMode s n ≠ 1)

/-- APn_DE is active (R244, R246, R262): with EN 1 and the port in service, in HDX_DE around own transmissions alone; a character in
the shifter is finished after EN falls. -/
def deActive (s : State) (n : Nat) : Bool :=
  let p := s.port n
  decide (n < 16) && s.up? && !p.oos && (s.rb (apOff n 0) 0 || p.txTail) && (if lineMode s n = 2 then p.de else true)
/-- The level of APn_DE: active high, or active low under DE_POL (R262). -/
def deLevel (s : State) (n : Nat) : Bool := deActive s n != s.rb (apOff n 0) 6

/-- A receive word without its tag and OV from the line's levels (R245, R247, R252, R254): bit i of v is the i-th data bit's. -/
def rxWord (c : Word) (inv : Bool) (v : Nat) (par stop noisy early : Bool) : Word :=
  let d := bitOrder c (if inv then v ^^^ (2 ^ charBits c - 1) else v)
  let par := par != inv
  let stop := stop != inv
  let brk := !stop && decide (d = 0) && !(charPar c && par)
  let pe := charPar c && !brk && decide (par ≠ parityWant c d)
  w32 (d + b2n (!stop && !brk) * 0x200 + b2n pe * 0x400 + b2n noisy * 0x800 + b2n brk * 0x1000 + b2n early * 0x4000)

/-- A receive word pushed into the port's queue with its capture (R256). -/
def rxPush (n : Nat) (w : Word) (cap : Cap) (s : State) (syncBad : Bool := false) : State :=
  let p := s.port n
  if 64 ≤ p.q.length then
    raise (apOff n 0x24) 1 (count (ctAp n 10) 1 (s.setPort n { p with ov := true, idle := false }))
  else
    let w1 := w ||| w32 (b2n p.ov * 0x2000 + cap.tick % 65536 * 65536)
    let s1 := s.setPort n { p with q := p.q ++ [{ w := withParity w1, cap := cap, syncBad := syncBad }], ov := false, idle := false }
    let s2 := whenDo (bit w1 9 || bit w1 10 || bit w1 11) (raise (apOff n 0x24) 2) s1
    (whenDo (bit w1 12) (raise (apOff n 0x24) 4) s2).setReg (apOff n 0x18) w1

/-- A character that is neither stored nor echoed. -/
def rxFalse (n : Nat) (s : State) : State := raise (apOff n 0x24) 8 (count (ctAp n 11) 1 s)

/-- A character caught while the clocks of the core are stopped (R274 to R276): the waking character is not, above 2 Mbaud. In NAP its
capture is DT in the 40 ns steps in which it counts. -/
def rxCatch (n : Nat) (fs : Bool) (w : Word) (age : Nat) (s : State) : State :=
  let p := s.port n
  let room := if s.pw.st = 4 then 16 else 8
  let w1 := if p.wakeCatch then w ||| 0x8000#32 else w
  if fs then rxFalse n s
  else if p.wakeCatch ∧ p.waker ∧ rateOver2M p.rxRate then
    raise (apOff n 0x24) 0x400 (rxFalse n (s.setPort n { p with wakeCatch := false, waker := false }))
  else if p.caught.length < room then
    s.setPort n { p with caught := p.caught ++ [(w1, age, captureTk s n age 400 s.pw.coarse)], wakeCatch := false, waker := false }
  else s.setPort n { p with hibDrop := p.hibDrop + 1 }

/-- The bit time that a sync byte was measured to have, in units of 10 ns / 1,024, from the picoseconds of its first 8 bits (R269). -/
def syncBit (ps : Nat) : Nat := ps * 8 / 625
/-- A measured bit time lies more than 14 % off the port's setting (R269). -/
def syncOff (m rate : Nat) : Bool := decide (14 * rate < 100 * (Int.ofNat m - Int.ofNat rate).natAbs)

/-- The first character after a break at a responder with AUTO_SYNC is measured (R269). -/
def linMeasure (n sync : Nat) (s : State) : State × Bool :=
  let p := s.port n
  let m := syncBit sync
  if p.linSync = false then (s, false)
  else if linMode s n && s.rb (apOff n 0x2C) 2 && !s.rb (apOff n 0x2C) 0 then
    let bad := syncOff m (bitTime p.rxRate)
    (s.setPort n { p with linSync := false, linBit := if bad then none else some m }, bad)
  else (s.setPort n { p with linSync := false }, false)

/-- What a stop decision does (R252 to R256, R267, R269, R277). In the loopback path the character is the one that the transmitter
sent. -/
def rxStop (n : Nat) (fs : Bool) (v : Nat) (par stop noisy early : Bool) (sync age : Nat) (s : State) : State :=
  let p := s.port n
  let w := rxWord p.rxChar (invRx s n) v par stop noisy early
  let en := s.rb (apOff n 0) 0
  if s.awake then
    if !en then s
    else if p.oos then
      match p.loop with
      | [] => s
      | h :: t =>
        let c := p.rxChar
        if fs = false ∧ h = v % 2 ^ charBits c then
          rxPush n (rxWord c false v (parityWant c (bitOrder c v)) true false early) (captureFine s n age n) (s.setPort n { p with loop := t })
        else s
    else if fs then rxFalse n s
    else if linMode s n ∧ bit w 12 then modPort n (fun p => { p with idle := false }) s
    else if lineMode s n ≠ 0 ∧ txActive s n ∧ s.rb (apOff n 0) 3 = false then modPort n (fun p => { p with idle := false }) s
    else
      let (s1, bad) := linMeasure n sync s
      rxPush n w (captureFine s n age n) s1 bad
  else if s.up? || decide (s.pw.st = 4 ∧ n < 8 ∧ s.inReset = false ∧ s.testEn = false) then
    if s.pw.osc && en && s.rb (apOff n 0x20) 0 && !p.oos then rxCatch n fs w age s else s
  else s

/-- The receiver reaches a stop decision; its shifter is empty afterwards, and the ball has the level of the stop bit, or that of idle
after a false start (R251, R279). -/
def rxChar_ (n : Nat) (fs : Bool) (v : Nat) (par stop noisy early : Bool) (sync age : Nat) (s : State) : State :=
  let s1 := modPort n (fun p => { p with line := if fs then !(invRx s n) else stop }) s
  rxStop n fs v par stop noisy early sync age (whenDo s.awake (modPort n (fun p => { p with rxBusy := false })) s1)

/-- A low level ends in LIN mode (R269): one long enough is a break, and the next character is the sync byte. -/
def linBreakEnd (n bits age : Nat) (s : State) : State :=
  if s.awake && s.rb (apOff n 0) 0 && linMode s n && !(s.port n).oos then
    let brk := decide (s.rf (apOff n 0x2C) 11 5 ≤ bits)
    let s1 := modPort n (fun p => { p with line := !(invRx s n), linSync := brk, linBit := if brk then none else p.linBit }) s
    rxPush n (if brk then 0x1000#32 else 0x200#32) (captureFine s n age n) s1
  else s

/-! ## Rates (R263, R264) -/

/-- Both sides or one take the written setting; RATE_APPLIED when the last pending side has it (R263). -/
def rateTake (n : Nat) (rx tx : Bool) (s : State) : State :=
  let p := s.port n
  let c := s.reg (apOff n 4)
  let r := s.reg (apOff n 8)
  let p1 := if rx then { p with rxChar := c, rxRate := r, pendRx := false } else p
  let p2 := if tx then { p1 with txChar := c, txRate := r, pendTx := false } else p1
  let was := p.pendRx || p.pendTx
  whenDo (was && !p2.pendRx && !p2.pendTx) (raise (apOff n 0x24) 0x10) (s.setPort n p2)

/-- A write of AP_CHAR or AP_RATE without RATE_NOW (R263). -/
def wrRate (n : Nat) (char : Bool) (v : Word) (s : State) : State :=
  let s1 := s.setReg (apOff n (if char then 4 else 8)) (if char then v &&& 0x3FF#32 else v &&& 0x7FFFFFF#32)
  if (s.port n).rxBusy || txBusy s n then modPort n (fun p => { p with pendRx := true, pendTx := true }) s1 else rateTake n true true s1

/-- A side reaches its character point with a setting pending (R263). -/
def rateApply_ (n : Nat) (tx : Bool) (s : State) : State :=
  let p := s.port n
  if s.awake && (if tx then p.pendTx else p.pendRx) then rateTake n (!tx) tx s else s

/-! ## The transmitter (R258 to R262, R266) -/

/-- A collision on a port (R266). -/
def collide (ep n : Nat) (c : Cur) (s : State) : State :=
  let s1 := modPort n (fun p => { p with de := false, idle := false }) (raise (apOff n 0x24) 0x40 (count (ctAp n 13) 1 s))
  if c.tries + 1 < s.rf (apOff n 0x14) 16 4 then
    setCur ep (some { c with tries := c.tries + 1, sent := 0, shift := none, backoff := true, hit := true }) s1
  else
    dropRef c.ref.addr (portEnd ep n (raise (apOff n 0x24) 0x80 (count (ctAp n 14) 1 s1)))

/-- A character on a port's ball (R245, R247, R258); auto: the bit time that AUTO_SYNC has measured (R269). -/
def charOut (n v : Nat) (auto : Option Nat) (s : State) : State :=
  let p := s.port n
  emit (.char n v (charLine p.txChar (invTx s n) v) (stopHalves p.txChar) (auto.getD (bitTime p.txRate))) s

/-- The character in the shifter has gone, or is abandoned: the sentence of an egress point goes on behind it, reads what its next one
needs, and ends after its last (R211, R215, R258, R264). -/
def curNext (ep n k : Nat) (c : Cur) (s : State) : State :=
  let s1 := setCur ep (some (if c.shift.isSome then { c with shift := none } else { c with sent := c.sent + k })) s
  curOver ep n (if ep = n then cutLoad n 520 s1 else s1)

/-- The transmitter sends the next character of a sentence at an egress point (R258, R259, R266, R268, R277). -/
def txSend (ep n : Nat) (loop : Bool) (mis : Option Nat) (s : State) : State :=
  match (s.eg ep).cur with
  | none => s
  | some c =>
    match curShift s n c with
    | none => s
    | some (v, k) =>
      let hit := !loop && mis.any (fun i => decide (i ≤ stopIndex (s.port n).txChar))
      if hit && decide (lineMode s n ≠ 0) then collide ep n c s
      else if hit && linMode s n then linError n 0 4 (dropRef c.ref.addr (portEnd ep n s))
      else
        curNext ep n k c (if loop then modPort n (fun p => { p with loop := p.loop ++ [bitOrder p.txChar v] }) s else charOut n v none s)

/-- A LIN header or response byte is sent (R268, R269, R272, R273). -/
def linSend (n : Nat) (mis : Option Nat) (s : State) : State :=
  let p := s.port n
  match p.linTx with
  | [] => s
  | b :: t =>
    match mis with
    | some _ => serviceBoundary n (linError n (if p.linResp then p.linTxId else 0) 4 (s.setPort n { p with linTx := [] }))
    | none =>
      let done := t.isEmpty && p.linResp && s.rb (apOff n 0x2C) 3 && !p.linLoaded
      let buf := if done then mapDel p.buf p.linTxId else p.buf
      serviceBoundary n ((charOut n b.toNat (if p.linResp then p.linBit else none) s).setPort n { p with linTx := t, buf := buf })

/-- The transmitter of a port sends one character (R258): a LIN byte, a character of the port's sentence, or, out of service,
one of a loopback listener's. -/
def txOne (n : Nat) (mis : Option Nat) (s : State) : State :=
  if !s.awake then s
  else if (s.port n).oos then (if portEp s n = n then s else txSend (portEp s n) n true mis s)
  else if (s.port n).linTx ≠ [] then linSend n mis s
  else txSend n n false mis s

/-- The next character of an enabled port; of a port whose EN was cleared, the one that stood in the shifter (R246). -/
def txChar_ (n : Nat) (mis : Option Nat) (s : State) : State :=
  if s.rb (apOff n 0) 0 then txOne n mis s
  else whenDo (s.awake && (s.port n).txTail)
    (fun s => modPort n (fun p => { p with txTail := false, de := false }) (txOne n mis s)) s

/-- The character in the transmit shifter is abandoned and the sentence goes on with its next one (R264); abandoning the last
one ends the sentence. -/
def txSkip (n : Nat) (s : State) : State :=
  let k := ((shiftOf s n).map (·.2)).getD 0
  let s1 := modPort n (fun p => { p with txTail := false }) (raise (apOff n 0x24) 0x20 (count (ctAp n 12) 1 s))
  let ep := portEp s n
  if (s.port n).linTx ≠ [] then serviceBoundary n (modPort n (fun p => { p with linTx := p.linTx.drop 1 }) s1)
  else match (s1.eg ep).cur with
    | some c => curNext ep n k c s1
    | none => s1

/-- A write of AP_RATE with RATE_NOW (R264). -/
def wrRateNow (n : Nat) (v : Word) (s : State) : State :=
  let rx := (s.port n).rxBusy
  let s1 := s.setReg (apOff n 8) (v &&& 0x7FFFFFF#32)
  let s2 := whenDo (txBusy s n) (txSkip n) s1
  let s3 := if rx then unitAbort n (modPort n (fun p => { p with rxBusy := false }) <| raise (apOff n 0x24) 0x20 (count (ctAp n 12) 1 s2)) else s2
  rateTake n true true s3

/-- The backoff after a collision ends (R266). -/
def backoffOver (n : Nat) (s : State) : State :=
  match (s.eg n).cur with
  | some c =>
    if s.awake && c.backoff && s.rb (apOff n 0) 0 then
      modPort n (fun p => { p with de := decide (lineMode s n = 2) }) (setCur n (some { c with backoff := false, hit := false, sent := 0 }) s)
    else s
  | none => s

/-- The line has been idle for IFS bit times (R265): a waiting sentence starts. -/
def ifsOver (n : Nat) (s : State) : State :=
  if s.awake && decide (lineMode s n ≠ 0) && !(txActive s n) && !(s.port n).rxBusy then
    boundary n (modPort n (fun p => { p with idle := true }) s)
  else s

/-- The direction enable is released (R262). -/
def deOver (n : Nat) (s : State) : State :=
  if (s.port n).de && (s.eg n).cur.isNone then modPort n (fun p => { p with de := false }) s else s

/-! ## LIN (R271 to R273) -/

/-- A header with a valid protected identifier for a published identifier has been received (R272). -/
def linRespond (n : Nat) (s : State) : State :=
  let p := s.port n
  match p.unit with
  | none => s
  | some u =>
    let id := u.linPid.toNat % 64
    if s.awake = false ∨ p.oosPend ∨ frmMode u.ctrl ≠ 6 ∨ u.linPh ≠ 2 ∨ field (linEntry s n id) 5 2 ≠ 2 ∨ u.pay ≠ [] ∨ u.linOwn then s
    else
      match mapFind p.buf id with
      | none => raise (apOff n 0x24) 0x1000 (linError n id 5 (s.setPort n { p with unit := some { u with linPh := 4 } }))
      | some d =>
        s.setPort n { p with unit := some { u with linOwn := true }, linTx := d ++ [linChecksum u.linPid u.linModel d],
                             linTxId := id, linResp := true, linLoaded := false }

/-- The enabled schedule slots, in index order (R270). -/
def linSlots (s : State) (n : Nat) : List Nat :=
  (List.range 16).filter (fun i => bit (linEntry s n (64 + i)) 6)

/-- The commander sends the next header of its schedule (R273); a bit of the break that is read back otherwise stops it (R268). -/
def linSchedule (n : Nat) (mis : Option Nat) (s : State) : State :=
  let p := s.port n
  let ctl := s.reg (apOff n 0x2C)
  let busy := match p.unit with
    | some u => decide (u.linPh ≠ 4)
    | none => false
  if !s.awake || !s.rb (apOff n 0) 0 || p.oos || !linMode s n || !bit ctl 0 || !bit ctl 1 || busy || p.oosPend || decide (p.linTx ≠ []) then s
  else
    let l := linSlots s n
    let nx := match p.linPos with
      | some i => (l.find? (fun j => i < j)).orElse (fun _ => l.head?)
      | none => l.head?
    match nx with
    | none => s
    | some i =>
      let id := field (linEntry s n (64 + i)) 0 6
      let b := field ctl 4 5
      let len := if b < 13 then 13 else if 26 < b then 26 else b
      let s1 := s.setPort n { p with linPos := some i, linTx := [0x55#8, linPid id], linTxId := id, linResp := false }
      match mis with
      | some k =>
        if k < len then linError n 0 4 (emit (.linBreak n (k + 1)) (s1.setPort n { s1.port n with linTx := [] }))
        else emit (.linBreak n len) s1
      | none => emit (.linBreak n len) s1

/-! ## Enable and service (R246, R257, R277) -/

/-- A write of AP_CTRL (R246, R112). -/
def wrApCtrl (n : Nat) (v : Word) (s : State) : State :=
  let was := s.rb (apOff n 0) 0
  let s1 := s.setReg (apOff n 0) (v &&& 0x7F#32)
  if was && !bit v 0 then
    unitAbort n (modPort n (fun p => { p with txTail := txBusy s n, de := p.de && txBusy s n, linTx := p.linTx.take 1 }) s1)
  else if !was && bit v 0 then boundary n (modPort n (fun p => { p with txTail := false, de := decide (lineMode s1 n = 2 ∧ (s1.eg n).cur.isSome) }) s1)
  else s1

/-- The receive queue is flushed (R226, R257). -/
def rxFlush (n : Nat) (s : State) : State :=
  whenDo (!(s.port n).q.isEmpty) (raise 0x8F00 8) (modPort n (fun p => { p with q := [] }) s)

/-- A port goes out of service (R277): the receiver at once, the transmitter at its boundary. -/
def portOut (n : Nat) (s : State) : State :=
  let s1 := rxFlush n (unitAbort n s)
  serviceBoundary n (modPort n (fun p => { p with oosPend := true }) s1)

/-- A port is returned to service (R277). -/
def portBack (n : Nat) (s : State) : State :=
  boundary n (rxFlush n (unitAbort n (modPort n (fun p => { p with oos := false, oosPend := false, loop := [], linSync := false }) s)))

end Sys2Proof.Machine
end

