-- ==== Sys2Proof/Machine/Bobbins.lean ====
section
/-!
DEFINITION. Commands on bobbins (R226, R227, R229, R235, R238 to R240): flush, lease lapse, pin age and the background scan.
-/
namespace Sys2Proof.Machine

/-- A flush of a bobbin (R226, R227). -/
def flushBob (b : Nat) (s : State) : State :=
  if classL s b then raise 0x8F00 0x10 s
  else
    let v := s.bob b
    let n := v.wp - v.rp
    let k := mapGet (dflt 128) s.laneLq b
    let refs := laneAll s b
    let s1 := s.setBob b { v with rp := v.wp, lp := v.wp }
    let s2 := if k < 128 then forAll refs (fun r s => dropRef r.addr (laneDropped k 2 r s)) s1 else s1
    let s3 := whenDo (decide (n ≠ 0)) (raise 0x8F00 8) (count (ctBb b 2) n s2)
    if k < 128 then egRefresh (epOf k) s3 else s3

/-- A notch has been held for its lease and lapses (R229, R235). -/
def lapse (b : Nat) (s : State) : State :=
  let v := s.bob b
  let u := field v.lease 16 2
  if s.awake && v.notch.isSome && classL s b && decide (u = 1 ∨ u = 2) then
    let lp := max v.lp (min v.rp ((oldestPin b s.pins).getD v.rp))
    raise 0x8F00 2 (count (ctBb b 2) 1 (s.setBob b { v with notch := none, lapsed := true, lp := lp }))
  else s

/-- Whether the word at a store address is live in a bobbin (R240). -/
def wordLive (s : State) (b a : Nat) : Bool :=
  let v := s.bob b
  let d := bobDepth s b
  let o := (a - field (s.liveReg (carveOff b)) 0 15 * 64) % d
  let lo := if classL s b then v.lp else v.rp
  decide ((o + d - lo % d) % d < v.wp - lo)

/-- A word that fails parity as the background scan reads it (R240). -/
def scanBad (a : Nat) (s : State) : State :=
  let b := bobOfAddr s a 512
  let live := match b with
    | some n => wordLive s n a
    | none => false
  let s1 := match b with
    | some n => count (ctBb n 3) 1 s
    | none => s
  let s2 := (raise 0x8F20 2 s1).setReg 0x8F14 (w32 (a + b2n live * 0x200000))
  if live then s2 else s2.setWord a 0#32

/-- The background scan reads every word from an address through another, in ascending order: what is not listed in the store is 0
and holds its parity (R239). -/
def scanSpan (lo hi : Nat) (s : State) : State :=
  forAll (mapKeys (mapFilter (fun a w => decide (lo ≤ a ∧ a ≤ hi) && !parityOk w) s.store)) scanBad s

/-- A pass of the background scan ends (R239). -/
def scanPass (s : State) : State := s.setReg 0x8F10 (setField (s.reg 0x8F10) 16 16 (s.rf 0x8F10 16 16 + 1))

/-- A bit of a store word changes by an upset. -/
def upsetWord (a i : Nat) (s : State) : State :=
  { s with store := mapSet (dflt 0#33) s.store a (s.word a ^^^ BitVec.ofNat 33 (2 ^ i)) }

/-- The background scan reads on through an address (R239, R240): from where it stands in ascending order, past the end of the live
store and from its start again where the address lies behind; an upset of that word may come before its read. -/
def scanRead (a : Nat) (upset : Option Nat) (s : State) : State :=
  let top := if s.pw.store4 then 0x100000 else 0x200000
  if s.awake && s.rb 0x8F10 0 && decide (a < top) then
    let s0 := match upset with
      | some i => upsetWord a i s
      | none => s
    let p := if s.scan < top then s.scan else 0
    let s1 := if p ≤ a then scanSpan p a s0 else scanSpan 0 a (scanPass (scanSpan p (top - 1) s0))
    if a + 1 = top then { scanPass s1 with scan := 0 } else { s1 with scan := a + 1 }
  else s

/-- A record leaves the side table by age (R238). -/
def pinAge (a : Nat) (s : State) : State :=
  match s.pin a with
  | some p =>
    if s.awake && p.complete && decide (p.holds = 0 ∧ p.wait = 0 ∧ p.refs ≠ 0) then
      raise 0x8F00 0x20 (unpinCheck a (s.setPin a { p with refs := 0 }))
    else s
  | none => s

end Sys2Proof.Machine
end

