-- ==== Sys2Proof/Machine/Crypto.lean ====
section
/-!
DEFINITION. The two functions that the boot ROM takes from published standards (R435, R436): SHA-256 and the verification of an
ECDSA P-256 signature.
-/
namespace Sys2Proof.Machine

/-! ## SHA-256 -/

/-- The round constants. -/
def shaK : List Nat :=
  [0x428a2f98, 0x71374491, 0xb5c0fbcf, 0xe9b5dba5, 0x3956c25b, 0x59f111f1, 0x923f82a4, 0xab1c5ed5] ++
  [0xd807aa98, 0x12835b01, 0x243185be, 0x550c7dc3, 0x72be5d74, 0x80deb1fe, 0x9bdc06a7, 0xc19bf174] ++
  [0xe49b69c1, 0xefbe4786, 0x0fc19dc6, 0x240ca1cc, 0x2de92c6f, 0x4a7484aa, 0x5cb0a9dc, 0x76f988da] ++
  [0x983e5152, 0xa831c66d, 0xb00327c8, 0xbf597fc7, 0xc6e00bf3, 0xd5a79147, 0x06ca6351, 0x14292967] ++
  [0x27b70a85, 0x2e1b2138, 0x4d2c6dfc, 0x53380d13, 0x650a7354, 0x766a0abb, 0x81c2c92e, 0x92722c85] ++
  [0xa2bfe8a1, 0xa81a664b, 0xc24b8b70, 0xc76c51a3, 0xd192e819, 0xd6990624, 0xf40e3585, 0x106aa070] ++
  [0x19a4c116, 0x1e376c08, 0x2748774c, 0x34b0bcb5, 0x391c0cb3, 0x4ed8aa4a, 0x5b9cca4f, 0x682e6ff3] ++
  [0x748f82ee, 0x78a5636f, 0x84c87814, 0x8cc70208, 0x90befffa, 0xa4506ceb, 0xbef9a3f7, 0xc67178f2]

/-- The initial hash value. -/
def shaH : List Word :=
  [0x6a09e667, 0xbb67ae85, 0x3c6ef372, 0xa54ff53a, 0x510e527f, 0x9b05688c, 0x1f83d9ab, 0x5be0cd19]

/-- The schedule extended by one word; the list holds the words so far, newest first. -/
def shaExtend (l : List Word) : List Word :=
  let w15 := wordAt l 14
  let w2 := wordAt l 1
  let s0 := w15.rotateRight 7 ^^^ w15.rotateRight 18 ^^^ (w15 >>> 3)
  let s1 := w2.rotateRight 17 ^^^ w2.rotateRight 19 ^^^ (w2 >>> 10)
  (wordAt l 15 + s0 + wordAt l 6 + s1) :: l

/-- The 64 words of the schedule of a block of 16. -/
def shaSchedule (b : List Word) : List Word := ((List.range 48).foldl (fun l _ => shaExtend l) b.reverse).reverse

/-- One round on the eight working variables. -/
def shaRound (v : List Word) (kw : Nat × Word) : List Word :=
  let a := wordAt v 0
  let b := wordAt v 1
  let c := wordAt v 2
  let e := wordAt v 4
  let t1 := wordAt v 7 + (e.rotateRight 6 ^^^ e.rotateRight 11 ^^^ e.rotateRight 25) +
    ((e &&& wordAt v 5) ^^^ (~~~e &&& wordAt v 6)) + w32 kw.1 + kw.2
  let t2 := (a.rotateRight 2 ^^^ a.rotateRight 13 ^^^ a.rotateRight 22) + ((a &&& b) ^^^ (a &&& c) ^^^ (b &&& c))
  [t1 + t2, a, b, c, wordAt v 3 + t1, e, wordAt v 5, wordAt v 6]

/-- One block compressed into the hash. -/
def shaBlock (h b : List Word) : List Word := List.zipWith (· + ·) h ((shaK.zip (shaSchedule b)).foldl shaRound h)

/-- The message padded to whole blocks. -/
def shaPad (bs : List Byte) : List Byte :=
  bs ++ 0x80#8 :: List.replicate ((119 - bs.length % 64) % 64) 0x00#8 ++ natBytesBE 8 (8 * bs.length)

/-- Bytes as big-endian words, n of them. -/
def beWords (bs : List Byte) (n : Nat) : List Word := (List.range n).map (fun i => w32 (beNat ((bs.drop (4 * i)).take 4)))

/-- The first n blocks of a padded message compressed. -/
def shaGo : Nat → List Byte → List Word → List Word
  | 0, _, h => h
  | n + 1, bs, h => shaGo n (bs.drop 64) (shaBlock h (beWords bs 16))

/-- SHA-256 of a byte string, as a number. -/
def sha256 (bs : List Byte) : Nat :=
  let p := shaPad bs
  (shaGo (p.length / 64) p shaH).foldl (fun a w => a * 0x100000000 + w.toNat) 0

/-! ## ECDSA on P-256 -/

/-- The field's prime, the curve's b, the order of the group and the generator. -/
def p256P : Nat := 0xffffffff00000001000000000000000000000000ffffffffffffffffffffffff
@[inherit_doc p256P] def p256B : Nat := 0x5ac635d8aa3a93e7b3ebbd55769886bc651d06b0cc53b0f63bce3c3e27d2604b
@[inherit_doc p256P] def p256N : Nat := 0xffffffff00000000ffffffffffffffffbce6faada7179e84f3b9cac2fc632551
@[inherit_doc p256P] def p256G : Nat × Nat :=
  (0x6b17d1f2e12c4247f8bce6e563a440f277037d812deb33a0f4a13945d898c296,
   0x4fe342e2fe1a7f9b8ee7eb4a7c0f9e162bce33576b315ececbb6406837bf51f5)

/-- a to the power e modulo m, by the low n bits of e. -/
def powMod (m : Nat) : Nat → Nat → Nat → Nat
  | 0, _, _ => 1 % m
  | n + 1, a, e =>
    let r := powMod m n (a * a % m) (e / 2)
    if e % 2 = 1 then a * r % m else r

/-- The inverse modulo a prime below 2^256. -/
def invMod (m a : Nat) : Nat := powMod m 256 (a % m) (m - 2)

/-- The sum of two points; none is the point at infinity. -/
def ecAdd : Option (Nat × Nat) → Option (Nat × Nat) → Option (Nat × Nat)
  | none, q => q
  | p, none => p
  | some (x1, y1), some (x2, y2) =>
    let p := p256P
    if x1 = x2 ∧ (y1 + y2) % p = 0 then none
    else
      let l := if x1 = x2 then (3 * x1 * x1 + (p - 3)) % p * invMod p (2 * y1) % p
        else (y2 + p - y1) % p * invMod p (x2 + p - x1) % p
      let x3 := (l * l + 2 * p - x1 - x2) % p
      some (x3, (l * (x1 + p - x3) + (p - y1)) % p)

/-- A multiple of a point, by the low n bits of the factor. -/
def ecMul : Nat → Nat → Option (Nat × Nat) → Option (Nat × Nat)
  | 0, _, _ => none
  | n + 1, k, q =>
    let r := ecMul n (k / 2) (ecAdd q q)
    if k % 2 = 1 then ecAdd q r else r

/-- A point lies on the curve. -/
def onCurve (q : Nat × Nat) : Bool :=
  decide (q.1 < p256P ∧ q.2 < p256P) && decide (q.2 * q.2 % p256P = (q.1 * q.1 * q.1 + (p256P - 3) * q.1 + p256B) % p256P)

/-- A signature (r, s) verifies under a public key over a hash. -/
def ecdsaOk (pub : Nat × Nat) (r s : Nat) (hash : Nat) : Bool :=
  let n := p256N
  if onCurve pub = false ∨ r = 0 ∨ n ≤ r ∨ s = 0 ∨ n ≤ s then false
  else
    let w := invMod n s
    match ecAdd (ecMul 256 (hash * w % n) (some p256G)) (ecMul 256 (r * w % n) (some pub)) with
    | none => false
    | some (x, _) => decide (x % n = r)

end Sys2Proof.Machine
end

