-- ==== Sys2Proof/Machine/CheckUnits.lean ====
section
/-!
DEFINITION. The check-value units CU0 to CU15 (R307 to R314, R322): contexts, operations, opened mode, self-test.
-/
namespace Sys2Proof.Machine

/-- The offset of register r of CU n. -/
def cuOff (n r : Nat) : Nat := 0xB000 + 0x80 * n + r
/-- A unit. -/
def State.cu (s : State) (n : Nat) : CkUnit := mapGet (dflt {}) s.cus n
/-- A unit replaced. -/
def State.setCu (s : State) (n : Nat) (v : CkUnit) : State := { s with cus := mapSet (dflt {}) s.cus n v }
/-- The selected context of a unit (R307). -/
def cuSel (s : State) (n : Nat) : Nat := s.rf (cuOff n 0) 0 4
/-- The selected context. -/
def State.ctx (s : State) (n : Nat) : CkCtx := mapGet (dflt {}) s.cuCtx (16 * n + cuSel s n)
/-- The selected context replaced. -/
def State.setCtx (s : State) (n : Nat) (v : CkCtx) : State :=
  { s with cuCtx := mapSet (dflt {}) s.cuCtx (16 * n + cuSel s n) v }

/-- A context is opened (R312). -/
def CkCtx.isOpen (c : CkCtx) : Bool := bit c.cfg 0
/-- The fixed check of a context (R304). -/
def CkCtx.check (c : CkCtx) : Nat := field c.cfg 1 3
/-- The width W of a context's check (R312). -/
def CkCtx.width (c : CkCtx) : Nat := if c.isOpen then field c.cfg 6 6 + 1 else ckWidth c.check
/-- The initial running value (R305, R312). -/
def CkCtx.start (c : CkCtx) : Nat := if c.isOpen then maskW c.width c.init.toNat else ckInit c.check
/-- Bytes folded into a running value (R305, R308). -/
def CkCtx.fold (c : CkCtx) (r : Nat) (bs : List Byte) : Nat :=
  if c.isOpen then bs.foldl (ckByte c.width (maskW c.width c.poly.toNat) (bit c.cfg 12)) r else ckFold c.check r bs
/-- The result of a running value (R305). -/
def CkCtx.final (c : CkCtx) (r : Nat) : Nat :=
  if c.isOpen then ckResult c.width (bit c.cfg 13) (maskW c.width c.xor.toNat) r else ckFinal c.check r

/-- START (R306, R308). -/
def CkCtx.begun (c : CkCtx) (bind : Bool) : CkCtx :=
  let r := if bind then c.fold c.start (wordBytes c.bind) else c.start
  { c with run := BitVec.ofNat 64 r, started := true, valid := false, bytes := 0 }

/-- A discarded write (R308, R322). -/
def cuRefused (n : Nat) (s : State) : State := raise (cuOff n 0x50) 2 (count (ctCk (3 * n + 2)) 1 s)
/-- A write refused in RUN (R313). -/
def cuOpenReject (n : Nat) (s : State) : State := raise (cuOff n 0x50) 4 (count (ctCk 59) 1 (count (ctCk (3 * n + 2)) 1 s))

/-- Opened mode is accepted in BOOT, TEST and RECOVERY (R312), from the start of the boot ROM on: at reset OPEN_OK is 0. -/
def openOk (s : State) : Bool := decide (s.boot.stage ≠ 0 ∧ s.boot.phase ≠ 3)

/-- START on the selected context. -/
def cuStart (n : Nat) (s : State) : State := let c := s.ctx n
  s.setCtx n (c.begun (bit c.cfg 4))

/-- FINISH on the selected context (R308, R310). -/
def cuFinish (n : Nat) (s : State) : State :=
  let c := s.ctx n
  if c.started = false then cuRefused n s
  else
    let v := c.final c.run.toNat
    let s1 := count (ctCk (3 * n)) 1 (s.setCtx n { c with res := BitVec.ofNat 64 v, valid := true, started := false })
    if bit c.cfg 5 = false then s1
    else if v = maskW c.width c.exp.toNat then s1.setCu n { s1.cu n with isMatch := true }
    else raise (cuOff n 0x50) 1 (count (ctCk (3 * n + 1)) 1 (s1.setCu n { s1.cu n with isMatch := false, misCtx := cuSel s n }))

/-- CLEAR (R308). -/
def cuClear (n : Nat) (s : State) : State := s.setCtx n {}

/-- SELFTEST (R322): a unit none of whose contexts is started. -/
def cuSelftest (n : Nat) (s : State) : State :=
  let used := (List.range 16).any (fun i => (mapGet (dflt {}) s.cuCtx (16 * n + i) : CkCtx).started)
  if used then count (ctCk 62) 1 (s.setCu n { s.cu n with result := 3 })
  else s.setCu n { s.cu n with testing := true }

/-- A write of CK_CMD: START before FINISH, then SELFTEST and CLEAR (R308, R322). -/
def wrCkCmd (n : Nat) (v : Word) (s : State) : State :=
  if (s.cu n).testing then cuRefused n s
  else whenDo (bit v 3) (cuClear n) (whenDo (bit v 2) (cuSelftest n) (whenDo (bit v 1) (cuFinish n)
    (whenDo (bit v 0) (cuStart n) s)))

/-- The end of a self-test (R322). -/
def cuTestEnd (n : Nat) (pass : Bool) (s : State) : State :=
  if (s.cu n).testing then
    let s1 := raise (cuOff n 0x50) 8 (count (ctCk 60) 1 (s.setCu n { s.cu n with testing := false, result := if pass then 1 else 2 }))
    whenDo (!pass) (fun s => raise (cuOff n 0x50) 0x10 (count (ctCk 61) 1 s)) s1
  else s

/-- A write of CK_DATA1, CK_DATA2 or CK_DATA4 (R308): k bytes. -/
def wrCkData (n k : Nat) (v : Word) (s : State) : State :=
  let c := s.ctx n
  if (s.cu n).testing ∨ c.started = false then cuRefused n s
  else s.setCtx n { c with run := BitVec.ofNat 64 (c.fold c.run.toNat ((wordBytes v).take k)), bytes := min 65535 (c.bytes + k) }

/-- A write of CK_CFG (R308, R313). -/
def wrCkCfg (n : Nat) (v : Word) (s : State) : State :=
  if (s.cu n).testing then cuRefused n s
  else if bit v 0 ∧ openOk s = false then cuOpenReject n s
  else s.setCtx n { s.ctx n with cfg := v &&& 0x3FFF#32, started := false, valid := false }

/-- A doubleword with its low or high word replaced. -/
def setHalf (d : DWord) (hi : Bool) (v : Word) : DWord := if hi then mkD v (loW d) else mkD (hiW d) v

/-- A write of an opened parameter (R313): 0 to 5 POLY, INIT and XOR, low and high. -/
def wrCkParam (n i : Nat) (v : Word) (s : State) : State :=
  if (s.cu n).testing then cuRefused n s
  else if openOk s = false then cuOpenReject n s
  else
    let c := s.ctx n
    let hi := decide (i % 2 = 1)
    s.setCtx n (match i / 2 with
      | 0 => { c with poly := setHalf c.poly hi v }
      | 1 => { c with init := setHalf c.init hi v }
      | _ => { c with xor := setHalf c.xor hi v })

/-- A write of CK_RUN_LO (R308, R309). -/
def wrCkRunLo (n : Nat) (v : Word) (s : State) : State :=
  if (s.cu n).testing then cuRefused n s
  else
    let c := s.ctx n
    s.setCtx n { c with run := BitVec.ofNat 64 (maskW c.width (mkD c.runHi v).toNat), started := true, valid := false }

/-- Writes of CK_BIND, CK_RUN_HI and CK_EXP (R307, R322). -/
def wrCkPlain (n r : Nat) (v : Word) (s : State) : State :=
  if (s.cu n).testing then cuRefused n s
  else
    let c := s.ctx n
    s.setCtx n (match r with
      | 0x20 => { c with bind := v }
      | 0x28 => { c with runHi := v }
      | 0x2C => { c with exp := setHalf c.exp false v }
      | _ => { c with exp := setHalf c.exp true v })

/-- A write of a register of CU n other than its cause and mask. -/
def wrCk (n r : Nat) (v : Word) (s : State) : State :=
  match r with
  | 0x00 => s.setReg (cuOff n 0) (v &&& 0xF#32)
  | 0x04 => wrCkCfg n v s
  | 0x24 => wrCkRunLo n v s
  | 0x34 => wrCkData n 1 v s
  | 0x38 => wrCkData n 2 v s
  | 0x3C => wrCkData n 4 v s
  | 0x40 => wrCkCmd n v s
  | _ => if 0x08 ≤ r ∧ r < 0x20 then wrCkParam n ((r - 8) / 4) v s
    else if r = 0x20 ∨ r = 0x28 ∨ r = 0x2C ∨ r = 0x30 then wrCkPlain n r v s
    else s

/-- The value that a read of a register of CU n gives, other than its cause and mask (R309, R324). -/
def rdCk (s : State) (n r : Nat) : Word :=
  let c := s.ctx n
  let u := s.cu n
  match r with
  | 0x00 => s.reg (cuOff n 0)
  | 0x04 => c.cfg
  | 0x08 => loW c.poly
  | 0x0C => hiW c.poly
  | 0x10 => loW c.init
  | 0x14 => hiW c.init
  | 0x18 => loW c.xor
  | 0x1C => hiW c.xor
  | 0x20 => c.bind
  | 0x24 => loW (BitVec.ofNat 64 (maskW c.width c.run.toNat))
  | 0x28 => hiW (BitVec.ofNat 64 (maskW c.width c.run.toNat))
  | 0x2C => loW c.exp
  | 0x30 => hiW c.exp
  | 0x44 => loW c.res
  | 0x48 => hiW c.res
  | 0x4C => w32 (b2n c.started + 2 * b2n c.valid + 4 * b2n u.isMatch + 8 * b2n u.testing + 16 * u.result + 64 * b2n (openOk s) +
      256 * u.misCtx + 65536 * c.bytes)
  | _ => 0#32

/-- On entry to RUN every opened context returns to its reset state (R314). -/
def closeOpen (s : State) : State :=
  let opened := s.cuCtx.filter (fun e => e.2.isOpen)
  forAll opened (fun e s => raise (cuOff (e.1 / 16) 0x50) 0x20 (count (ctCk 63) 1 { s with cuCtx := mapDel s.cuCtx e.1 })) s

end Sys2Proof.Machine
end

