-- ==== Sys2Proof/Machine/CanPort.lean ====
section
/-!
DEFINITION. CAN controllers (R126, R280 to R287): frames received and sent, filters, errors, service.
-/
namespace Sys2Proof.Machine

/-- A frame on a CAN bus (R52, R54, R55): its format and type code, and its payload. -/
def canFmt (kind : Nat) : Nat := if kind ≤ 1 then 0x10 else if kind = 2 then 0x11 else 0x12
/-- The type code of a frame. -/
def canType (kind : Nat) (ide : Bool) (id : Nat) (sec : Bool) (vcid sdt : Byte) : Word :=
  let ident := if ide then id % 0x20000000 else id % 0x800
  match kind with
  | 0 => w32 (b2n ide * 0x20000000 + ident)
  | 1 => w32 (3 * 0x40000000 + b2n ide * 0x20000000 + ident)
  | 2 => w32 (0x40000000 + b2n ide * 0x20000000 + ident)
  | _ => w32 (2 * 0x40000000 + b2n sec * 0x20000000 + vcid.toNat * 0x200000 + sdt.toNat * 0x2000 + id % 0x800)
/-- The payload of a frame. -/
def canPay (kind dlc : Nat) (af : Word) (data : List Byte) : List Byte :=
  match kind with
  | 1 => [BitVec.ofNat 8 dlc]
  | 3 => wordBytes af ++ data
  | _ => data

/-- One filter entry matches a frame (R282): value word and mask word. -/
def fltMatch (v m : Word) (kind : Nat) (ide : Bool) (ident : Nat) : Bool :=
  let k := field m 30 2
  decide ((w32 ident ^^^ v) &&& m &&& 0x1FFFFFFF#32 = 0#32) && (!bit m 29 || decide (bit v 29 = ide)) &&
    decide (k = 0 ∨ (k = 1 ∧ kind ≤ 1) ∨ k = kind ∧ 2 ≤ kind)

/-- The filter's decision (R282, R303): true accepts. A filter word is the one in force at the frame's SOF, so many picoseconds ago. -/
def canAccept (s : State) (n kind : Nat) (ide : Bool) (id age : Nat) : Bool :=
  let ident := if kind = 3 ∨ ide = false then id % 0x800 else id % 0x20000000
  let at_ := fun i => valueAt i (s.tape.clk - psUnits age) (mapGet (dflt 0#32) (s.can n).flt i) (s.can n).fltWas
  match (List.range 32).find? (fun i => bit (at_ (2 * i)) 30 && fltMatch (at_ (2 * i)) (at_ (2 * i + 1)) kind (ide && decide (kind ≠ 3)) ident) with
  | some i => !bit (at_ (2 * i)) 31
  | none => !s.rb (cnOff n 0) 8

/-- The frame's format is enabled (R283). -/
def canEnabled (s : State) (n kind : Nat) : Bool :=
  !(decide (kind = 2) && !s.rb (cnOff n 0) 1) && !(decide (kind = 3) && !s.rb (cnOff n 0) 2)

/-- The controller takes part in its bus. -/
def canOn (s : State) (n : Nat) : Bool := s.awake && s.rb (cnOff n 0) 0 && decide ((s.can n).st ≠ 2)

/-- A unit of a packet talker becomes a record (R102, R107): `full` counts what became one. -/
def packetRecord (t : Nat) (cap : Cap) (fmt : Nat) (h5 : Word) (pay : List Byte) (ctr : Nat) (s : State) : State :=
  let q := s.seqOf t
  let h := [mkH0 fmt cap.prio false false false pay.length, mkH1 t q, w32 cap.dt, w32 (cap.dt / 0x100000000), cap.h4, h5]
  match addRecord h pay { hits := cap.hits } s with
  | (_, .full) => abandonFull t 0 s
  | (s1, _) => count ctr 1 (s1.setSeq t (q + 1))

/-- The early header of a packet talker's unit (R108). -/
def packetEarly (t : Nat) (cap : Cap) (fmt : Nat) (h5 : Word) (head : List Byte) (keyLen ctr : Nat) (s : State) : State :=
  let h := [mkH0 fmt cap.prio false false false 0, mkH1 t (s.seqOf t), w32 cap.dt, w32 (cap.dt / 0x100000000), cap.h4, h5]
  match earlyBegin h head cap.hits keyLen false s with
  | (s1, a, .recorded) => count ctr 1 { s1 with early := mapIns s1.early t a }
  | (s1, _, .refused) => count ctr 1 { s1 with early := mapIns s1.early t none }
  | (s1, _, .full) => abandonFull t 0 { s1 with early := mapIns s1.early t none }

/-- The unit of a packet talker with an early header ends: well with its payload, or badly (R109). -/
def packetEnd (t : Nat) (pay : Option (List Byte)) (s : State) : State :=
  match mapFind s.early t with
  | none => s
  | some x =>
    let s1 := { s with early := mapDel s.early t }
    match x, pay with
    | none, _ => s1
    | some a, none => earlyBad a false s1
    | some a, some p =>
      match earlyEnd a none p s1 with
      | (s2, true) => s2
      | (s2, false) => abandonFull t 0 s2

/-- The internal egress point whose current frame loops into a port, by talker ID, and equals a given one (R193, R287). -/
def loopFrame (s : State) (t : Nat) (o : Output → Bool) : Option (Nat × Cur) :=
  [74, 75].findSome? (fun ep =>
    match (s.eg ep).cur with
    | some c => if loopPort s (ep + 52) = t ∧ (c.frame.map o).getD false then some (ep, c) else none
    | none => none)

/-- A protocol exception (R283). -/
def protoExc (n : Nat) (s : State) : State := raise (cnOff n 0x1C) 0x20 (count (ctCn n 1) 1 s)

/-- REC after a frame has been received well, as ISO 11898-1 gives it (R286): one less, or from above 127 a free value from
119 to 127. -/
def recAfter (n : Nat) (s : State) : State :=
  let c := s.can n
  if c.rcv = 0 then s
  else if c.rcv ≤ 127 then canCounts n c.tec (c.rcv - 1) s
  else
    let (k, s1) := s.fresh
    canCounts n c.tec (119 + (Config.freeWord k).toNat % 9) s1

/-- The record of an accepted frame (R126). -/
def canRecord (n kind : Nat) (ty : Word) (pay : List Byte) (age : Nat) (s : State) : State :=
  let t := 0x30 + n
  if (mapFind s.early t).isSome then packetEnd t (some pay) s
  else packetRecord t (captureFine s t age (96 + n)) (canFmt kind) ty pay (ctCn n 0) s

/-- A frame is accepted at the sixth end-of-frame bit (R126, R282, R283, R287). -/
def canReceive (n kind : Nat) (ide : Bool) (id dlc : Nat) (sec : Bool) (vcid sdt : Byte) (af : Word) (data : List Byte)
    (own : Bool) (age : Nat) (s : State) : State :=
  let ty := canType kind ide id sec vcid sdt
  let pay := canPay kind dlc af data
  let drop := fun (s : State) => { s with early := mapDel s.early (0x30 + n) }
  if canOn s n = false then s
  else if (s.can n).oos then
    match loopFrame s (0x30 + n) (fun o => match o with
      | .canFrame _ k y d _ _ => decide (k = kind ∧ y = ty ∧ d = pay)
      | _ => false), own with
    | some (ep, c), true =>
      let s1 := delivered c.lq c.ref (setCur ep none s)
      if canAccept s n kind ide id age then canRecord n kind ty pay age s1 else count (ctCn n 1) 1 s1
    | _, _ => s
  else if own then s
  else if canEnabled s n kind = false then
    if (mapFind s.early (0x30 + n)).isSome then drop s else protoExc n s
  else
    let s1 := recAfter n s
    if canAccept s1 n kind ide id age = false then count (ctCn n 1) 1 (packetEnd (0x30 + n) none s1)
    else if kind = 3 ∧ 2044 < data.length then
      raise (cnOff n 0x1C) 0x40 (count (ctCn n 2) 1 (packetEnd (0x30 + n) none s1))
    else canRecord n kind ty pay age s1

/-- The header span of a CAN frame ends (R108, R283): the early header of a cut-through talker, out of service that of a frame in the
internal loop (R287). -/
def canSpan (n kind : Nat) (ide : Bool) (id len : Nat) (sec : Bool) (vcid sdt : Byte) (age : Nat) (s : State) : State :=
  let t := 0x30 + n
  let ty := canType kind ide id sec vcid sdt
  let looped := (loopFrame s t (fun o => match o with
    | .canFrame _ k y _ _ _ => decide (k = kind ∧ y = ty)
    | _ => false)).isSome
  if canOn s n = false ∨ ((s.can n).oos ∧ looped = false) ∨ s.rb (cnOff n 0) 7 = false ∨ (mapFind s.early t).isSome then s
  else if canEnabled s n kind = false then protoExc n { s with early := mapIns s.early t none }
  else if canAccept s n kind ide id age = false ∨ (kind = 3 ∧ 2044 < len) then s
  else
    let key := if kind = 1 then 1 else if kind = 3 then len + 4 else len
    packetEarly t (captureFine s t age (96 + n)) (canFmt kind) ty [] key (ctCn n 0) s

/-- The frame that a controller's current sentence makes now (R284, R285): its record is read, from word n on, and checked. -/
def canBuild (n : Nat) (c : Cur) (from_ : Nat) (s : State) : State × CheckOut × Option Output :=
  let (s1, k) := checkFrom 0 c.lq c.ref.addr from_ true s
  let fr := canFrameOf n (s1.reg (cnOff n 0)) (s1.reg (cnOff n 0x14)) (decide ((s1.can n).st = 1))
    (effFmt k.v.h k.v.pw) (effType k.v.h k.v.pw) (effContent k.v.h k.v.pay)
  (s1, k.out, fr)

/-- The frame is sent again from the store, or abandoned when its notch has lapsed (R231, R285). -/
def canRetry (n : Nat) (s : State) : State :=
  let ep := 48 + n
  match (s.eg ep).cur with
  | none => s
  | some c =>
    let s1 : Option (State × Bool × Bool) :=
      if canNotch s ep c.bob then
        (match rewindBob c.bob s with
          | (s1, .ok) => let (s2, _, ok0, ok1) := popRef ep c.bob s1
                         some (s2, ok0, ok1)
          | (_, _) => none)
      else some (s, true, true)
    match s1 with
    | none => canAbandon n s
    | some (s2, ok0, ok1) =>
      let ended := fun (s : State) => serviceBoundary ep (canRelease ep c.bob (setCur ep none s))
      if !(ok0 && ok1) then ended (poisonRef c.lq c.ref ok0 ok1 s2)
      else if c.ref.cut && !((s2.pin c.ref.addr).map (·.complete)).getD true then s2
      else
        match canBuild n c 0 s2 with
        | (s3, .good, some f) => emit f (setCur ep (some { c with frame := some f }) s3)
        | (s3, .good, none) => ended (formatMismatch c.lq c.ref s3)
        | (s3, o, _) => ended (dropRef c.ref.addr (abortCount c.lq o c.ref.talker s3))

/-- A transmission lost arbitration (R285). -/
def canArb (n : Nat) (s : State) : State :=
  match (s.eg (48 + n)).cur with
  | none => s
  | some _ =>
    if canOn s n = false then s
    else
      let s1 := count (ctCn n 4) 1 s
      if s.rb (cnOff n 0x14) 8 then canAbandon n s1 else canRetry n s1

/-- A frame completes with acknowledgement (R285, R302). -/
def canSent (n : Nat) (s : State) : State :=
  let ep := 48 + n
  match (s.eg ep).cur with
  | none => s
  | some c =>
    if canOn s n = false then s
    else
      let fin := fun (s : State) =>
        let s1 := delivered c.lq c.ref (canRelease ep c.bob (setCur ep none (count (ctCn n 3) 1 s)))
        serviceBoundary ep (canCounts n ((s1.can n).tec - 1) (s1.can n).rcv s1)
      if c.frame.isSome then fin s
      else
        match s.pin c.ref.addr with
        | some p =>
          if p.complete = false then s
          else
            match canBuild n c 6 s with
            | (s1, .good, some f) => fin (emit f s1)
            | (s1, o, _) => canDestroy n (if o = .good then .mismatch else o) s1
        | none => canDestroy n .mismatch s

/-- TEC and REC after an error or overload frame, as ISO 11898-1 steps them (R280, R286). An error raises a transmitter's TEC by 8 and
a receiver's REC by 1; a further step of 8 is taken in a flag; in the standard's exceptions a transmitter's TEC stays:
an acknowledgement error of an error passive node, and a stuff error in arbitration. -/
def errSteps (c : Can) (kind : Nat) (tx flag except : Bool) : Nat × Nat :=
  let first := if kind = 0 then 0 else if tx then (if except ∧ ((kind = 5 ∧ c.st = 1) ∨ kind = 2) then 0 else 8) else 1
  let more := if flag then 8 else 0
  if tx then (c.tec + first + more, c.rcv) else (c.tec, min 255 (c.rcv + first + more))

/-- The controller detects an error (R286): kind 0 is an overload frame. -/
def canErr (n kind : Nat) (tx flag except : Bool) (s : State) : State :=
  if canOn s n = false then s
  else
    let s0 := if kind = 0 then count (ctCn n 13) 1 s
      else (count (ctCn n (7 + kind)) 1 s).setCan n { s.can n with lastErr := kind }
    let s1 := if kind ≠ 0 ∧ tx = false then packetEnd (0x30 + n) none s0 else s0
    let hit := tx && decide (kind ≠ 0) && (s1.eg (48 + n)).cur.isSome
    let s2 := if hit then count (ctCn n 5) 1 s1 else s1
    let k := errSteps (s2.can n) kind tx flag except
    let s3 := canCounts n k.1 k.2 s2
    match (s3.eg (48 + n)).cur with
    | none => s3
    | some c =>
      if hit = false then s3
      else
        let t := c.tries + 1
        let s4 := setCur (48 + n) (some { c with tries := t }) s3
        let r := s4.rf (cnOff n 0x14) 0 8
        if s4.rb (cnOff n 0x14) 8 ∨ (r ≠ 0 ∧ r < t) then canAbandon n s4 else canRetry n s4

/-- A write of CN_CTRL (R286). -/
def wrCnCtrl (n : Nat) (v : Word) (s : State) : State :=
  let s1 := s.setReg (cnOff n 0) (v &&& 0x3BF#32)
  let c := s1.can n
  if c.st = 2 ∧ (bit v 6 ∨ bit v 5) then s1.setCan n { c with recovering := true } else s1

/-- The recovery sequence has been counted (R286). -/
def canRecovered (n : Nat) (s : State) : State :=
  let c := s.can n
  if s.awake && s.rb (cnOff n 0) 0 && decide (c.st = 2) && c.recovering then
    raise (cnOff n 0x1C) 8 (s.setCan n { c with st := 0, tec := 0, rcv := 0, recovering := false })
  else s

/-- A controller goes out of service (R287). -/
def canOut (n : Nat) (s : State) : State := serviceBoundary (48 + n) (s.setCan n { s.can n with oosPend := true })
/-- A controller is returned to service (R287). -/
def canBack (n : Nat) (s : State) : State := s.setCan n { s.can n with oos := false, oosPend := false }

end Sys2Proof.Machine
end

