-- ==== Sys2Proof/Machine/Ether.lean ====
section
/-!
DEFINITION. 10BASE-T1S ports and Ethernet uplinks (R127 to R131, R288 to R301): frames received and sent, streams,
datagrams, bundles and transmit stamps.
-/
namespace Sys2Proof.Machine

/-! ## Frames -/

/-- The EtherType after any VLAN tag, its position, and the VLAN tag (R52). -/
def etherTag (b : List Byte) : Option Nat := if beNat ((b.drop 12).take 2) = 0x8100 then some (beNat ((b.drop 14).take 2)) else none
/-- Where the data of a frame begin. -/
def etherData (b : List Byte) : Nat := if (etherTag b).isSome then 18 else 14
/-- The EtherType after any VLAN tag. -/
def etherType (b : List Byte) : Nat := beNat ((b.drop (etherData b - 2)).take 2)
/-- The type code of an Ethernet frame (R52). -/
def etherH5 (b : List Byte) : Word :=
  match etherTag b with
  | some v => w32 (0x80000000 + v / 0x2000 * 0x10000000 + v % 0x1000 * 0x10000 + etherType b)
  | none => w32 (etherType b)

/-- A MAC accepts a destination (R290, R291): its own address, broadcast, multicast, or any with PROMISC. -/
def macAccept (own dest : List Byte) (promisc : Bool) : Bool :=
  promisc || nbit (byteAt dest 0).toNat 0 || decide (dest.take 6 = own)

/-! ## 10BASE-T1S -/

/-- PLCA is configured (R289): PLCA_EN and a NODE_ID other than 255. -/
def plcaOn (s : State) (n : Nat) : Bool := s.rb (tsOff n 0) 1 && decide (s.rf (tsOff n 0x0C) 0 8 ≠ 255)
/-- PLCA is in use (R289). -/
def plcaActive (s : State) (n : Nat) : Bool := plcaOn s n && (decide (s.rf (tsOff n 0x0C) 0 8 = 0) || !(s.ts n).lost)
/-- A port takes part in its medium. -/
def tsOn (s : State) (n : Nat) : Bool := s.awake && s.rb (tsOff n 0) 0
/-- A port's own address. -/
def tsMac (s : State) (n : Nat) : List Byte := macBytes (s.reg (tsOff n 4)) (s.reg (tsOff n 8))

/-- The capture of a 10BASE-T1S frame (R89). -/
def tsCapture (n age : Nat) (s : State) : Cap := captureTk s (0x40 + n) age 25 false

/-- The record of a frame without its FCS, whose early header may have been given (R127). -/
def tsRecord (n : Nat) (b : List Byte) (age : Nat) (s : State) : State :=
  let t := 0x40 + n
  if (mapFind s.early t).isSome then packetEnd t (some b) s
  else packetRecord t (tsCapture n age s) 0x20 (etherH5 b) b (ctTs n 0) s

/-- A frame has been received, from the destination address through the FCS (R127, R290). -/
def tsReceive (n : Nat) (bytes : List Byte) (fcsOk own : Bool) (symbols age : Nat) (s0 : State) : State :=
  let b := bytes.take (bytes.length - 4)
  let bad := fun (s : State) => packetEnd (0x40 + n) none s
  let s := whenDo (decide (symbols ≠ 0)) (fun s => raise (tsOff n 0x18) 0x10 (count (ctTs n 10) symbols s)) s0
  if tsOn s0 n = false then s0
  else if (s.ts n).oos then
    match loopFrame s (0x40 + n) (fun o => match o with
      | .ether _ f => decide (f = bytes)
      | _ => false), own with
    | some (ep, c), true =>
      let s1 := delivered c.lq c.ref (setCur ep none s)
      if macAccept (tsMac s n) b (s.rb (tsOff n 0) 2) then tsRecord n b age s1 else count (ctTs n 4) 1 s1
    | _, _ => s
  else if own then s
  else if bytes.length < 64 then bad (count (ctTs n 2) 1 s)
  else if 1522 < bytes.length then bad (count (ctTs n 3) 1 s)
  else if fcsOk = false then bad (raise (tsOff n 0x18) 0x10 (count (ctTs n 1) 1 s))
  else if macAccept (tsMac s n) b (s.rb (tsOff n 0) 2) = false then bad (count (ctTs n 4) 1 s)
  else tsRecord n b age s

/-- The header span of a frame ends (R31, R108, R290), out of service that of a frame in the internal loop. -/
def tsSpan (n : Nat) (head : List Byte) (age : Nat) (s : State) : State :=
  let t := 0x40 + n
  let looped := (loopFrame s t (fun o => match o with
    | .ether _ f => decide (f.take head.length = head)
    | _ => false)).isSome
  if tsOn s n && (!(s.ts n).oos || looped) && s.rb (tsOff n 0) 3 && (mapFind s.early t).isNone &&
      macAccept (tsMac s n) head (s.rb (tsOff n 0) 2) then
    packetEarly t (tsCapture n age s) 0x20 (etherH5 head) head 0 (ctTs n 0) s
  else s

/-- A cut-through frame of a record at its end (R109, R215, R216): the rest of the record is read and checked; what the frame carries,
and the outcome. -/
def cutFrame (k a : Nat) (s : State) : State × List Byte × CheckOut :=
  if ((s.pin a).map (·.bad)).getD false then (s, cutBytes s a, .poison)
  else
    let (s1, x) := checkFrom 0 k a 6 true s
    (s1, x.v.pay, x.out)

/-- A frame completes on the medium (R216, R289, R290), or the jabber timer cuts it, and it is not sent again (R302). -/
def tsSent (n : Nat) (jabber : Bool) (s : State) : State :=
  let ep := 64 + n
  match (s.eg ep).cur with
  | none => s
  | some c =>
    if tsOn s n = false ∨ c.backoff then s
    else
      let fin := fun (s : State) => serviceBoundary ep (delivered c.lq c.ref (setCur ep none (count (ctTs n 5) 1 s)))
      if jabber then
        serviceBoundary ep (dropRef c.ref.addr (setCur ep none (raise (tsOff n 0x18) 0x20 (count (ctTs n 11) 1 s))))
      else if c.frame.isSome then fin s
      else if ((s.pin c.ref.addr).map (·.complete)).getD true = false then s
      else
        let (s1, pay, out) := cutFrame c.lq c.ref.addr s
        if out = .good then fin (emit (.ether n (macFrame pay false)) s1)
        else
          let s2 := emit (.ether n (macFrame pay true)) (count (ctTs n 6) 1 (abortCount c.lq out c.ref.talker s1))
          serviceBoundary ep (dropRef c.ref.addr (setCur ep none s2))

/-- A collision in CSMA/CD (R289). -/
def tsCollide (n : Nat) (s : State) : State :=
  let ep := 64 + n
  match (s.eg ep).cur with
  | none => s
  | some c =>
    if tsOn s n = false ∨ plcaActive s n ∨ c.backoff then s
    else
      let s1 := raise (tsOff n 0x18) 4 (count (ctTs n 7) 1 s)
      if 16 ≤ c.tries + 1 then
        serviceBoundary ep (dropRef c.ref.addr (setCur ep none (raise (tsOff n 0x18) 8 (count (ctTs n 8) 1 s1))))
      else setCur ep (some { c with tries := c.tries + 1, backoff := true }) s1

/-- The backoff ends and the frame is sent again (R289). -/
def tsBackoffEnd (n : Nat) (s : State) : State :=
  let ep := 64 + n
  match (s.eg ep).cur with
  | none => s
  | some c =>
    if tsOn s n && c.backoff then
      let s1 := setCur ep (some { c with backoff := false }) s
      match c.frame with
      | some f => emit f s1
      | none => s1
    else s

/-- No BEACON for the standard time (R289). -/
def tsPlcaLost (n : Nat) (s : State) : State :=
  if tsOn s n && plcaOn s n && decide (s.rf (tsOff n 0x0C) 0 8 ≠ 0) && !(s.ts n).lost then
    raise (tsOff n 0x18) 1 (count (ctTs n 9) 1 (s.setTs n { s.ts n with lost := true, beacon := false }))
  else s
/-- A BEACON returns (R289). -/
def tsPlcaBack (n : Nat) (s : State) : State :=
  if tsOn s n && plcaOn s n && decide (s.rf (tsOff n 0x0C) 0 8 ≠ 0) && !(s.ts n).beacon then
    raise (tsOff n 0x18) 2 (s.setTs n { s.ts n with lost := false, beacon := true })
  else s

/-- A T1S port goes out of service (R290). -/
def tsOut (n : Nat) (s : State) : State := serviceBoundary (64 + n) (s.setTs n { s.ts n with oosPend := true })
/-- A T1S port is returned to service (R290). -/
def tsBack (n : Nat) (s : State) : State := s.setTs n { s.ts n with oos := false, oosPend := false }

/-! ## Uplinks: reception -/

/-- Stream n of the sixteen: its uplink and a register. -/
def streamReg (s : State) (n r : Nat) : Word := s.reg (stOff n r)

/-- The quantum of an uplink's captures in tenths of a nanosecond (R33, R89). -/
def euQuantum (s : State) (u : Nat) : Nat :=
  match s.rf (euOff u 0) 1 2 with
  | 0 => 64
  | 1 => 64
  | 2 => 32
  | _ => 80
/-- A capture's stamp with a correction in nanoseconds added (R300, R301). -/
def Cap.correct (c : Cap) (cor : Int) : Cap := { c with dt := unsigned 64 (Int.ofNat c.dt + cor) }

/-- The capture of a received frame for a stream (R300). -/
def streamCapture (n age : Nat) (s : State) : Cap :=
  (captureTk s (0x44 + n) age (euQuantum s (n / 8)) false).correct (signed 16 (s.rf (euOff (n / 8) 0x14) 0 16))

/-- An IPv4 packet's faults (R293): version, IHL, fragment, header checksum, UDP checksum. -/
def ipBad (p : List Byte) : Bool :=
  let v := (byteAt p 0).toNat
  let tl := beNat ((p.drop 2).take 2)
  let frag := beNat ((p.drop 6).take 2)
  let udp := (p.take tl).drop 20
  let ul := beNat ((udp.drop 4).take 2)
  let pseudo := (p.drop 12).take 8 ++ [0x00#8, 0x11#8] ++ natBytesBE 2 ul
  decide (v ≠ 0x45) || decide (frag % 0x4000 ≠ 0) || decide (inetCk (p.take 20) ≠ 0) ||
    (decide (byteAt p 9 = 0x11#8) && decide (beNat ((udp.drop 6).take 2) ≠ 0) &&
      decide (inetCk (pseudo ++ udp.take ul) ≠ 0))

/-- A stream matches a UDP packet (R293). -/
def udpMatch (s : State) (n : Nat) (p : List Byte) : Bool :=
  let dip := beNat ((p.drop 16).take 4)
  let own := (s.reg (euOff (n / 8) 0x10)).toNat
  let sd := (streamReg s n 0x10).toNat
  decide (byteAt p 9 = 0x11#8) && decide (beNat ((p.drop 22).take 2) = field (streamReg s n 4) 0 16) &&
    decide (dip = own ∨ (sd / 0x10000000 = 14 ∧ dip = sd))

/-- A raw stream matches a frame (R293). -/
def rawMatch (s : State) (n : Nat) (b : List Byte) : Bool :=
  let c := streamReg s n 0
  decide (field c 0 2 = 1) && decide (etherType b = field (streamReg s n 4) 0 16) &&
    (!bit c 9 || decide ((etherTag b).map (· % 0x1000) = some (field (streamReg s n 0x0C) 16 12)))

/-- The stream that takes a frame, in index order (R293): none for no stream, some none for a discarded IPv4 packet. -/
def streamOf (s : State) (u : Nat) (b : List Byte) : List Nat → Option (Option Nat)
  | [] => none
  | i :: t =>
    let n := 8 * u + i
    let kind := field (streamReg s n 0) 0 2
    let p := b.drop (etherData b)
    if kind = 1 then (if rawMatch s n b then some (some n) else streamOf s u b t)
    else if kind = 0 ∨ etherType b ≠ 0x0800 then streamOf s u b t
    else if ipBad p then some none
    else if udpMatch s n p then some (some n)
    else streamOf s u b t

/-- The UDP payload of a frame. -/
def udpPay (b : List Byte) : List Byte :=
  let p := b.drop (etherData b)
  let udp := (p.take (beNat ((p.drop 2).take 2))).drop 20
  (udp.take (beNat ((udp.drop 4).take 2))).drop 8

/-- The settings of a datagram stream's parser for a datagram that began so many picoseconds ago (R294). -/
def streamIec (s : State) (n age : Nat) : IecCfg :=
  let u := s.tape.clk - psUnits age
  iecCfgOf (s.regAt (stOff n 0) u) (s.regAt (stOff n 0x18) u)

/-- A unit of a datagram ends with a status (R105, R129). -/
def streamUnit (n : Nat) (g : IecCfg) (cap : Cap) (i : Iec) (st : Nat) (s : State) : State :=
  let t := 0x44 + n
  if st = 6 ∨ (st ≠ 0 ∧ cap.malf = false) then countTalker t 0 1 1 s
  else
    let q := s.seqOf t
    let h := [mkH0 0x22 cap.prio false false false i.pay.length, mkH1 t q, w32 cap.dt, w32 (cap.dt / 0x100000000), cap.h4, iecH5 i]
    match addRecord h i.pay { status := st, hits := cap.hits, tagMark := decide (2 ≤ g.tag) } s with
    | (_, .full) => abandonFull t 0 s
    | (s1, _) => s1.setSeq t (q + 1)

/-- Where the splitting of a datagram stands: the datagram's own TAG blocks so far, whether the bytes still stand directly after the
token, and the unit in progress. -/
structure Split where
  tags : List Byte := []
  run : Bool := true
  cur : Option Iec := none

/-- The TAG blocks directly after the token are the datagram's own, each once it is closed (R129). -/
def Split.learn (x : Split) (i : Iec) : Split :=
  if x.run = false then x
  else if i.start.isSome then { x with run := false }
  else if i.ph = .tagAfter then { x with tags := i.pay }
  else x

/-- A byte that finds no unit (R114, R129). -/
def splitStart (n : Nat) (g : IecCfg) (cap : Cap) (b : Byte) (x : Split) (s : State) : Split × State :=
  if iecStarter b then
    match iecFirst g b with
    | .more i =>
      let i := if x.run then i else { i with pay := x.tags ++ i.pay }
      ({ x with cur := some i }.learn i, s)
    | .done i st _ => ({ x with run := false }, streamUnit n g cap i st s)
  else ({ x with run := false }, count (ctEu (n / 8) 10) 1 s)

/-- One byte of a datagram (R129). -/
def splitByte (n : Nat) (g : IecCfg) (cap : Cap) (a : Split × State) (b : Byte) : Split × State :=
  let (x, s) := a
  match x.cur with
  | none => splitStart n g cap b x s
  | some i =>
    match iecChar g i b with
    | .more j => ({ x with cur := some j }.learn j, s)
    | .done j st c =>
      let y : Split := { x with run := false, cur := none }
      let s1 := streamUnit n g cap j (max j.st st) s
      if c then (y, s1) else splitStart n g cap b y s1

/-- A datagram is split into records (R129, R130). -/
def datagramSplit (n : Nat) (cap : Cap) (age : Nat) (p : List Byte) (s : State) : State :=
  if p.take 6 ≠ [asc 'U', asc 'd', asc 'P', asc 'b', asc 'C', 0x00#8] then
    raise (euOff (n / 8) 0x18) 0x20 (count (ctEu (n / 8) 9) 1 s)
  else
    let g := streamIec s n age
    let (x, s1) := (p.drop 6).foldl (splitByte n g cap) ({}, s)
    match x.cur with
    | some i => streamUnit n g cap i 7 s1
    | none => s1

/-- A format code of R55. -/
def fmtDefined (f : Nat) : Bool :=
  decide ((1 ≤ f ∧ f ≤ 5) ∨ (0x10 ≤ f ∧ f ≤ 0x12) ∨ f = 0x18 ∨ (0x20 ≤ f ∧ f ≤ 0x22) ∨ f = 0x30 ∨ f = 0x38 ∨ f = 0x40)

/-- Entries of a bundle taken in order (R131, R299). -/
def bundleGo (n : Nat) (cap : Cap) : Nat → List Byte → State → State
  | 0, _, s => s
  | k + 1, p, s =>
    let u := n / 8
    let h0 := w32 (leNat (p.take 4))
    let l := field h0 0 16
    let size := 4 * (7 + payWordsOf l)
    if p.length < 4 ∨ fmtDefined (field h0 24 8) = false ∨ 2048 < l ∨ p.length < size then
      raise (euOff u 0x18) 0x20 (count (ctEu u 11) 1 s)
    else
      let t := 0x44 + n
      let s1 := packetRecord t cap (field h0 24 8) (w32 (leNat ((p.drop 20).take 4))) ((p.drop 24).take l) (ctEu u 12) s
      bundleGo n cap k (p.drop size) s1

/-- A bundle frame is split into records (R131, R299). -/
def bundleSplit (n : Nat) (cap : Cap) (p : List Byte) (s : State) : State :=
  if p.take 5 ≠ [0x51#8, 0x57#8, 0x4B#8, 0x42#8, 0x01#8] ∨ p.length < 24 ∨ byteAt p 5 = 0x00#8 then
    raise (euOff (n / 8) 0x18) 0x20 (count (ctEu (n / 8) 11) 1 s)
  else bundleGo n cap (byteAt p 5).toNat (p.drop 24) s

/-- The talkers of an uplink. -/
def euTalkers (u : Nat) : List Nat := (List.range 8).map (fun i => 0x44 + 8 * u + i)

/-- The unit with an early header of an uplink, ended badly (R109). -/
def euBad (u : Nat) (s : State) : State := forAll (euTalkers u) (fun t => packetEnd t none) s

/-- An uplink takes part in its link. -/
def euOn (s : State) (u : Nat) : Bool := s.awake && s.rb (euOff u 0) 0 && (s.up u).link

/-- A PAUSE frame of IEEE 802.3 Annex 31B, to its group address or the MAC's own. -/
def isPause (mac b : List Byte) : Bool :=
  decide ((b.take 6 = [0x01#8, 0x80#8, 0xC2#8, 0x00#8, 0x00#8, 0x01#8] ∨ b.take 6 = mac) ∧
    (b.drop 12).take 4 = [0x88#8, 0x08#8, 0x00#8, 0x01#8])

/-- The bit time of an uplink in picoseconds (R291). -/
def euBit (s : State) (u : Nat) : Nat :=
  match s.rf (euOff u 0) 1 2 with
  | 0 => 100
  | 1 => 200
  | 2 => 400
  | _ => 1000

/-- A PAUSE frame is honoured (R291): no frame starts for pause_time quanta of 512 bit times; a time of 0 ends the pause. -/
def euPause (u : Nat) (b : List Byte) (s : State) : State :=
  s.setUp u { s.up u with pauseAt := s.now, pauseEnd := s.now + beNat ((b.drop 16).take 2) * 512 * euBit s u }

/-- A frame that starts at an elapsed instant would start in a pause. -/
def euPaused (s : State) (u t : Nat) : Bool := decide ((s.up u).pauseAt ≤ t ∧ t < (s.up u).pauseEnd)

/-- A frame has been received (R128 to R131, R291, R293): its bytes without the FCS. -/
def euReceive (u : Nat) (b : List Byte) (fcsOk : Bool) (pcs age : Nat) (s0 : State) : State :=
  let len := b.length + 4
  let s := whenDo (decide (pcs ≠ 0)) (fun s => raise (euOff u 0x18) 4 (count (ctEu u 13) pcs s)) s0
  let mac := macBytes (s.reg (euOff u 8)) (s.reg (euOff u 0x0C))
  if euOn s0 u = false then s0
  else if len < 64 then euBad u (count (ctEu u 3) 1 s)
  else if 9022 < len then euBad u (count (ctEu u 4) 1 s)
  else if fcsOk = false then euBad u (raise (euOff u 0x18) 4 (count (ctEu u 2) 1 s))
  else if macAccept mac b (s.rb (euOff u 0) 5) = false then euBad u (count (ctEu u 23) 1 s)
  else
    let s1 := count (ctEu u 1) len (count (ctEu u 0) 1 s)
    let s2 := whenDo (isPause mac b) (count (ctEu u 5) 1) s1
    if isPause mac b && s.rb (euOff u 0) 4 then euPause u b s2
    else
      match streamOf s2 u b (List.range 8) with
      | none => euBad u (count (ctEu u 6) 1 s2)
      | some none => euBad u (raise (euOff u 0x18) 0x20 (count (ctEu u 7) 1 s2))
      | some (some n) =>
        let cap := streamCapture n age s2
        match field (streamReg s2 n 0) 0 2 with
        | 1 =>
          if 2048 < b.length then euBad u (count (ctEu u 8) 1 s2)
          else if (mapFind s2.early (0x44 + n)).isSome then packetEnd (0x44 + n) (some b) s2
          else
            let t := 0x44 + n
            let q := s2.seqOf t
            let h := [mkH0 0x21 cap.prio false false false b.length, mkH1 t q, w32 cap.dt, w32 (cap.dt / 0x100000000), cap.h4, etherH5 b]
            match addRecord h b { hits := cap.hits } s2 with
            | (_, .full) => abandonFull t 0 s2
            | (s3, _) => s3.setSeq t (q + 1)
        | 2 => datagramSplit n cap age (udpPay b) s2
        | _ => bundleSplit n cap (udpPay b) s2

/-- The early header of a raw stream's frame (R31, R108). -/
def euSpan (n : Nat) (head : List Byte) (age : Nat) (s : State) : State :=
  let u := n / 8
  let t := 0x44 + n
  let mac := macBytes (s.reg (euOff u 8)) (s.reg (euOff u 0x0C))
  if euOn s u && (mapFind s.early t).isNone && bit (streamReg s n 0) 2 && rawMatch s n head &&
      macAccept mac head (s.rb (euOff u 0) 5) && decide (streamOf s u head (List.range 8) = some (some n)) then
    let cap := streamCapture n age s
    let h := [mkH0 0x21 cap.prio false false false 0, mkH1 t (s.seqOf t), w32 cap.dt, w32 (cap.dt / 0x100000000), cap.h4, etherH5 head]
    match earlyBegin h head cap.hits 0 false s with
    | (s1, a, .full) => abandonFull t 0 { s1 with early := mapIns s1.early t a }
    | (s1, a, _) => { s1 with early := mapIns s1.early t a }
  else s

/-! ## Uplinks: links and transmission -/

/-- An uplink's link is lost (R292). -/
def euDown (u : Nat) (s : State) : State :=
  let x := s.up u
  if x.link = false then s
  else
    let s1 := s.setUp u { x with link := false, anDone := false, pauseAt := 0, pauseEnd := 0, closed := [] }
    let s2 := forAll (x.closed.flatMap (·.sents)) (fun e => dropRef e.ref.addr) s1
    raise (euOff u 0x18) 2 (count (ctEu u 22) 1 (count (ctEu u 19) x.closed.length s2))

/-- An uplink's link is lost, with or without a remote fault received (R292, R303). -/
def euLost (u : Nat) (remote : Bool) (s : State) : State :=
  let s1 := euDown u s
  s1.setUp u { s1.up u with remote := remote }

/-- An uplink's link comes up (R291). -/
def euUp (u : Nat) (an remote : Bool) (s : State) : State :=
  let x := s.up u
  let c := s.reg (euOff u 0)
  if s.awake && bit c 0 && !x.link then
    raise (euOff u 0x18) 1 (s.setUp u { x with link := true, anDone := an && bit c 3 && decide (field c 1 2 = 3), remote := remote })
  else s

/-- A write of EU_CTRL (R291). -/
def wrEuCtrl (u : Nat) (v : Word) (s : State) : State :=
  let was := s.rf (euOff u 0) 1 2
  let s1 := s.setReg (euOff u 0) (v &&& 0x3FFF3F#32)
  if field v 1 2 ≠ was then euDown u s1 else s1

/-- CLOSE_US has passed since the first sentence of an open frame (R295). -/
def closeTimer (n : Nat) (s : State) : State := if s.awake then closeFrame n s else s

/-- A transmit stamp, by the setting that the frame opened under (R294, R301). -/
def txStamp (u : Nat) (cfg : Word) (r : Ref) (age : Nat) (s : State) : State :=
  if bit cfg 8 then
    let c := (capture s age (euQuantum s u) 0 false).correct (signed 16 (s.rf (euOff u 0x14) 16 16))
    let x := s.up u
    if 16 ≤ x.txts.length then raise (euOff u 0x18) 0x10 (count (ctEu u 21) 1 s)
    else
      raise (euOff u 0x18) 8 (count (ctEu u 20) 1
        (s.setUp u { x with txts := x.txts ++ [{ h1 := mkH1 r.talker r.seq, dt := c.dt }] }))
  else s

/-- The frames of an uplink whose closing waited for room close while there is some (R295). -/
def closeDue (u : Nat) (s : State) : State :=
  forAll (mapKeys (mapFilter (fun _ f => f.due) (s.up u).opens)) closeFrame s

/-- The first closed frame has been sent (R214, R216, R291, R295, R298, R301); none starts in a pause. -/
def euSent (u age : Nat) (s : State) : State :=
  let x := s.up u
  match x.closed with
  | [] => s
  | f :: t =>
    let a := (f.sents.head?.map (·.ref.addr)).getD 0
    let cfg := wordAt f.cfg 0
    if euOn s u = false ∨ euPaused s u (s.now - age) ∨ (f.cut ∧ ((s.pin a).map (·.complete)).getD true = false) then s
    else
      let (s1, bytes, out) : State × List Byte × CheckOut :=
        if f.cut then
          let (s1, pay, o) := cutFrame ((f.sents.head?.map (·.lq)).getD 0) a s
          (s1, macFrame pay (decide (o ≠ .good)), o)
        else (s, f.bytes, .good)
      let kind := field cfg 0 2
      let y := s1.up u
      let s2 := emit (.ether (4 + u) bytes) (s1.setUp u { y with
        closed := t
        bseq := if kind = 3 then mapSet (dflt 0) y.bseq f.stream ((mapGet (dflt 0) y.bseq f.stream + 1) % 0x100000000) else y.bseq })
      let s3 := closeDue u (match f.sents.head? with
        | some e => txStamp u cfg e.ref age s2
        | none => s2)
      if out = .good then
        let s4 := count (ctEu u 15) bytes.length (count (ctEu u 14) 1 s3)
        let s5 := whenDo (decide (kind = 2)) (count (ctEu u 16) 1) (whenDo (decide (kind = 3)) (count (ctEu u 17) 1) s4)
        forAll f.sents (fun e => delivered e.lq e.ref) s5
      else
        forAll f.sents (fun e s => dropRef e.ref.addr (abortCount e.lq out e.ref.talker s)) (count (ctEu u 18) 1 s3)

/-- A read of EU_TXTS_ID (R301): the state and the value. -/
def txtsPop_ (a u : Nat) (s : State) : State × Word :=
  let x := s.up u
  match x.txts with
  | [] => (s, 0#32)
  | e :: t =>
    let s1 := s.setUp u { x with txts := t }
    -- the talker stands in the low bits of EU_TXTS_ID
    let v := w32 (field e.h1 20 12 + field e.h1 0 20 * 0x1000)
    (setLatch a (euOff u 0x28) (w32 e.dt) (setLatch a (euOff u 0x2C) (w32 (e.dt / 0x100000000)) s1), v)

/-- The header span of a packet frame ends (R108): CAN, 10BASE-T1S or a raw stream, by talker. -/
def headerSpan (t kind : Nat) (ide : Bool) (id len : Nat) (sec : Bool) (vcid sdt : Byte) (head : List Byte) (age : Nat)
    (s : State) : State :=
  if 0x30 ≤ t ∧ t < 0x40 then canSpan (t - 0x30) kind ide id len sec vcid sdt age s
  else if 0x40 ≤ t ∧ t < 0x44 then tsSpan (t - 0x40) head age s
  else if 0x44 ≤ t ∧ t < 0x54 then euSpan (t - 0x44) head age s
  else s

end Sys2Proof.Machine
end

