-- ==== Sys2Proof/Machine/Engine.lean ====
section
/-!
DEFINITION. Engines, seam and checkpoints (R158 to R161, R325 to R347): decision entries, the vote, odd engines and their
resynchronisation, the release of a decision, checkpoint cuts and commits, and the start of a restart.
-/
namespace Sys2Proof.Machine

/-! ## Engines and mergers -/

/-- The mergers in use (R19, R20). -/
def mergers (s : State) : List Nat := if s.split then [0, 1, 2] else [0]
/-- The engines that a merger feeds. -/
def mrgEngs (s : State) (m : Nat) : List Nat := if s.split then [m] else [0, 1, 2]
/-- The merger that feeds an engine. -/
def engMrg (s : State) (e : Nat) : Nat := if s.split then e else 0
/-- The engine is good: its entries take part in the vote. -/
def engGood (s : State) (e : Nat) : Bool := decide ((s.eng e).st = 0)
/-- The good engines of a merger. -/
def goodEngs (s : State) (m : Nat) : List Nat := (mrgEngs s m).filter (engGood s)
/-- The engine restarts (R344). -/
def restarting (s : State) (e : Nat) : Bool := nbit s.seam.restarting e
/-- An engine changed. -/
def modEng (e : Nat) (f : Eng → Eng) (s : State) : State := s.setEng e (f (s.eng e))
/-- The seam block changed. -/
def modSeam (f : Seam → Seam) (s : State) : State := { s with seam := f s.seam }
/-- A seam cause (R356). -/
def smCause (b : Nat) : State → State := raise 0x8020 (2 ^ b)
/-- The consistency block changed. -/
def modCons (f : Cons → Cons) (s : State) : State := { s with cons := f s.cons }

/-- A persistent counter raised (R457). -/
def pcount (k : Nat) (s : State) : State :=
  { s with pw := { s.pw with pcnt := mapSet (dflt 0#64) s.pw.pcnt k (mapGet (dflt 0#64) s.pw.pcnt k + 1#64) } }

/-- One of an engine's banks (R412). -/
def engBank (g : Eng) (b : Nat) : Bank := if b = 0 then g.bank0 else g.bank1
/-- The bank under which a merger's index is decided (R417). -/
def bankOf (s : State) (m idx : Nat) : Nat :=
  if mapGet (dflt 0) s.cons.swIdx m ≤ idx then s.cons.liveBank else 1 - s.cons.liveBank

/-- The index of the next header that a merger issues. -/
def nextIdx (s : State) (m : Nat) : Nat :=
  let g := s.mrg m
  match g.q.findSome? (fun e => match e with
    | .head _ _ i => some i
    | _ => none) with
  | some (some i) => i
  | _ => g.next

/-- Engines that receive what a merger issues: the good ones, and a target whose copy is complete (R337, R338). -/
def receivers (s : State) (m : Nat) : List Nat :=
  (mrgEngs s m).filter (fun e => engGood s e || (decide ((s.eng e).st = 2) && (s.eng e).copied))

/-- An item put into the input order of a merger's engines. -/
def giveItem (m : Nat) (it : EItem) (s : State) : State :=
  forAll (receivers s m) (modEng · (fun g => { g with inbox := g.inbox ++ [it] })) s

/-- The progress tokens at the head of a merger's order go to its engines (R161). -/
def mergeTokens (m : Nat) : Nat → State → State
  | 0, s => s
  | n + 1, s =>
    match (s.mrg m).q with
    | .token a w f _ :: t => mergeTokens m n (giveItem m (.token a w f) (s.setMrg m { s.mrg m with q := t }))
    | _ => s

/-- A SLOT_RESET entry empties a window slot, or a SEQ slot (R158, R163). -/
def slotReset (d : EngDyn) (w : Word) : EngDyn :=
  if bit w 10 then { d with seq := mapDel d.seq (field w 0 10) } else { d with win := mapDel d.win (field w 0 10) }

/-- An engine passes cuts, taking its snapshot (R342), and tokens of records that it has not parked. -/
def pullFront : Nat → Eng → Eng
  | 0, g => g
  | n + 1, g =>
    match g.inbox with
    | .cut :: t => pullFront n { g with inbox := t, snap := some (g.dyn, g.parked.map (·.hdr.idx)) }
    | .slots l :: t => pullFront n { g with inbox := t, dyn := l.foldl slotReset g.dyn }
    | .token a _ _ :: t => if g.parked.any (fun p => p.hdr.addr = a) then g else pullFront n { g with inbox := t }
    | _ => g
/-- An engine's input order up to its next work. -/
def pull (e : Nat) (s : State) : State := modEng e (fun g => pullFront g.inbox.length g) s

/-! ## Decisions (R136 to R161) -/

/-- The payload as an engine sees it: whole, or for an early header the words of the last token (R161). -/
def payView (s : State) (hd : Header) (words : Nat) (final : Bool) : PayView :=
  let p := pinOr s hd.addr
  let len := field (wordAt hd.h 0) 0 16
  let n := if hd.early then words else payWordsOf len
  let ws := (List.range n).map (fun i => s.word (posAddr s p.bob (p.pos + 6 + i)))
  let stored := field (laneData s p.bob p.pos) 0 16
  let m := if hd.early = false then len else if final && decide (payWordsOf stored = words) then stored else 4 * words
  { bytes := (wordsBytes (ws.map (·.setWidth 32))).take m,
    bad := (ws.flatMap (fun w => List.replicate 4 (!parityOk w))).take m, final := !hd.early || final }

/-- A decision of an engine, none where it parks (R136 to R157, R161). -/
def engDecide (s : State) (g : Eng) (hd : Header) (bank words : Nat) (final : Bool) : Option (Decision × EngDyn) :=
  decideRecord (domTalker s) (engBank g bank) g.dyn hd (cycNow s) (payView s hd words final)

/-! ## Agreement (R326, R327) -/

/-- Lane ORDER of an entry. -/
def laneOrder (x : DecEntry) : Nat × Word := (x.hdr.idx % 0x10000000000000000, wordAt x.hdr.h 1)
/-- Lane ROUTE. -/
def laneRoute (x : DecEntry) : BitVec 128 × List Nat × Nat := (x.dec.lset, mapKeys x.dec.mir, x.dec.cls)
/-- Lane HOLD. -/
def laneHold (x : DecEntry) : Option HoldSpec := x.dec.hold
/-- Lane XLATE. -/
def laneXlate (x : DecEntry) : Option Nat × Nat := (x.dec.tmpl, x.dec.rewrites.length)
/-- Lane EFFECT. -/
def laneEffect (x : DecEntry) : List (Nat × Nat) × List (Nat × Nat) × DropCause :=
  (x.dec.counts, x.dec.cells.map (fun c => (c.1, c.2.1)), x.dec.drop)
/-- F0 to F3, when the digest covers them. -/
def digestF (d : Decision) : List Word := if d.tmpl.isSome || !d.cells.isEmpty then d.f else []
/-- A rewrite in the digest (R327): byte offset, length and bytes. A field that starts or ends inside a byte has zeros beside it; a
RETAG, whose address characters follow from the record, gives its masked value, mask and N at offset 0. -/
def Rewrite.digest : Rewrite → List Byte
  | .retag v m n => natBytes 2 0 ++ natBytes 2 9 ++ wordBytes (v &&& m) ++ wordBytes m ++ natBytes 1 n
  | .bits off n be v =>
    let k := (off % 8 + n + 7) / 8
    natBytes 2 (off / 8) ++ natBytes 2 k ++ setPayField be (off % 8) v n (List.replicate k 0x00#8)
  | .bytes off bs => natBytes 2 off ++ natBytes 2 bs.length ++ bs
/-- A window slot in the digest: its index and new contents. -/
def winDigest (k : Nat) (w : WinSlot) : List Byte :=
  natBytes 2 k ++ natBytes 4 w.count ++ natBytes 4 (unsigned 32 w.mn) ++ natBytes 4 (unsigned 32 w.mx) ++
    natBytes 8 (unsigned 64 w.sum) ++ natBytes 1 (b2n w.c0.isSome) ++ natBytes 4 (w.c0.getD 0)
/-- The fields that the content digest covers, in its order (R327). -/
def digestBytes (d : Decision) : List Byte :=
  d.mir.flatMap (fun k => natBytes 1 k.2) ++ d.rewrites.flatMap Rewrite.digest ++ (digestF d).flatMap wordBytes ++
    d.winUpd.flatMap (fun k => winDigest k.1 k.2) ++
    d.seqUpd.flatMap (fun k => natBytes 2 k.1 ++ natBytes 2 k.2.talker ++ natBytes 4 k.2.seq) ++ natBytes 1 (b2n d.chkFail)
/-- Lane DIGEST: fixed check 0 over those fields, bound with H1 (R304, R306, R327). -/
def laneDigest (x : DecEntry) : Nat := fixedCheck 0 (some (wordAt x.hdr.h 1)) (digestBytes x.dec)
/-- Two entries of one H1 have the same lane DIGEST: the same bytes, or others of the same check. -/
def sameDigest (a b : DecEntry) : Bool :=
  decide (digestBytes a.dec = digestBytes b.dec) || decide (laneDigest a = laneDigest b)

/-- The first seam lane in which two entries differ. -/
def laneDiff (a b : DecEntry) : Option Nat :=
  if laneOrder a ≠ laneOrder b then some 0
  else if laneRoute a ≠ laneRoute b then some 1
  else if laneHold a ≠ laneHold b then some 2
  else if laneXlate a ≠ laneXlate b then some 3
  else if laneEffect a ≠ laneEffect b then some 4
  else if sameDigest a b = false then some 5
  else none
/-- Two entries agree (R326). -/
def agrees (a b : DecEntry) : Bool := (laneDiff a b).isNone

/-! ## Halt, restart (R344, R346) -/

/-- The device enters HALTED (R346); a pending stitch never takes effect (R419). -/
def halt (r : Nat) (s : State) : State :=
  if s.seam.dev = 3 then s
  else
    let s1 := modSeam (fun x => { x with dev := 3, restarting := 0 }) (s.setReg 0x8030 (w32 r))
    let s2 := pcount 10 (count (ctSm 12) 1 (smCause 8 s1))
    match s2.cons.stitch with
    | none => s2
    | some x =>
      let s3 := modCons (fun c => { c with stitch := none }) s2
      match x.cmd with
      | some i => doneCmd i 10 0#32 0#32 s3
      | none => s3

/-- Headers of an engine that are not released: in its input order, parked, or in its alignment buffer. -/
def engHeads (g : Eng) : List Header :=
  let all := g.inbox.filterMap (fun i => match i with
      | .head h _ => some h
      | _ => none) ++ g.parked.map (·.hdr) ++ g.align.map (·.hdr)
  all.filter (fun h => !(g.owed.any (fun r => r.hdr.idx = h.idx)) && (match g.join with
    | some j => decide (j ≤ h.idx)
    | none => true))

/-- The unreleased headers of a merger, in index order. -/
def unreleased (s : State) (m : Nat) : List Header :=
  let all := (goodEngs s m).flatMap (fun e => engHeads (s.eng e))
  all.foldl (fun l h => if l.any (fun k => k.idx = h.idx) then l else insBy (fun a b => decide (a.idx ≤ b.idx)) h l) []

/-- What the merger presents again of an unreleased header (R345): with an early header, the payload words that stand in the
store by now. -/
def represent (s : State) (h : Header) : List MEnt :=
  if h.early = false then [.head h.addr h (some h.idx)]
  else
    let p := pinOr s h.addr
    let done := p.complete && !p.bad
    let w := if done then payWordsOf (field (laneData s p.bob p.pos) 0 16) else p.words - 6
    [.head h.addr { h with avail := if p.complete then 0 else w, fin := false } (some h.idx), .token h.addr w p.complete s.edge]

/-- An engine without work in flight; a copy to it is abandoned, and leaves it fenced (R340). -/
def Eng.cleared (g : Eng) : Eng :=
  { g with st := if g.st = 2 then 1 else g.st, inbox := [], parked := [], align := [], owed := [], snap := none, join := none,
           copied := false }

/-- Releases that a majority made and that an engine will no longer vote on are counted (R355). -/
def dropOwed (e : Nat) (s : State) : State := count (ctSm 1) (s.eng e).owed.length s

/-- A restart discards what a merger's engines hold, and puts unreleased records back at the head of the merger's order with
their indices (R345). -/
def discard (m : Nat) (s : State) : State :=
  let back := (unreleased s m).flatMap (represent s)
  let s1 := s.setMrg m { s.mrg m with q := back ++ (s.mrg m).q }
  let s2 := forAll (mrgEngs s m) (fun e s => modEng e Eng.cleared (dropOwed e s)) s1
  admUpdate m { s2 with cuts := mapDel s2.cuts m }

/-- A checkpoint restart of a merger's engines begins (R344): cause 0 no majority, 1 duplex disagreement, 2 Split engine
fault. -/
def startRestart (cause m : Nat) (s : State) : State :=
  let s1 := (pcount 9 (count (ctSm 11) 1 (smCause 7 s))).setReg 0x8034 (w32 (cause + (if cause = 2 then m * 4 else 0)))
  let s2 := whenDo (decide (cause = 2)) (count (ctEng m 14) 1) s1
  if s.split = false ∧ ((mrgEngs s m).filter (fun e => decide ((s.eng e).st ≠ 3))).length ≤ 1 then halt 7 s2
  else if (mapFind s.ckpts m).isNone then halt 1 s2
  else
    let mask := (mrgEngs s m).foldl (fun a e => a + 2 ^ e) 0
    modSeam (fun x => { x with dev := if x.dev = 0 then 2 else x.dev, restarting := x.restarting ||| mask }) (discard m s2)

/-! ## Odd engines and resynchronisation (R336 to R339) -/

/-- The lowest-numbered good engine (R338, R343). -/
def lowestGood (s : State) : Option Nat := [0, 1, 2].find? (engGood s)

/-- A fenced engine becomes the target of a copy (R338). -/
def resyncStart (s : State) : State :=
  match [0, 1, 2].find? (fun e => decide ((s.eng e).st = 1)), lowestGood s with
  | some t, some d =>
    if s.split = false ∧ s.seam.restarting = 0 ∧ s.seam.dev ≠ 3 ∧ [0, 1, 2].all (fun e => decide ((s.eng e).st ≠ 2)) then
      count (ctEng t 7) 1 (count (ctEng d 8) 1 (modEng t (fun g => { g with st := 2, copied := false, join := none }) s))
    else s
  | _, _ => s

/-- An engine is fenced (R337). -/
def fence (e : Nat) (s : State) : State :=
  modEng e (fun g => { g.cleared with st := 1 }) (dropOwed e s)

/-- A copy fails (R339): the target is fenced again and copied afresh, or retired. -/
def resyncFail (e : Nat) (s : State) : State :=
  let n := (s.eng e).tries + 1
  let s1 := count (ctEng e 9) 1 (smCause 2 (modEng e (fun g => { g with tries := n }) (fence e s)))
  if max 1 (s.rf 0x8004 0 4) ≤ n then
    let s2 := pcount 11 <| count (ctEng e 10) 1 (smCause 3 (modEng e (fun g => { g with st := 3 }) s1))
    if ([0, 1, 2].filter (fun i => decide ((s2.eng i).st ≠ 3))).length ≤ 1 then halt 7 s2 else resyncStart s2
  else resyncStart s1

/-- A verdict on an engine is reported (R336). -/
def reportOdd (e reason lane idx : Nat) (s : State) : State :=
  let s1 := count (ctEng e (1 + reason)) 1 (smCause 0 s)
  let s2 := whenDo (decide (reason = 4)) (smCause 9) s1
  (s2.setReg 0x8028 (w32 (e + reason * 4 + lane * 32))).setReg 0x802C (w32 idx)

/-- An engine is odd (R336, R337, R339): reason 0 MISMATCH, 1 SKEW, 2 ALIGN_PARITY, 3 SELF, 4 LATENT, 5 CKPT_SIGNATURE. -/
def oddEngine (e reason lane idx : Nat) (s : State) : State :=
  let s1 := reportOdd e reason lane idx s
  if (goodEngs s 0).length ≤ 2 then startRestart 1 0 s1
  else
    let watched := match (s.eng e).join with
      | some j => decide (reason ≤ 2 ∧ idx < j + 64)
      | none => false
    if watched then resyncFail e s1 else resyncStart (modEng e (fun g => { g with tries := 0 }) (fence e s1))

/-! ## Release (R14, R330, R333) -/

/-- Exactly one seam carries release (R335, R349). -/
def loneSeam (s : State) : Bool := decide (s.seam.sa ≠ 0) != decide (s.seam.sb ≠ 0)

/-- The histories of the active seams (R333). -/
def seamHist (x : DecEntry) (s : State) : State :=
  modSeam (fun g => { g with histA := if g.sa = 0 then (x :: g.histA).take 256 else g.histA,
                             histB := if g.sb = 0 then (x :: g.histB).take 256 else g.histB }) s

/-- The CHECK steps of a released decision (R318). -/
def countChecks (d : Decision) (s : State) : State :=
  forAll d.checks (fun c s =>
    if c.2 = 0 then count (ctCk 48) 1 s
    else raise 0xB800 1 (count (ctCk (51 + c.1)) 1 (count (ctCk (48 + c.2)) 1 s))) s

/-- What a released decision does outside the engines (R137, R143, R156, R158, R175, R183, R316, R318). -/
def releaseEffects (m : Nat) (x : DecEntry) (s : State) : State :=
  let d := x.dec
  let a := x.hdr.addr
  let t := field (wordAt x.hdr.h 1) 20 12
  let sub := ((s.pin a).map (·.sub)).getD 0
  let stamp := (mkD (wordAt x.hdr.h 3) (wordAt x.hdr.h 2)).toNat
  let s1 := whenDo d.chkFail (modPin a (fun p => { p with chkFail := true })) s
  let s2 := countTalker t sub 5 d.ooo (countChecks d s1)
  let s3 := match d.drop with
    | .none => s2
    | .ruleDrop => countTalker t sub 3 1 s2
    | .noRule => countTalker t sub 4 1 s2
  let s4 := forAll d.counts (fun c s => count (4192 + c.1) c.2 s) s3
  forAll d.cells (fun c s => whenDo (!s.split || decide (engOf s (0x400 + c.1) 0 = m)) (cellWrite c.1 c.2.1 c.2.2 stamp) s) s4

/-- A decision is released (R14, R330): its effects, its entry in the log for a replay, and its fan-out (R189). -/
def release (m : Nat) (x : DecEntry) (s : State) : State :=
  let s1 := whenDo (loneSeam s) (count (ctSm 4) 1) (seamHist x s)
  let s2 := releaseEffects m x s1
  let r : LogRec := { hdr := x.hdr, bank := x.bank, words := x.hdr.avail, final := x.hdr.fin }
  fanRelease m x { s2 with log := mapIns s2.log m (mapGet (dflt []) s2.log m ++ [r]) }

/-! ## The vote (R330, R331) -/

/-- An engine that lags behind a release votes on it afterwards: agreement, a difference or a parity error (R330). -/
def thirdEntry (e : Nat) (r x : DecEntry) (s : State) : State :=
  let s1 := modEng e (fun g => { g with owed := g.owed.drop 1 }) s
  if x.parityOk = false then oddEngine e 2 0 x.hdr.idx (count (ctSm 1) 1 s1)
  else match laneDiff r x with
    | none => count (ctSm 0) 1 s1
    | some l => oddEngine e 0 l x.hdr.idx (count (ctSm 1) 1 s1)

/-- An entry pushed into an engine's alignment buffer (R326, R329); an entry below a join index is not voted on (R338). -/
def pushEntry (e : Nat) (x : DecEntry) (s : State) : State :=
  match (s.eng e).join with
  | some j => if x.hdr.idx < j then s else go
  | none => go
where
  go : State :=
    let s1 := count (ctEng e 0) 1 s
    match (s.eng e).owed with
    | r :: _ => thirdEntry e r x s1
    | [] => modEng e (fun g => { g with align := g.align ++ [x] }) s1

/-- An entry at the head of an alignment buffer, of an engine that owes no comparison. -/
def headEntry (s : State) (e : Nat) : Option DecEntry :=
  let g := s.eng e
  if g.owed = [] then g.align.head? else none

/-- The engines that vote on the next head set: the good ones, without one that joined while another has an entry from before its
join index at the head (R338). -/
def ballot (s : State) : List Nat :=
  (goodEngs s 0).filter (fun e => match (s.eng e).join with
    | some j => (goodEngs s 0).all (fun i => ((s.eng i).align.head?).all (fun x => decide (j ≤ x.hdr.idx)))
    | none => true)

/-- The heads that may vote: engine and entry, parity good. -/
def voters (s : State) : List (Nat × DecEntry) :=
  (ballot s).filterMap (fun e => match headEntry s e with
    | some x => if x.parityOk then some (e, x) else none
    | none => none)

/-- The engines whose head entry fails parity. -/
def badHeads (s : State) : List (Nat × DecEntry) :=
  (ballot s).filterMap (fun e => match headEntry s e with
    | some x => if x.parityOk then none else some (e, x)
    | none => none)

/-- Heads taken out of the alignment buffers of engines. -/
def popHeads (es : List Nat) (s : State) : State :=
  forAll es (modEng · (fun g => { g with align := g.align.drop 1 })) s

/-- A head set with two good engines (R331). -/
def voteDuplex (s : State) : State :=
  match voters s with
  | [(a, x), (b, y)] =>
    if agrees x y then release 0 x (count (ctSm 2) 1 (popHeads [a, b] s)) else startRestart 1 0 s
  | _ => s

/-- A head set in which two of three entries agree: the third engine is odd, or its entry is still to come (R330). -/
def voteTwo (a b : Nat) (x : DecEntry) (third : Option (Nat × DecEntry)) (s : State) : State :=
  match third with
  | some (c, z) =>
    let s1 := release 0 x (count (ctSm 1) 1 (popHeads [a, b, c] s))
    oddEngine c 0 ((laneDiff x z).getD 0) z.hdr.idx s1
  | none =>
    let late := (goodEngs s 0).filter (fun e => decide (e ≠ a ∧ e ≠ b))
    release 0 x (forAll late (modEng · (fun g => { g with owed := g.owed ++ [x] })) (popHeads [a, b] s))

/-- A head set with three good engines (R330). -/
def voteTriple (s : State) : State :=
  match voters s with
  | [(a, x), (b, y), (c, z)] =>
    if agrees x y then
      if agrees x z then release 0 x (count (ctSm 0) 1 (popHeads [a, b, c] s))
      else voteTwo a b x (some (c, z)) s
    else if agrees x z then voteTwo a c x (some (b, y)) s
    else if agrees y z then voteTwo b c y (some (a, x)) s
    else startRestart 0 0 s
  | [(a, x), (b, y)] => if agrees x y then voteTwo a b x none s else s
  | _ => s

/-- A head set in which an engine's entry fails parity (R330, R331). -/
def voteParity (e : Nat) (x : DecEntry) (s : State) : State :=
  if (ballot s).length ≤ 2 then startRestart 1 0 s
  else
    let s1 := oddEngine e 2 0 x.hdr.idx s
    match badHeads s1, voters s1 with
    | (f, y) :: _, _ => oddEngine f 2 0 y.hdr.idx s1
    | [], [(a, u), (b, v)] =>
      if agrees u v then release 0 u (count (ctSm 1) 1 (popHeads [a, b] s1)) else startRestart 0 0 s1
    | _, _ => s1

/-- The seams take up the next head set in Triple (R330, R331, R333). -/
def voteGo (s : State) : State :=
  match badHeads s with
  | (e, x) :: _ => voteParity e x s
  | [] => if 3 ≤ (ballot s).length then voteTriple s else voteDuplex s

/-- An engine's entries pass to release in Split (R350). -/
def passGo (e : Nat) (s : State) : State :=
  match (s.eng e).align with
  | [] => s
  | x :: _ =>
    if x.parityOk then release e x (count (ctSm 3) 1 (popHeads [e] s)) else startRestart 2 e s

/-- Whether the seam releases decisions now (R332, R334, R346). -/
def seamOpen (s : State) : Bool :=
  s.engRun && (decide (s.seam.dev = 0) || (s.split && decide (s.seam.dev = 2)))

/-- The seam's next release (R330, R333, R350). -/
def seamGo (e : Nat) (s : State) : State :=
  if seamOpen s = false then s
  else if s.split then (if restarting s e then s else passGo e s)
  else voteGo s

/-- An entry is late or lone (R330, R331). -/
def lateGo (s : State) : State :=
  if seamOpen s = false ∨ s.split then s
  else
    match (goodEngs s 0).find? (fun e => decide ((s.eng e).owed ≠ [])) with
    | some e =>
      let idx := match (s.eng e).owed with
        | r :: _ => r.hdr.idx
        | [] => 0
      oddEngine e 1 0 idx s
    | none =>
      if badHeads s ≠ [] then s
      else
        let good := ballot s
        match voters s with
        | [(a, x), (b, y)] =>
          if good.length = 3 ∧ agrees x y = false then
            match good.find? (fun e => decide (e ≠ a ∧ e ≠ b)) with
            | some c => startRestart 0 0 (reportOdd c 1 0 x.hdr.idx s)
            | none => s
          else s
        | [(a, x)] => if good.length ≤ 2 then startRestart 1 0 s else oddEngine a 1 0 x.hdr.idx s
        | _ => s

/-! ## Decision entries (R326, R161) -/

/-- What a donor retires before the join index reaches the target (R338). -/
def mirrorTo (e before : Nat) (s : State) : State :=
  forAll [0, 1, 2] (fun t s =>
    if decide ((s.eng t).st = 2) && (s.eng t).copied && decide (lowestGood s = some e ∧ (s.eng t).inbox.length < before) then
      modEng t (fun g => { g with dyn := (s.eng e).dyn, parked := (s.eng e).parked }) s
    else s) s

/-- An engine works: it runs, votes, and does not restart. -/
def engWorks (s : State) (e : Nat) : Bool := s.engRun && engGood s e && !restarting s e

/-- The next decision of an engine (R160, R161, R326, R329). -/
def decideNext (e : Nat) (parityOk : Bool) (s0 : State) : State :=
  if engWorks s0 e = false then s0
  else
    let s := pull e s0
    let g := s.eng e
    match g.inbox with
    | .head hd bank :: t =>
      if 64 ≤ g.align.length then s0
      else
        let s1 := match engDecide s g hd bank hd.avail false with
          | none => s.setEng e { g with inbox := t, parked := g.parked ++ [{ hdr := hd, bank := bank, words := hd.avail }] }
          | some (d, dyn) =>
            pushEntry e { hdr := hd, dec := d, bank := bank, parityOk := parityOk } (s.setEng e { g with inbox := t, dyn := dyn })
        mirrorTo e g.inbox.length s1
    | _ => s0

/-- A parked decision looks at its next token (R161). -/
def resumeNext (e : Nat) (parityOk : Bool) (s0 : State) : State :=
  if engWorks s0 e = false then s0
  else
    let m := engMrg s0 e
    let s := pull e (mergeTokens m (s0.mrg m).q.length s0)
    let g := s.eng e
    match g.inbox with
    | .token a w f :: t =>
      if 64 ≤ g.align.length then s0
      else
        match g.parked.find? (fun p => p.hdr.addr = a) with
        | none => s0
        | some p =>
          let s1 := match engDecide s g p.hdr p.bank w f with
            | none => s.setEng e { g with inbox := t, parked := g.parked.map (fun q =>
                if q.hdr.idx = p.hdr.idx then { q with words := w, final := f } else q) }
            | some (d, dyn) =>
              pushEntry e { hdr := { p.hdr with avail := w, fin := f }, dec := d, bank := p.bank, parityOk := parityOk }
                (s.setEng e { g with inbox := t, dyn := dyn, parked := g.parked.filter (fun q => q.hdr.idx ≠ p.hdr.idx) })
          mirrorTo e g.inbox.length s1
    | _ => s0

/-! ## Seam rounds (R334, R335) -/

/-- The device state after a hold. -/
def seamResume (s : State) : State := modSeam (fun x => { x with dev := if x.restarting = 0 then 0 else 2, round := 0 }) s

/-- A seam is fenced: 0 A, 1 B. -/
def fenceSeam (b : Nat) (s : State) : State :=
  pcount 12 <| count (ctSm (7 + b)) 1 (smCause 5 (modSeam (fun x => if b = 0 then { x with sa := 2 } else { x with sb := 2 }) s))

/-- The seams disagree, or the remaining seam is silent (R333 to R335). -/
def disagreeGo (s : State) : State :=
  if seamOpen s then count (ctSm 5) 1 (smCause 4 (modSeam (fun x => { x with dev := 1, round := 1 }) s)) else s

/-- A round ends (R334, R335). -/
def roundEnd (aPass bPass agree : Bool) (s : State) : State :=
  if s.seam.dev ≠ 1 ∨ s.engRun = false then s
  else
    let a := decide (s.seam.sa = 0)
    let b := decide (s.seam.sb = 0)
    let aFail := a && !aPass
    let bFail := b && !bPass
    if (a && b && aFail && bFail) || (a != b && (aFail || bFail)) then halt 5 s
    else if aFail then seamResume (fenceSeam 0 s)
    else if bFail then seamResume (fenceSeam 1 s)
    else if agree then count (ctSm 6) 1 (smCause 6 (seamResume s))
    else if 3 ≤ s.seam.round then halt 6 s
    else modSeam (fun x => { x with round := x.round + 1 }) s

/-! ## Faults that engines report (R336, R339, R347, R350) -/

/-- A self-reported fault of an engine (R336, R339, R350). -/
def selfGo (e : Nat) (s : State) : State :=
  if s.engRun = false ∨ s.seam.dev = 3 ∨ restarting s e then s
  else if s.split then startRestart 2 e s
  else match (s.eng e).st with
    | 0 => oddEngine e 3 0 (nextIdx s 0) s
    | 2 => resyncFail e s
    | _ => s

/-- A parity error on the copy path (R339). -/
def copyParity (s : State) : State :=
  match [0, 1, 2].find? (fun e => decide ((s.eng e).st = 2)) with
  | some t => if s.engRun ∧ s.seam.dev ≠ 3 then resyncFail t s else s
  | none => s

/-- A header was issued to an engine 2 µs earlier and no entry has followed (R350). -/
def splitLate (e : Nat) (s : State) : State :=
  let waiting := (s.eng e).inbox.any (fun i => match i with
    | .head _ _ => true
    | _ => false)
  if s.split && seamOpen s && !restarting s e && waiting then startRestart 2 e s else s

/-- A block of a scrub pass whose signature differs in some engines (R347): one engine of three is odd; more of them, or one in
duplex, restart the engines; in Split each restarts alone. An engine that the pass has fenced already is looked at no more. -/
def scrubBlock (x : Nat × BitVec 3) (s : State) : State :=
  if s.split then
    forAll ([0, 1, 2].filter (fun e => nbit x.2.toNat e && !restarting s e)) (fun e s => startRestart 2 e (smCause 9 s)) s
  else if s.seam.restarting ≠ 0 ∨ s.seam.dev = 3 then s
  else match (goodEngs s 0).filter (nbit x.2.toNat) with
    | [] => s
    | e :: t =>
      if (goodEngs s 0).length ≤ 2 then startRestart 1 0 s
      else if t = [] then oddEngine e 4 0 (nextIdx s 0) s
      else startRestart 0 0 s

/-- A scrub pass (R347): the blocks whose signature differs, each with the engines that the difference lies in. -/
def scrubGo (blocks : List (Nat × BitVec 3)) (s : State) : State :=
  if s.engRun = false ∨ s.rf 0x8008 0 16 = 0 ∨ s.seam.dev = 3 ∨ s.seam.restarting ≠ 0 then s
  else forAll blocks scrubBlock (count (ctSm 15) 1 (s.setReg 0x8008 (setField (s.reg 0x8008) 16 16 (s.rf 0x8008 16 16 + 1))))

/-! ## Resynchronisation (R338) -/

/-- The copy completes: the target has the donor's state, and J is fixed (R338). -/
def copyDone (s : State) : State :=
  match [0, 1, 2].find? (fun e => decide ((s.eng e).st = 2) && !(s.eng e).copied), lowestGood s with
  | some t, some d =>
    if s.engRun = false ∨ s.seam.dev = 3 then s
    else
      let g := s.eng d
      modEng t (fun x => { x with bank0 := g.bank0, bank1 := g.bank1, dyn := g.dyn, parked := g.parked, inbox := [], align := [],
                                  owed := [], copied := true, join := some (nextIdx s 0) }) s
  | _, _ => s

/-- The target starts on J once the mirrored stream has drained (R338, R340). -/
def joinGo (s : State) : State :=
  match [0, 1, 2].find? (fun e => decide ((s.eng e).st = 2) && (s.eng e).copied), lowestGood s with
  | some t, some d =>
    if seamOpen s && decide ((s.eng d).inbox.length ≤ (s.eng t).inbox.length) then
      smCause 1 (modEng t (fun g => { g with st := 0, copied := false }) s)
    else s
  | _, _ => s

/-! ## Checkpoints (R341 to R343) -/

/-- The ingress bobbins of a merger (R223, R351). -/
def ingressBobs (s : State) (m : Nat) : List Nat :=
  (((List.range 73).map (fun w => ingBob s w (if s.split then m else 0))).eraseDups).filter (bobEn s)

/-- A checkpoint is cut at the next header of a merger (R342). -/
def cutAt (m : Nat) (s : State) : State :=
  let pos := (ingressBobs s m).foldl (fun l b => mapIns l b (s.bob b).rp) []
  let s1 := forAll (mrgEngs s m) (modEng · (fun g => { g with snap := none })) s
  giveItem m .cut { s1 with cuts := mapIns s1.cuts m { idx := nextIdx s m, pos := pos } }

/-- No header that a restart presents again waits in a merger. -/
def mrgFresh (s : State) (m : Nat) : Bool :=
  (s.mrg m).q.all (fun e => match e with
    | .head _ _ (some _) => false
    | _ => true)

/-- A checkpoint of a merger is cut at its next header, or, while it presents headers again, at the first new one (R342, R345). -/
def cutSoon (m i : Nat) (s : State) : State :=
  if mrgFresh s m && !restarting s m && decide (goodEngs s m ≠ []) then cutAt m s
  else modCons (fun c => { c with cutWait := mapIns c.cutWait m (match mapFind c.cutWait m with
    | some j => min i j
    | none => i) }) s

/-- A checkpoint cut under the checkpoint period (R342). -/
def cutGo (s : State) : State :=
  if s.engRun = false ∨ s.seam.dev = 3 then s
  else forAll (mergers s) (fun m s => cutSoon m (s.mrg m).next s) s

/-- The merger whose pending cut has the snapshots of its good engines. -/
def cutReady (s : State) : Option (Nat × Cut) :=
  s.cuts.find? (fun e => decide (goodEngs s e.1 ≠ []) &&
    (goodEngs s e.1).any (fun i => (s.eng i).snap.isSome) &&
    (goodEngs s e.1).all (fun i => (s.eng i).snap.isSome || (match (s.eng i).join with
      | some j => decide (e.2.idx < j)
      | none => false)))

/-- The free slots of the checkpoint SRAM (R341). -/
def freeSlots (s : State) : List Nat := [0, 1, 2, 3].filter (fun k => s.ckpts.all (fun e => decide (e.2.slot ≠ k)))

/-- The end of a cut that commits: the slot, its index, the notches and the log (R342, R343). -/
def commitCut (m : Nat) (c : Cut) (s0 : State) : State :=
  let (n, s) := s0.fresh
  let w := ((goodEngs s m).find? (fun e => (s.eng e).snap.isSome)).getD 0
  let sn := ((s.eng w).snap).getD ({}, [])
  let free := freeSlots s
  let slot := free.getD ((Config.freeWord n).toNat % max 1 free.length) 0
  let ck : Ckpt := { idx := c.idx, dyn := sn.1, parked := sn.2, slot := slot }
  let keep := (mapGet (dflt []) s.log m).filter (fun r => decide (c.idx ≤ r.hdr.idx) || sn.2.contains r.hdr.idx)
  let s1 := { s with ckpts := mapIns s.ckpts m ck, cuts := mapDel s.cuts m, log := mapSet (dflt []) s.log m keep }
  let s2 := forAll (mrgEngs s m) (modEng · (fun g => { g with snap := none })) s1
  let s3 := count (ctEng w 15) 1 (count (ctSm 13) 1 s2)
  let s4 := (s3.setReg 0x8010 (w32 c.idx)).setReg 0x8014 (w32 (c.idx / 0x100000000))
  let s5 := s4.setReg 0x800C (setField (s4.reg 0x800C) 17 2 slot)
  let s6 := forAll c.pos (fun x s => whenDo (classL s x.1) (fun s =>
    let b := s.bob x.1
    releaseBob x.1 (s.setBob x.1 { b with notch := some (max b.lp (min x.2 b.rp)), lapsed := false, lease := s.reg (0x9004 + 0x10 * x.1) })) s) s5
  let live := (mergers s6).all (fun k => decide (mapGet (dflt 0) s6.cons.swIdx k ≤ ((mapFind s6.ckpts k).map (·.idx)).getD 0) &&
    (mapFind s6.ckpts k).isSome && (mapFind s6.cuts k).isNone)
  let old := (mapGet (dflt []) s6.cons.resets m).filter (fun r => decide (c.idx ≤ r.1))
  let s7 := modCons (fun x => { x with resets := mapSet (dflt []) x.resets m old }) s6
  whenDo (live && s7.cons.rebaste) (modCons (fun x => { x with rebasteGo := true })) s7

/-- A map with the entries of some blocks taken from another's: n is the number of key 0 among the slots (R343). -/
def mixSlots {α : Type} (bad : Nat → Bool) (n : Nat) (own other : SMap α) : SMap α :=
  (mapFilter (fun k _ => bad (Config.dynBlock (n + k))) other).foldl (fun m e => mapIns m e.1 e.2)
    (mapFilter (fun k _ => !bad (Config.dynBlock (n + k))) own)

/-- A snapshot with some of its blocks rewritten from another engine's (R343). -/
def mixDyn (bad : Nat → Bool) (own other : EngDyn) : EngDyn :=
  { win := mixSlots bad 0 own.win other.win, seq := mixSlots bad 1024 own.seq other.seq,
    cells := mixSlots bad 2048 own.cells other.cells, pool := mixSlots bad 6144 own.pool other.pool }

/-- The writer's blocks in the minority rewritten from majority engines' snapshots, block by block (R343). -/
def mixSnap (w : Nat) (good : List Nat) (blocks : List (Nat × BitVec 3)) (s : State) : State :=
  forAll (blocks.filter (fun x => nbit x.2.toNat w)) (fun x s =>
    match good.find? (fun e => !nbit x.2.toNat e) with
    | none => s
    | some d => match (s.eng w).snap, (s.eng d).snap with
      | some own, some other =>
        modEng w (fun g => { g with snap := some (mixDyn (fun k => decide (k = x.1)) own.1 other.1, other.2) }) s
      | _, _ => s) s

/-- The commit of a checkpoint (R343): whether the write had no uncorrectable ECC error, and the blocks whose signatures differ,
each with the engines in the minority. -/
def commitGo (ok : Bool) (blocks : List (Nat × BitVec 3)) (s0 : State) : State :=
  let s := forAll [0, 1, 2] (fun e s => whenDo (engWorks s e) (pull e) s) s0
  if s.engRun = false ∨ s.seam.dev = 3 then s0
  else match cutReady s with
    | none => s0
    | some (m, c) =>
      let good := goodEngs s m
      let bad := blocks.map (fun x => (x.1, good.filter (nbit x.2.toNat)))
      if ok = false then
        let s1 := forAll (mrgEngs s m) (modEng · (fun g => { g with snap := none })) { s with cuts := mapDel s.cuts m }
        raise 0xE040 2 (count (ctSm 14) 1 (smCause 10 s1))
      else if s.split ∨ bad.all (fun x => decide (x.2 = [])) then commitCut m c s
      else if good.length ≤ 2 then startRestart 1 0 s
      else if bad.any (fun x => decide (2 ≤ x.2.length)) then s0
      else
        let w := (good.find? (fun e => (s.eng e).snap.isSome)).getD 0
        let s1 := commitCut m c (mixSnap w good blocks s)
        whenDo (bad.any (fun x => decide (x.2 = [w]))) (oddEngine w 5 0 c.idx) s1

/-- SLOT_RESET entries that fall before an index, taken in order; those left, and the dynamic state. -/
def takeResets (i : Nat) (l : List (Nat × List Word × Bool)) (d : EngDyn) : EngDyn × List (Nat × List Word × Bool) :=
  ((l.filter (fun r => decide (r.1 ≤ i))).foldl (fun d r => r.2.1.foldl slotReset d) d, l.filter (fun r => decide (i < r.1)))

/-- The end of a restart without HALTED: an engine at the committed state plus the replay (R345). -/
def replayEng (s : State) (m : Nat) (g : Eng) (ck : Ckpt) : Eng :=
  let l := mapGet (dflt []) s.log m
  let (dyn, _) := l.foldl (fun a r =>
    let (d, rs) := takeResets r.hdr.idx a.2 a.1
    match engDecide s { g with dyn := d } r.hdr r.bank r.words r.final with
    | some (_, d') => (d', rs)
    | none => (d, rs)) (ck.dyn, mapGet (dflt []) s.cons.resets m)
  { g.cleared with st := 0, dyn := dyn, tries := 0 }

end Sys2Proof.Machine
end

