-- ==== Sys2Proof/Machine/Stitch.lean ====
section
/-!
DEFINITION. Staged configuration (R412 to R421, R222, R446): the stitch, the re-baste, and the loading of tables (R163, R381).
-/
namespace Sys2Proof.Machine

/-! ## Loading (R163, R381) -/

/-- The staging bank's number (R412). -/
def stagingBank (s : State) : Nat := 1 - s.cons.liveBank
/-- The contents of one of the device's two banks. -/
def bankOfDev (s : State) (b : Nat) : Bank :=
  let e := if (s.eng 0).st = 0 then s.eng 0 else if (s.eng 1).st = 0 then s.eng 1 else s.eng 2
  engBank e b
/-- The entries of a bank that lie in one of its 4 KiB blocks (R341). -/
def blockPart (v : Bank) (k : Nat) : Bank := v.filter (fun e => decide ((Config.tableBlock e.1).val = k))
/-- The signature of each block of a bank: one CRC-32C of its bytes (R341). -/
def blockSigs (v : Bank) : List Word :=
  (List.range 384).map (fun k => crc32c (Config.blockBytes ((blockPart v k).map (fun e => (e.1, e.2.img)))))
/-- A bank of every engine replaced, and the signatures of its blocks with it (R163, R340, R341). -/
def setBanks (b : Nat) (v : Bank) (s : State) : State :=
  forAll [0, 1, 2] (modEng · (fun g => if b = 0 then { g with bank0 := v } else { g with bank1 := v }))
    (modSeam (fun x => { x with sigs := mapIns x.sigs b (blockSigs v) }) s)

/-- What a load has come to: the bank, owners, SLOT_RESET entries, cells cleared, entries written, the position and status of
the first one refused, and whether the buffer ended early. -/
structure LoadRes where
  bank : Bank
  owners : Owners
  resets : List Word := []
  clears : List Nat := []
  written : Nat := 0
  refused : Option (Nat × Nat) := none
  short : Bool := false

/-- One entry of a load (R164, R381). -/
def loadOne (r : Reach) (t pos : Nat) (hd : Word) (im : List Word) (a : LoadRes) : LoadRes :=
  let i := field hd 0 16
  let rsv := field hd 17 7 ≠ 0 ∨ field hd 30 2 ≠ 0
  let (st, b) := if tableSize t ≠ 0 ∧ rsv then (4, a.bank) else loadEntry r a.owners a.bank t i (bit hd 16) im
  if st ≤ 1 then
    { a with bank := b, owners := ownersAfter r.dom t i im a.owners, written := a.written + 1,
             resets := if t = 10 then a.resets ++ [wordAt im 0] else a.resets,
             clears := if t = 9 ∧ bit (wordAt im 0) 25 then a.clears ++ [i] else a.clears }
  else { a with refused := match a.refused with
    | some x => some x
    | none => some (pos, st) }

/-- A run of n entries from a list of words (R381). -/
def loadRun (r : Reach) (t : Nat) : Nat → Nat → List Word → LoadRes → LoadRes
  | 0, _, _, a => a
  | n + 1, pos, ws, a =>
    match ws with
    | [] => { a with short := true }
    | hd :: t1 =>
      let k := field hd 24 6
      if t1.length < k then { a with short := true }
      else loadRun r t n (pos + 1) (t1.drop k) (loadOne r t pos hd (t1.take k) a)

/-- A load carried out on the staging banks for a domain (R163): what it came to, and the state. -/
def loadTables (dom t n : Nat) (ws : List Word) (s : State) : State × LoadRes :=
  let b := stagingBank s
  let a := loadRun (reachOf s dom) t (min n (ws.length + 1)) 0 ws { bank := bankOfDev s b, owners := s.cons.owners }
  let s1 := setBanks b a.bank s
  (modCons (fun c => { c with owners := a.owners, slotResets := c.slotResets ++ a.resets, clears := c.clears ++ a.clears }) s1, a)

/-! ## Staged registers at a stitch (R222, R223, R446) -/

/-- The engine arrangement that a stitch leaves: at the first after the lock that of SV_PROFILE (R25). -/
def splitNext (s : State) : Bool := if s.seam.profiled ∨ s.rb 0xF000 0 = false then s.split else s.rb 0xF040 0

/-- Bobbins named in SV_ING and SV_DERIV (R223, R447). -/
def purposeBobs (s : State) : List Nat :=
  let es := if splitNext s then [0, 1, 2] else [0]
  (es.flatMap (fun e => derivBob s e :: (List.range 73).map (fun w => ingBob s w e))).eraseDups

/-- The lanes of a listener under a configuration word. -/
def laneSet (k : Nat) (cfg : Word) : List Nat := (List.range (laneCount k cfg)).map (fun i => field cfg 16 9 + i)

/-- A staged listener configuration passes R446. -/
def laneOk (s : State) (k : Nat) (cfg : Word) : Bool :=
  let r := s.reg (0xF400 + 4 * k)
  let first := field r 0 9
  let n := min 4 (field r 9 3)
  let ls := laneSet k cfg
  let inUse := (List.range 124).flatMap (fun j =>
    let c := s.liveReg (lqOff j)
    if j ≠ k ∧ bit c 31 then laneSet j c else [])
  let named := purposeBobs s
  !bit cfg 31 || (decide (n ≠ 0) && ls.all (fun b => decide (first ≤ b ∧ b < first + n) && !inUse.contains b &&
    decide (b < 508) && !named.contains b))

/-- A listener's settings at a stitch (R195, R446). -/
def stitchLq (k : Nat) (s : State) : State :=
  let cfg := s.reg (lqOff k)
  let s1 := s.setLive (lqOff k + 4) (s.reg (lqOff k + 4))
  if s1.liveReg (lqOff k) = cfg then s1
  else if 124 ≤ k ∨ laneOk s1 k cfg then s1.setLive (lqOff k) cfg
  else raise 0xF020 8 (s1.setReg (lqOff k) (s1.liveReg (lqOff k)))

/-- STORE4 is live or requested (R26, R222). -/
def store4Near (s : State) : Bool :=
  s.pw.store4 || (match s.pw.staged with
    | some (_, _, x) => x
    | none => false)

/-- The reason for which a staged carving is refused (R222): 0 undefined depth or class, 1 out of range, 2 overlap, 3 not
empty. -/
def carveRefused (s : State) (b : Nat) (v : Word) : Option Nat :=
  let d := field v 15 5
  let lo := 64 * field v 0 15
  let hi := lo + 2 ^ d
  let top := if store4Near s then 0x100000 else 0x200000
  let above := (List.range 512).any (fun j =>
    let w := s.liveReg (carveOff j)
    decide (j ≠ b) && bit w 20 && decide (lo < 64 * field w 0 15 + carveDepth w ∧ 64 * field w 0 15 < hi))
  if bit v 20 ∧ (d < 6 ∨ 20 < d ∨ (d < 12 ∧ (purposeBobs s).contains b)) then some 0
  else if bit v 20 ∧ top < hi then some 1
  else if bit v 20 ∧ above then some 2
  else if bobEn s b ∧ bobEmpty s b = false then some 3
  else none

/-- A bobbin's carving at a stitch (R222). -/
def stitchCarve (b : Nat) (s : State) : State :=
  let v := s.reg (carveOff b)
  if v = s.liveReg (carveOff b) then s
  else match carveRefused s b v with
    | some r =>
      (raise 0x8F00 1 (s.setReg (carveOff b) (s.liveReg (carveOff b)))).setReg 0x8F08 (w32 (b + r * 0x200))
    | none => { (s.setLive (carveOff b) v).setBob b {} with laneLq := mapDel s.laneLq b }

/-- The windows at a stitch (R92). -/
def stitchWin (s : State) : State :=
  forAll (List.range 8) (fun i s =>
    let o := 0x3200 + 4 * i
    if s.liveReg o = s.reg o then s else (noteWas o (s.liveReg o) s).setLive o (s.reg o)) s

/-- The next slot of a rotated MRAM area and its generation (R456). -/
def nextSlot {α : Type} (m : SMap (Nat × α)) : Nat × Nat :=
  match m.foldl (fun a e => match a with
      | none => some (e.1, e.2.1)
      | some (k, g) => if g < e.2.1 then some (e.1, e.2.1) else some (k, g)) (none : Option (Nat × Nat)) with
  | none => (0, 1)
  | some (k, g) => ((k + 1) % 8, g + 1)

/-- The latest record of a rotated MRAM area (R456). -/
def latestSlot {α : Type} (m : SMap (Nat × α)) : Option (Nat × α) :=
  m.foldl (fun a e => match a with
    | none => some e.2
    | some x => if x.1 < e.2.1 then some e.2 else some x) none

/-- The slots of a rotated area that pass their checks (R456). -/
def validSlots {α : Type} (bad : Nat) (m : SMap α) : SMap α := mapFilter (fun k _ => !nbit bad k) m
/-- A slot that fails its checks is skipped and reported (R456, R466). -/
def slotFaults {α : Type} (bad : Nat) (m : SMap α) (s : State) : State :=
  whenDo (m.any (fun e => nbit bad e.1)) (fun s => raise 0xE040 0x80 (raise 0x2020 0x20 s)) s

/-- User offsets become live; TRIM_SAT when a code saturates (R461). -/
def applyUser (u : UserRec) (src : Nat) (s : State) : State :=
  let sat := u.offs.any (fun e =>
    let v := Int.ofNat (trimFactory e.1) + e.2
    decide (v < 0 ∨ 2 ^ trimWidth e.1 - 1 < v))
  whenDo sat (raise 0xE020 8) { s with pw := { s.pw with calLive := u, calSrc := src } }

/-- A user record written to the next user slot (R456, R462). -/
def storeUser (u : UserRec) (s : State) : State :=
  let (k, g) := nextSlot s.pw.user
  pcount 14 { s with pw := { s.pw with user := mapIns s.pw.user k (g, { u with gen := g }) } }

/-- Staged calibration at a stitch (R415, R462). -/
def stitchCal (s : State) : State :=
  match s.pw.calStaged with
  | none => s
  | some (u, src, store) =>
    let s1 := applyUser u src { s with pw := { s.pw with calStaged := none } }
    whenDo store (storeUser u) s1

/-- Staged profiles at a stitch (R25). -/
def stitchProfile (s : State) : State :=
  match s.pw.staged with
  | none => s
  | some (l, c, t) => { s with pw := { s.pw with lean := l, coarse := c, store4 := t, staged := none } }

/-- CKPT_PERIOD_US held to its range (SV_PROFILE). -/
def ckptPeriod (s : State) : Nat := max 100 (min 100000 (s.rf 0xF040 4 17))

/-- The engine arrangement and checkpoint period at the first stitch after the lock (R25). -/
def stitchFirst (s : State) : State :=
  if s.seam.profiled ∨ s.rb 0xF000 0 = false then s
  else
    let s1 := modSeam (fun x => { x with profiled := true, split := s.rb 0xF040 0 }) s
    s1.setReg 0x800C (setField (s1.reg 0x800C) 0 17 (ckptPeriod s))

/-- The schedule words of a cell that a change restarts (R185): TRIG, CHAN, PACE, PERIOD or ANGLE and DIV, OFFSET or MIN_INT. -/
def schedWords (im : List Word) : List Nat :=
  let w0 := wordAt im 0
  [field w0 0 2, field w0 4 2, field w0 18 7, (wordAt im 1).toNat, (wordAt im 2).toNat]

/-- A cell at a stitch (R185, R501): old and new entry. -/
def stitchCell (old new : List Word) (c : Nat) (s : State) : State :=
  let was := bit (wordAt old 0) 2
  let now := bit (wordAt new 0) 2
  let changed := decide (schedWords old ≠ schedWords new)
  if now = false then
    (if was then s.setCell c { s.cell c with due := none, nextDt := none, pendChg := false } else s)
  else if was = false ∨ (changed ∧ 2 ≤ field (wordAt new 0) 0 2) then cellNew c s
  else if changed then cellSchedule c s
  else s

/-- The cells that have an entry in a bank. -/
def bankCells (b : Bank) : List Nat := (b.filter (fun e => decide (e.1 / 65536 = 9))).map (fun e => e.1 % 65536)

/-- Every cell at a stitch: the slots that CLEAR empties, and the schedules (R185). -/
def stitchCells (old : Bank) (s : State) : State :=
  let s1 := forAll s.cons.clears (fun c s => s.setCell c (s.cell c).emptied) s
  let new := devBank s1
  forAll ((bankCells old ++ bankCells new).eraseDups) (fun c s => stitchCell (img old 9 c) (img new 9 c) c s) s1

/-! ## The stitch (R416, R417) -/

/-- A command stands before the command of the pending stitch and is a LOAD_TABLE that has not ended (R414). -/
def loadsBefore (idx : Word) : List Cmd → Bool
  | [] => false
  | c :: t => if c.idx = idx then false else (decide (c.op = 1) && c.done.isNone) || loadsBefore idx t

/-- R414 lets the pending stitch take effect, and the device runs and does not restart. -/
def stitchFree (s : State) : Bool :=
  s.awake && decide (s.seam.dev ≠ 3) && !s.cons.rebaste && (s.split || decide (s.seam.restarting = 0)) &&
  (match s.cons.stitch with
    | some x => (match x.cmd with
      | some i => !loadsBefore i s.cmds
      | none => true)
    | none => false)

/-- The pending stitch's target has come (R416). -/
def stitchDue (s : State) : Bool :=
  match s.cons.stitch with
  | some x => x.ripe || (match x.target with
    | some t => targetDue s t
    | none => true)
  | none => false

/-- A timed stitch that is due goes before every other kind of timed action (R16). -/
def stitchFirstDue (s : State) : Bool := stitchFree s && stitchDue s && s.cons.stitch.any (fun x => x.target.isSome || x.status = 8)

/-- The index that follows the highest released index of a merger whose unreleased records wait to be presented again. -/
def afterReleased (s : State) (m : Nat) : Nat :=
  let u := (s.mrg m).q.filterMap (fun e => match e with
    | .head _ _ i => i
    | _ => none)
  let rec down : Nat → Nat
    | 0 => 0
    | n + 1 => if u.contains n then down n else n + 1
  down (s.mrg m).next

/-- The stitch takes effect at an index of each merger (R415 to R420). -/
def stitchAt (sOf : Nat → Nat) (s0 : State) : State :=
  match s0.cons.stitch with
  | none => s0
  | some x =>
    let old := devBank s0
    let ms := mergers s0
    let prev := mapFilter (fun o _ => decide (0x8400 ≤ o ∧ o < 0x8800)) s0.live
    let s1 := modCons (fun c => { c with stitch := none, liveBank := 1 - c.liveBank, prevLq := prev,
                                         swIdx := ms.foldl (fun l m => mapSet (dflt 0) l m (sOf m)) c.swIdx }) s0
    let s2 := forAll (List.range 128) stitchLq s1
    let s3 := stitchWin (forAll (List.range 512) stitchCarve s2)
    let s4 := stitchFirst (stitchCal (stitchProfile s3))
    let s5 := stitchCells old s4
    let rs := s5.cons.slotResets
    let ms5 := mergers s5
    let s6 := modCons (fun c => { c with
      slotResets := [], clears := [], rebaste := true, rebasteGo := false, rebasteRun := false,
      resets := if rs = [] then c.resets else
        ms5.foldl (fun l m => mapIns l m (mapGet (dflt []) l m ++ [(sOf m, rs, false)])) c.resets,
      sIdx := sOf 0, sDt := s0.dt, seq := c.seq + 1#32,
      waits := match x.cmd with
        | some i => c.waits ++ [(i, x.status)]
        | none => c.waits }) s5
    let s7 := whenDo (decide (x.status = 7)) (raise 0xD030 8) (raise 0xD030 1 s6)
    let s8 := whenDo (decide (x.status = 8)) (raise 0xD030 0x10) s7
    forAll ms5 (fun m s => cutSoon m (sOf m) s) s8

/-- The pending stitch takes effect when it is due and free (R416, R417). -/
def stitchGo (s : State) : State :=
  if stitchFree s && stitchDue s then
    stitchAt (fun m => if restarting s m then afterReleased s m else nextIdx s m) s
  else s

/-! ## Re-baste (R413) -/

/-- An engine or the fan-out still has work under the old bank (R185, R417). -/
def oldBankWork (s : State) : Bool :=
  let b := stagingBank s
  [0, 1, 2].any (fun e =>
    let g := s.eng e
    decide (g.st ≠ 3) && (g.inbox.any (fun i => match i with
        | .head _ k => decide (k = b)
        | _ => false) || g.parked.any (fun p => decide (p.bank = b)) || g.align.any (fun x => decide (x.bank = b)))) ||
  s.fan.any (fun j => j.derive && decide (j.ent.bank = b)) || (mergers s).any (fun m => !mrgFresh s m)

/-- The dirty blocks are copied into the new staging bank (R413). -/
def rebasteGo (s : State) : State :=
  if s.awake && s.cons.rebaste && s.cons.rebasteGo && !s.cons.rebasteRun && !oldBankWork s then
    modCons (fun c => { c with rebasteRun := true }) (setBanks (stagingBank s) (devBank s) s)
  else s

/-- The re-baste ends (R413). -/
def rebasteEnd (s : State) : State :=
  if s.awake && s.cons.rebasteRun then
    raise 0xD030 4 (modCons (fun c => { c with rebaste := false, rebasteGo := false, rebasteRun := false }) s)
  else s

/-! ## Fittings (R422 to R427) -/

/-- SM_STATUS (R356). -/
def smStatus (s : State) : Word :=
  let g := s.seam
  let dup := decide (s.split = false ∧ (goodEngs s 0).length = 2)
  w32 (g.dev + b2n s.split * 4 + (s.eng 0).st * 16 + (s.eng 1).st * 64 + (s.eng 2).st * 256 + g.sa * 1024 + g.sb * 4096 +
    b2n (loneSeam s) * 0x4000 + b2n dup * 0x8000 + b2n (!s.ckpts.isEmpty) * 0x10000)

/-- TP_PRn_ANG: the angle and state of a channel. -/
def prAng (s : State) (n : Nat) : Word :=
  let c := s.chan n
  w32 (posAng (chanPos c s.now) + chanSt c * 0x1000000)

/-- The 10,912 counters as bytes (R425). -/
def counterBytes (s : State) : List Byte := (List.range 10912).flatMap (fun i => natBytes 8 (s.counter i).toNat)

/-- The fitting record of a capture now (R425). -/
def fitRecord (s : State) (f : Fit) : List Byte :=
  let seq := s.cons.fitSeq.toNat
  let ph := (List.range 4).flatMap (fun n => natBytes 4 (cycNow s n) ++ wordBytes (prAng s n))
  let head := [0x51#8, 0x57#8, 0x4B#8, 0x46#8, 0x01#8, BitVec.ofNat 8 f.bank] ++ natBytes 2 10912 ++ natBytes 4 seq ++
    natBytes 4 f.status ++ natBytes 8 s.dt ++ natBytes 8 (nextIdx s 0) ++ natBytes 8 s.cons.sIdx ++ wordBytes s.cons.seq ++
    wordBytes (smStatus s) ++ ph ++ natBytes 8 f.acceptDt ++ natBytes 2 f.tag ++ List.replicate 162 0x00#8
  let body := counterBytes s
  let crc := crc32c (natBytes 4 seq ++ head ++ [0x00#8, 0x00#8, 0x00#8, 0x00#8] ++ body)
  head ++ wordBytes crc ++ body

/-- A fitting is due (R422, R424). -/
def fitDue (s : State) (f : Fit) : Bool :=
  !f.captured && (f.ripe || (match f.target with
    | some t => targetDue s t
    | none => true))

/-- A timed fitting that is due goes before held releases (R16). -/
def fitFirstDue (s : State) : Bool := s.awake && s.cons.fits.any (fun f => fitDue s f && (f.target.isSome || f.status = 8))

/-- A fitting is captured (R422, R423, R425, R426): the first or the second of those pending. -/
def fitCapture (second : Bool) (s : State) : State :=
  match s.cons.fits.drop (b2n second) with
  | [] => s
  | f :: _ =>
    if s.awake = false ∨ stitchFirstDue s ∨ fitDue s f = false ∨ (s.split = false ∧ s.seam.restarting ≠ 0) then s
    else
      let r := fitRecord s f
      let s1 := modCons (fun c => { c with
        shadow := mapIns c.shadow f.bank r, fitSeq := c.fitSeq + 1#32,
        fits := c.fits.map (fun x => if x.bank = f.bank then { x with captured := true, captureDt := s.dt } else x) }) s
      let s2 := whenDo (decide (f.status = 7)) (raise 0xD030 8) s1
      whenDo (decide (f.status = 8)) (raise 0xD030 0x10) s2

/-- A fitting record has been written to host memory (R426, R427). -/
def fitWritten (bank : Nat) (s : State) : State :=
  match s.cons.fits.find? (fun f => decide (f.bank = bank)), mapFind s.cons.shadow bank with
  | some f, some r =>
    if f.captured = false ∨ s.hostUp = false then s
    else
      let s1 := hostWrites f.addr r (modCons (fun c => { c with
        fits := c.fits.filter (fun x => x.bank ≠ bank), shadow := mapDel c.shadow bank }) s)
      doneCmd f.cmd f.status (w32 f.captureDt) (w32 (f.captureDt / 0x100000000)) (raise 0xD030 2 s1)
  | _, _ => s

end Sys2Proof.Machine
end

