-- ==== Sys2Proof/Machine/Issue.lean ====
section
/-!
DEFINITION. The issue of headers (R19, R20, R205, R233, R237, R342, R416, R420) and the end of a restart (R345, R346).
-/
namespace Sys2Proof.Machine

/-- Headers that an engine has and whose decisions are not released (R28). -/
def inFlight (g : Eng) : Nat :=
  (g.inbox.filter (fun i => match i with
    | .head _ _ => true
    | _ => false)).length + g.parked.length + g.align.length

/-- The merger may issue a header: its engines run, have room, and do not restart (R28, R337, R345). -/
def mayIssue (s : State) (m : Nat) : Bool :=
  s.engRun && (mrgEngs s m).all (fun e => !restarting s e) && decide (goodEngs s m ≠ []) &&
    (goodEngs s m).all (fun e => decide (inFlight (s.eng e) < 256))

/-- What waits for an index goes to the engines before its header: SLOT_RESET entries and a deferred cut (R158, R342). -/
def beforeIndex (m i : Nat) (s : State) : State :=
  let l := mapGet (dflt []) s.cons.resets m
  let s1 := forAll (l.filter (fun r => decide (r.1 ≤ i) && !r.2.2)) (fun r s => giveItem m (.slots r.2.1) s) s
  let given := l.map (fun r => if r.1 ≤ i then (r.1, r.2.1, true) else r)
  let s2 := modCons (fun c => { c with resets := mapSet (dflt []) c.resets m given }) s1
  match mapFind s2.cons.cutWait m with
  | some j => if j ≤ i then cutAt m (modCons (fun c => { c with cutWait := mapDel c.cutWait m }) s2) else s2
  | none => s2

/-- STITCH commands complete once their index has been issued to every good engine (R420). -/
def stitchIssued (s : State) : State :=
  if s.cons.waits ≠ [] ∧ (mergers s).all (fun m => decide (mapGet (dflt 0) s.cons.swIdx m < (s.mrg m).next)) then
    forAll s.cons.waits (fun w s => doneCmd w.1 w.2 (w32 s.cons.sIdx) (w32 (s.cons.sIdx / 0x100000000)) s)
      (modCons (fun c => { c with waits := [] }) s)
  else s

/-- A header with a poisoned word is not presented: its record is unpinned, and counted when H1 was read clean (R237). -/
def poisonHeader (a : Nat) (p : Pin) (h1 : Word) (clean : Bool) (s : State) : State :=
  let s1 := whenDo clean (countTalker (field h1 20 12) p.sub 2 1) s
  ingressRp p.bob (if p.complete then { s1 with pins := mapDel s1.pins a } else s1.setPin a { p with wait := 0 })

/-- The header at the head of a merger's order goes to the engines (R19, R233, R237), and the release verifier reads its record when it
is complete (R215). -/
def issueHead (m a : Nat) (h : Header) (pre : Option Nat) (s : State) : State :=
  match s.pin a with
  | none => s
  | some p =>
    let (s1, ws, oks) := readWords p.bob 6 p.pos s
    if oks.any (!·) then poisonHeader a p (wordAt ws 1) (oks.getD 1 false) s1
    else
      let i := pre.getD (s1.mrg m).next
      let s2 := beforeIndex m i s1
      let s3 := match pre with
        | some _ => s2
        | none => s2.setMrg m { s2.mrg m with next := i + 1 }
      let s4 := s3.setPin a { p with idx := i, mrg := m }
      let hd := { h with idx := i, addr := a }
      stitchIssued (ingressRp p.bob (verifyRecord a (giveItem m (.head hd (bankOf s4 m i)) s4)))

/-- The next header of a merger is issued (R19, R416). -/
def issueNext (m : Nat) (s0 : State) : State :=
  if mayIssue s0 m = false then s0
  else
    let s1 := mergeTokens m (s0.mrg m).q.length s0
    match (s1.mrg m).q with
    | .head _ _ _ :: _ =>
      let s2 := stitchGo s1
      match (s2.mrg m).q with
      | .head a h pre :: t =>
        let s3 := issueHead m a h pre (s2.setMrg m { s2.mrg m with q := t })
        let s4 := mergeTokens m (s3.mrg m).q.length s3
        admUpdate m s4
      | _ => s2
    | _ => s0

/-- The engines that are not retired. -/
def liveEngs (s : State) : List Nat := [0, 1, 2].filter (fun e => decide ((s.eng e).st ≠ 3))

/-- A bank with one of its blocks taken from another's. -/
def mixBlock (k : Nat) (own other : Bank) : Bank :=
  (blockPart other k).foldl (fun m e => mapIns m e.1 e.2) (own.filter (fun e => decide ((Config.tableBlock e.1).val ≠ k)))

/-- A table block that the signature store shows bad in some engines is copied into those of a merger from an engine where it is good,
and counted (R345): blocks 0 to 383 are of bank 0, the others of bank 1. -/
def repairBlock (m : Nat) (x : Nat × BitVec 3) (s : State) : State :=
  match (liveEngs s).find? (fun e => !nbit x.2.toNat e) with
  | none => s
  | some d =>
    let o := s.eng d
    forAll ((mrgEngs s m).filter (fun e => nbit x.2.toNat e && decide ((s.eng e).st ≠ 3))) (fun e s =>
      count (ctEng e 13) 1 (modEng e (fun g =>
        if x.1 < 384 then { g with bank0 := mixBlock x.1 g.bank0 o.bank0 }
        else { g with bank1 := mixBlock (x.1 - 384) g.bank1 o.bank1 }) s)) s

/-- A merger's engines come back from a restart (R345): tables repaired, state loaded and replayed; the ingress bobbins are rewound to
their notches (R229), and stand after the replay where the merger presents the next record. -/
def restartMerger (m : Nat) (blocks : List (Nat × BitVec 3)) (ck : Ckpt) (s0 : State) : State :=
  let n := (mapGet (dflt []) s0.log m).length
  let live := (mrgEngs s0 m).filter (fun e => decide ((s0.eng e).st ≠ 3))
  let s1 := forAll live (fun e s => count (ctEng e 12) n (s.setEng e (replayEng s m (s.eng e) ck)))
    (forAll blocks (repairBlock m) (forAll (ingressBobs s0 m) (fun b s => (rewindBob b s).1) s0))
  let l := mapGet (dflt []) s1.log m
  let top := l.foldl (fun a r => max a (r.hdr.idx + 1)) 0
  let given : List (Nat × List Word × Bool) := (mapGet (dflt []) s1.cons.resets m).map (fun (r : Nat × List Word × Bool) => (r.1, r.2.1, decide (r.1 < top)))
  let s2 := modCons (fun c => { c with resets := mapSet (dflt []) c.resets m given }) s1
  forAll (ingressBobs s2 m) ingressRp s2

/-- A checkpoint restart ends (R345), or the device enters HALTED (R346): whether the slot could be read, the table blocks that fail
their signature, each with the engines, and whether the replay agreed. -/
def restartEnd (slotOk : Bool) (blocks : List (Nat × BitVec 3)) (replayOk : Bool) (s : State) : State :=
  if s.engRun = false ∨ s.seam.restarting = 0 then s
  else
    let m := if s.split then ([0, 1, 2].find? (restarting s)).getD 0 else 0
    match mapFind s.ckpts m with
    | none => halt 1 s
    | some ck =>
      if blocks.any (fun x => (liveEngs s).all (nbit x.2.toNat)) then halt 4 s
      else if slotOk = false then halt 3 (raise 0xE040 2 s)
      else if replayOk = false then halt 2 s
      else
        let n := (mapGet (dflt []) s.log m).length
        let s1 := restartMerger m blocks ck s
        let s2 := s1.setReg 0x8034 (setField (s1.reg 0x8034) 8 24 (min n 16777215))
        let mask := (mrgEngs s m).foldl (fun a e => a + 2 ^ e) 0
        let s3 := modSeam (fun x =>
          let r := x.restarting - (if nbit x.restarting m then mask else 0)
          { x with restarting := r, dev := if x.dev = 2 ∧ r = 0 then 0 else x.dev }) s2
        -- a stitch that fell due during the restart
        if stitchFree s3 && stitchDue s3 then stitchAt (afterReleased s3) s3 else s3

end Sys2Proof.Machine
end

