-- ==== Sys2Proof/Machine/SeamTest.lean ====
section
/-!
DEFINITION. The pending commands of the command ring as they start (R377, R378, R380), and SEAM_TEST (R349, R352).
-/
namespace Sys2Proof.Machine

/-- The first pending command that has not started (R378). -/
def headCmd (s : State) : Option Cmd := s.cmds.find? (fun c => !c.started && c.done.isNone)

/-- The first command that waits to start is started when it has an opcode (R378). -/
def startHead (op : Nat) (f : Cmd → State → State) (s : State) : State :=
  match headCmd s with
  | none => s
  | some c => if s.awake ∧ c.op = op then f c (modCmd c.idx (fun x => { x with started := true }) s) else s

/-- A seam's state set: 0 A, 1 B. -/
def setSeam (b v : Nat) (s : State) : State := modSeam (fun x => if b = 0 then { x with sa := v } else { x with sb := v }) s

/-- The seams that a SEAM_TEST names (R349). -/
def testSet (s : State) (sel : Nat) (readmit : Bool) : List Nat :=
  let named := if sel = 2 then [0, 1] else [sel]
  if readmit then named.filter (fun b => decide ((if b = 0 then s.seam.sa else s.seam.sb) = 2)) else named

/-- A SEAM_TEST is refused with BUSY (R349). -/
def testBusy (s : State) (readmit : Bool) (l : List Nat) : Bool :=
  decide (s.pw.st ≠ 1 ∨ s.seam.dev ≠ 0 ∨ s.seam.restarting ≠ 0 ∨ s.seam.test ≠ [] ∨ l = []) ||
  [0, 1, 2].any (fun e => decide ((s.eng e).st = 2)) ||
  (!readmit && decide (s.seam.sa = 2 ∨ s.seam.sb = 2))

/-- SEAM_TEST starts (R349, R383). -/
def seamTestStart (c : Cmd) (s : State) : State :=
  let w := wordAt c.w 1
  let readmit := bit w 2
  let l := testSet s (field w 0 2) readmit
  if testBusy s readmit l then doneCmd c.idx 2 0#32 0#32 (count (ctSm 10) 1 s)
  else
    let s1 := modSeam (fun x => { x with test := l, testRes := 0, readmit := readmit, testCmd := c.idx }) s
    setSeam (l.headD 0) 1 (count (ctSm 9) 1 s1)

/-- The injection test of a seam ends (R349). -/
def seamTestOver (pass : Bool) (s : State) : State :=
  match s.seam.test with
  | [] => s
  | b :: t =>
    if s.engRun = false then s
    else
      let res := s.seam.testRes + 2 ^ (2 * b) + (if pass then 2 ^ (2 * b + 1) else 0)
      let s1 := modSeam (fun x => { x with testRes := res }) s
      let s2 :=
        if pass then
          setSeam b 0 (modSeam (fun x => if b = 0 then { x with histA := x.histB } else { x with histB := x.histA }) s1)
        else if s.seam.readmit then setSeam b 2 s1
        else fenceSeam b s1
      match t, pass with
      | n :: _, true => setSeam n 1 (modSeam (fun x => { x with test := t }) s2)
      | _, _ =>
        doneCmd s.seam.testCmd 0 (w32 res) 0#32 (smCause 11 (modSeam (fun x => { x with test := [], readmit := false }) s2))

end Sys2Proof.Machine
end

