-- ==== Sys2Proof/Machine/Peer.lean ====
section
/-!
DEFINITION. The Fetasen peer link (R390 to R409): training, flits, sentence frames, bridge windows and locks. The spec gives no
layout of the payload of REQ, CPL and LINK flits; reqWord and cplWord are the model's own.
-/
namespace Sys2Proof.Machine

/-- The link's state replaced. -/
def modPeer (f : Peer → Peer) (s : State) : State := { s with peer := f s.peer }
/-- A cause of PB_CAUSE. -/
def pbCause (b : Nat) : State → State := raise 0xC008 (2 ^ b)

/-! ## Requests and completions (R392, R400 to R408) -/

/-- The first payload word of a REQ flit: 1 read, 2 write, 3 lock request, 4 release. -/
def reqWord (kind tag win : Nat) (posted full : Bool) : Word :=
  w32 (kind + tag % 1024 * 16 + win * 0x4000 + b2n posted * 0x20000 + b2n full * 0x40000)
/-- The first payload word of a CPL flit: 1 read data, 2 non-posted write done, 3 posted writes done up to a tag, 4 lock granted,
5 lock refused, 6 FAULT_NOTICE, with a reason of R407 (15 DENIED). -/
def cplWord (kind tag reason : Nat) : Word := w32 (kind + tag % 1024 * 16 + reason * 0x4000)

/-- A REQ flit may be sent (R391, R392). -/
def reqCredit (s : State) : Bool := peerUp s && decide (0 < peerCredit s 8 ∧ s.peer.unacked.length < 512)
/-- A REQ flit may go now: no RELEASE waits before it (R391, R392). -/
def reqRoom (s : State) : Bool := reqCredit s && s.peer.releaseDue.isNone
/-- The CPL buffers reserved for completions: of reads, of the write that is not posted, of the lock request sent (R392). -/
def cplReserved (s : State) : Nat :=
  s.peer.reads.length + (s.peer.writes.filter (fun w => !w.posted)).length +
    b2n (!s.peer.lockWait && s.peer.lockWin.any (fun n => decide (mapGet (dflt 0) s.peer.lockSt n = 1)))
/-- A request that is not posted may go now: CPL has room for n more completions (R392). -/
def npRoom (n : Nat) (s : State) : Bool := reqRoom s && decide (cplReserved s + n ≤ 32)
/-- A REQ flit sent with its credit. -/
def sendReq (pay : List Word) (s : State) : State := sendFlit 1 0 pay (setCredit 8 (peerCredit s 8 - 1) s)
/-- A RELEASE that waited is sent (R392, R404). -/
def releaseGo (s : State) : State :=
  match s.peer.releaseDue with
  | some n =>
    if reqCredit s then sendReq [reqWord 4 0 n false true] { s with peer := { s.peer with releaseDue := none } } else s
  | none => s

/-- Waiting completions sent as long as credits last (R392). -/
def cplPump : Nat → State → State
  | 0, s => s
  | n + 1, s =>
    match s.peer.cplq with
    | [] => s
    | c :: t =>
      if peerUp s ∧ 0 < peerCredit s 9 ∧ s.peer.unacked.length < 512 then
        cplPump n (sendFlit 2 0 c (setCredit 9 (peerCredit s 9 - 1) (modPeer (fun p => { p with cplq := t }) s)))
      else s
/-- A completion put behind those that wait. -/
def sendCpl (pay : List Word) (s : State) : State :=
  let s1 := modPeer (fun p => { p with cplq := p.cplq ++ [pay] }) s
  cplPump s1.peer.cplq.length s1

/-- A window's configuration. -/
def winCfg (s : State) (n : Nat) : Word := s.reg (0xC040 + 8 * n)
/-- The far offset of an aperture offset (R400). -/
def farOff (s : State) (n o : Nat) : Nat := 256 * field (winCfg s n) 8 8 + o
/-- A window's lock state: 0 FREE, 1 PENDING, 2 HELD, 3 CONFLICT, 4 TIMEOUT, 5 BUSY, 6 LINK_DOWN (R411). -/
def lockState (s : State) (n : Nat) : Nat := mapGet (dflt 0) s.peer.lockSt n
/-- A window's lock state set. -/
def setLock (n v : Nat) (s : State) : State := modPeer (fun p => { p with lockSt := mapSet (dflt 0) p.lockSt n v }) s

/-- A non-posted write waits for its completion: later accesses through any window wait (R400). -/
def bridgeBusy (s : State) : Bool := s.peer.writes.any (fun w => !w.posted)

/-- A read of an aperture ends without data (R403). -/
def readFails (tag off : Nat) (timeout : Bool) (s : State) : State :=
  let s1 := modPeer (fun p => { p with reads := p.reads.filter (fun r => r.1 ≠ tag) }) s
  emit (.readData 0 off 0xFFFFFFFF#64) (pbCause 10 (whenDo timeout (count (ctPb 40) 1) s1))

/-- A write of an aperture (R400, R402, R406, R407). A write that must wait is served when it no longer has to. -/
def bridgeWr (n o : Nat) (data : Word) (full : Bool) (s : State) : State :=
  let c := winCfg s n
  if bit c 0 = false ∨ full = false then raise 0x1928 4 (count (ctHi 335) 1 s)
  else
    let p := s.peer
    let held := decide (lockState s n = 2)
    let posted := bit c 1 && !held
    let broken := p.lockFault.contains n && !posted
    let off := farOff s n o
    let next := modPeer (fun p => { p with wtag := (p.wtag + 1) % 1024 }) s
    if bridgeBusy s then s
    else if broken then
      logOut { tag := p.wtag, reason := 4, win := n, addr := off } (modPeer (fun p => { p with lockFault := p.lockFault.filter (· ≠ n) }) next)
    else if peerUp s = false then logOut { tag := p.wtag, reason := 5, win := n, addr := off } next
    else if reqRoom s = false ∨ (posted ∧ 256 ≤ p.writes.length) ∨ (!posted ∧ npRoom 1 s = false) then s
    else
      let s1 := modPeer (fun p => { p with writes := p.writes ++ [{ tag := s.peer.wtag, win := n, addr := off, posted := posted }] }) next
      count (ctPb (if posted then 27 else 28)) 1 (sendReq [reqWord 2 p.wtag n posted true, w32 off, data] s1)

/-- A read of an aperture (R400, R403). -/
def bridgeRd (n o : Nat) (s : State) : State :=
  let off := 0xC800 + 0x100 * n + o
  if bit (winCfg s n) 0 = false then emit (.readData 0 off 0#64) s
  else if bridgeBusy s then s
  else if peerUp s = false then readFails 1024 off true s
  else if npRoom 1 s = false then s
  else
    let t := s.peer.rtag
    let s1 := modPeer (fun p => { p with rtag := (p.rtag + 1) % 1024, reads := p.reads ++ [(t, off)] }) s
    count (ctPb 29) 1 (sendReq [reqWord 1 t n false true, w32 (farOff s n o)] s1)

/-- A read of an aligned pair of registers of an aperture (R359, R400): a bridge read of each register, the low one first. -/
def bridgeRd8 (n o : Nat) (s : State) : State :=
  if bit (winCfg s n) 0 = false then bridgeRd n o s
  else if peerUp s && (!npRoom 2 s || decide (peerCredit s 8 < 2 ∨ 511 ≤ s.peer.unacked.length)) then s
  else bridgeRd n (o + 4) (bridgeRd n o s)

/-- A bridge read or non-posted write without completion (R403). -/
def bridgeLate (tag : Nat) (rd : Bool) (s : State) : State :=
  if rd then
    match s.peer.reads.find? (fun r => r.1 = tag) with
    | some r => readFails tag r.2 true s
    | none => s
  else
    match s.peer.writes.find? (fun w => w.tag = tag && !w.posted) with
    | some w => fencesCheck (closeWrite tag (logOut { tag := tag, reason := 7, win := w.win, addr := w.addr } s))
    | none => s

/-- A FAULT_NOTICE arrives (R407). -/
def faultArrives (tag reason off : Nat) (s : State) : State :=
  match s.peer.writes.find? (fun w => w.tag = tag) with
  | some w => fencesCheck (closeWrite tag (logOut { tag := tag, reason := reason, win := w.win, addr := off } s))
  | none => s

/-- Posted writes are acknowledged up to a tag (R407). -/
def writesAcked (tag : Nat) (s : State) : State :=
  let l := s.peer.writes.filter (fun w => w.posted && decide ((tag + 1024 - w.tag) % 1024 < 512))
  fencesCheck (forAll l (fun w => closeWrite w.tag) s)

/-- A completion arrives with a flit (R400, R403, R407). -/
def cplArrives (w0 w1 : Word) (s : State) : State :=
  let tag := field w0 4 10
  let reason := field w0 14 4
  match field w0 0 4 with
  | 1 =>
    match s.peer.reads.find? (fun r => r.1 = tag) with
    | none => s
    | some r =>
      if reason ≠ 0 then readFails tag r.2 false s
      else emit (.readData 0 r.2 (mkD 0#32 w1)) (modPeer (fun p => { p with reads := p.reads.filter (fun x => x.1 ≠ tag) }) s)
  | 2 =>
    match s.peer.writes.find? (fun w => w.tag = tag && !w.posted) with
    | none => s
    | some w =>
      let s1 := whenDo (decide (reason ≠ 0)) (logOut { tag := tag, reason := reason, win := w.win, addr := w.addr }) s
      fencesCheck (closeWrite tag s1)
  | 3 => writesAcked tag s
  | _ => s

/-! ## Locks (R404 to R406) -/

/-- ACQUIRE is written (R404); a request that finds no room waits, as one that waits for its backoff does (R392). -/
def lockAcquire (n : Nat) (s : State) : State :=
  if s.peer.lockWin = some n then s
  else if s.peer.lockWin.isSome ∨ bit (winCfg s n) 2 = false then setLock n 5 s
  else if peerUp s = false then setLock n 6 s
  else
    let s1 := modPeer (fun p => { p with lockWin := some n, lockTry := mapDel p.lockTry n, lockWait := !npRoom 1 s }) s
    whenDo (npRoom 1 s) (sendReq [reqWord 3 0 n false true]) (setLock n 1 s1)

/-- RELEASE is written (R404). -/
def lockRelease (n : Nat) (s : State) : State :=
  if s.peer.lockWin = some n then
    let s1 := setLock n 0 (modPeer (fun p => { p with lockWin := none, lockWait := false }) s)
    if s.peer.lockWait then s1
    else if reqRoom s then sendReq [reqWord 4 0 n false true] s1
    else modPeer (fun p => { p with releaseDue := some n }) s1
  else s

/-- The partner's lock request arrives (R404, R405). -/
def lockAsked (n : Nat) (s : State) : State :=
  if peerUp s = false then s
  else if (s.peer.lockWin.any (fun w => decide (lockState s w = 1))) && !s.rank then sendCpl [cplWord 5 0 0] s
  else sendCpl [cplWord 4 0 0] (modPeer (fun p => { p with inLock := some n }) s)

/-- A lock request of this device is answered (R404, R405). -/
def lockAnswered (granted : Bool) (s : State) : State :=
  match s.peer.lockWin with
  | none => s
  | some n =>
    if lockState s n ≠ 1 ∨ s.peer.lockWait then s
    else if granted then count (ctPb 36) 1 (setLock n 2 s)
    else
      let a := mapGet (dflt 0) s.peer.lockTry n + 1
      let s1 := count (ctPb 37) 1 (modPeer (fun p => { p with lockTry := mapSet (dflt 0) p.lockTry n a }) s)
      if max 1 (s.rf 0xC010 8 4) ≤ a then
        pbCause 8 (count (ctPb 38) 1 (setLock n 3 (modPeer (fun p => { p with lockWin := none }) s1)))
      else modPeer (fun p => { p with lockWait := true }) s1

/-- The backoff of a refused request ends (R405). -/
def lockAgain (s : State) : State :=
  match s.peer.lockWin with
  | none => s
  | some n =>
    if s.peer.lockWait ∧ npRoom 1 s then sendReq [reqWord 3 0 n false true] (modPeer (fun p => { p with lockWait := false }) s)
    else s

/-- A lock is broken by its target (R406): the partner's here, or this device's own there. -/
def lockBroken (own : Bool) (s : State) : State :=
  if own then
    match s.peer.lockWin with
    | some n =>
      if lockState s n = 2 then
        pbCause 9 (count (ctPb 39) 1 (setLock n 4 (modPeer (fun p => { p with lockWin := none, lockFault := p.lockFault.filter (· ≠ n) ++ [n] }) s)))
      else s
    | none => s
  else modPeer (fun p => { p with inLock := none }) s

/-! ## Link state (R390, R393) -/

/-- The link goes down (R393). -/
def linkFalls (s : State) : State :=
  let p := s.peer
  let lost := p.sent.flatMap (fun e => e.2.map (fun x => x.2.1)) ++ p.txq.filterMap (fun w => w.2.map (·.2))
  let half := (p.rx.filter (fun e => e.2 ≠ [])).length
  let s1 := modPeer (fun p => { p with st := 0, retraining := false, txSeq := 0, rxSeq := 0, unacked := [], replays := 0,
                                       nak := false, credit := [], kept := [], ret := [], cplq := [], rx := [], origin := [], sent := [],
                                       txq := [], inLock := none, inUnacked := 0, lockWin := none, lockWait := false, releaseDue := none,
                                       reads := [], writes := [] }) s
  let s2 := forAll lost (fun r => dropRef r.addr) (count (ctPb 24) half (count (ctPb 23) lost.length s1))
  let s3 := forAll p.writes (fun w s => closeWrite w.tag (logOut { tag := w.tag, reason := 5, win := w.win, addr := w.addr } s)) s2
  let s4 := forAll p.reads (fun r => readFails r.1 r.2 true) s3
  let s5 := match p.lockWin with
    | some n => setLock n 6 s4
    | none => s4
  let fences := (s5.cmds.filter (fun c => c.op = 7 && c.started && c.done.isNone)).map (·.idx)
  let s6 := forAll fences (fun i => doneCmd i 9 0#32 0#32) s5
  pbCause 1 (count (ctPb 21) 1 (count (ctPb 41) fences.length s6))

/-- The link goes DOWN when nothing has been received for 1 µs while it is UP, or a retrain fails (R393). -/
def linkDownNow (s : State) : State := if peerUp s ∨ s.peer.retraining then linkFalls s else s

/-- Training ends (R390): the partner's rank, and the lanes that trained. -/
def linkTrained (far fl0 fl1 : Bool) (s : State) : State :=
  if s.rb 0xC000 0 = false ∨ peerUp s ∨ s.awake = false then s
  else
    let fail := fun (s : State) => if s.peer.retraining then linkFalls s else modPeer (fun p => { p with st := 0 }) s
    if far = s.rank then fail (pbCause 3 s)
    else if !(fl0 && fl1) ∧ ((!fl0 ∧ !fl1) ∨ s.rb 0xC000 1 = false) then fail s
    else
      let two := fl0 && fl1
      let again := s.peer.retraining
      let s1 := modPeer (fun p => { p with st := if two then 2 else 3, far := far, retraining := false, replays := 0 }) s
      let s2 := if again then forAll s1.peer.unacked (fun f s => emit (.flit f) s) s1
        else
          let cr : SMap Nat := (List.range 10).map (fun k => (k, if k < 8 then 64 else 32))
          modPeer (fun p => { p with txSeq := 0, rxSeq := 0, nak := false, credit := cr }) s1
      let s3 := whenDo (!two) (fun s => pbCause 2 (count (ctPb 22) 1 s)) s2
      whenDo s3.peer.bootWait (linkFlit 4) (pbCause 0 (linkFlit 1 s3))

/-- The link retrains (R390, R391). -/
def linkRetrains (s : State) : State :=
  if peerUp s then count (ctPb 20) 1 (modPeer (fun p => { p with st := 1, retraining := true }) (linkFlit 3 s)) else s

/-- A write of PB_CTRL (R390, R411). -/
def wrPbCtrl (v : Word) (s : State) : State :=
  let s1 := s.setReg 0xC000 (v &&& 3#32)
  let s2 := if bit v 0 ∧ s1.peer.st = 0 then modPeer (fun p => { p with st := 1 }) s1
    else if bit v 0 = false ∧ peerUp s1 then linkFalls s1
    else if bit v 0 = false then modPeer (fun p => { p with st := 0 }) s1
    else s1
  if bit v 2 then linkRetrains s2 else s2

/-! ## Flits (R391, R392, R394) -/

/-- A replay from the first unacknowledged flit (R391). -/
def replay (s : State) : State :=
  match peerUp s, s.peer.unacked with
  | false, _ => s
  | true, [] => s
  | true, l =>
    let n := s.peer.replays + 1
    let s1 := count (ctPb 19) 1 (forAll l (fun f s => emit (.flit f) s) (modPeer (fun p => { p with replays := n }) s))
    if 8 ≤ n then linkRetrains s1 else s1

/-- The acknowledged flits leave (R391). -/
def flitsAcked (ack : Nat) (s : State) : State :=
  let l := s.peer.unacked
  let sq := fun (f : Flit) => field f.hdr 2 10
  if l.any (fun f => sq f = ack) then
    let rest := (l.dropWhile (fun f => sq f ≠ ack)).drop 1
    modPeer (fun p => { p with unacked := rest, replays := 0 }) s
  else s

/-- A peer talker is paused, or in PEER mode its class is refused, or the bobbin refused a push (R397); the mode is that of the
last frame received. -/
def creditHeld (s : State) (k : Nat) : Bool :=
  mapGet (dflt false) s.blocked (0x80 + k) ||
  (nbit (s.mrg (engOf s (0x80 + k) k)).refused (tkPrio s (0x80 + k)) && !mapGet (dflt false) s.peer.origin k) ||
  decide (mapGet (dflt []) s.peer.frames k ≠ [])

/-- Freed receive buffers become credits to return (R392, R397). -/
def creditsBack (s : State) : State :=
  forAll ((mapKeys s.peer.kept).filter (fun k => !creditHeld s k)) (fun k s =>
    modPeer (fun p => { p with ret := mapSet (dflt 0) p.ret k (mapGet (dflt 0) p.ret k + mapGet (dflt 0) p.kept k), kept := mapDel p.kept k }) s) s

/-- The words of a sub-channel taken into frames (R394): the frame in progress, and the complete ones. -/
def takeFrames : List Word → List Word → List (List Word) → List Word × List (List Word)
  | cur, [], done => (cur, done)
  | [], w :: t, done => if w = 0#32 then ([], done) else takeFrames [w] t done
  | f :: cur, w :: t, done =>
    let c := f :: cur ++ [w]
    if field f 6 10 + 1 ≤ c.length then takeFrames [] t (done ++ [c]) else takeFrames c t done

/-- A SENT flit is accepted (R394, R397). -/
def sentArrives (k : Nat) (pay : List Word) (s : State) : State :=
  let (cur, fs) := takeFrames (mapGet (dflt []) s.peer.rx k) pay []
  let last := match cur with
    | f :: _ => some f
    | [] => fs.getLast?.bind List.head?
  modPeer (fun p => { p with rx := mapSet (dflt []) p.rx k cur,
                             origin := last.elim p.origin (fun f => mapSet (dflt false) p.origin k (bit f 3)),
                              kept := mapSet (dflt 0) p.kept k (mapGet (dflt 0) p.kept k + 1),
                             frames := mapSet (dflt []) p.frames k (mapGet (dflt []) p.frames k ++ fs) }) s

/-- A REQ flit is accepted; the requests themselves are commands of their own, but for a release (R392, R404). -/
def reqArrives (w0 : Word) (s : State) : State :=
  let s1 := modPeer (fun p => { p with ret := mapSet (dflt 0) p.ret 8 (mapGet (dflt 0) p.ret 8 + 1) }) s
  if field w0 0 4 = 4 then modPeer (fun p => { p with inLock := none }) s1 else s1

/-- A flit of link control is received (R390, R409). -/
def linkArrives (w0 : Word) (s : State) : State :=
  let s1 := count (ctPb 17) 1 s
  match w0.toNat with
  | 3 => linkRetrains s1
  | 4 => pbCause 11 s1
  | _ => s1

/-- The contents of an accepted flit (R392). -/
def flitAccepted (vc k : Nat) (pay : List Word) (s : State) : State :=
  let s1 := count (ctPb 17) 1 (modPeer (fun p => { p with rxSeq := (p.rxSeq + 1) % 1024, nak := false }) s)
  match vc with
  | 0 => sentArrives k pay s1
  | 1 => reqArrives (wordAt pay 0) s1
  | _ => cplArrives (wordAt pay 0) (wordAt pay 1)
           (modPeer (fun p => { p with ret := mapSet (dflt 0) p.ret 9 (mapGet (dflt 0) p.ret 9 + 1) }) s1)

/-- What waits for credits or acknowledgements goes as far as it can (R392). -/
def pumpAll (s : State) : State := cplPump s.peer.cplq.length (releaseGo (peerPump 64 s))
/-- The acknowledgement of a flit's header, and its NAK (R391). -/
def flitHeader (hdr : Word) (s : State) : State :=
  let s1 := flitsAcked (field hdr 12 10) s
  pumpAll (if bit hdr 22 then replay s1 else s1)
/-- The credits that a flit returns; a discarded flit returns them when it is sent again (R391, R392). -/
def flitCredits (hdr : Word) (s : State) : State :=
  let sel := field hdr 23 5
  pumpAll (if sel < 10 then setCredit sel (peerCredit s sel + field hdr 28 4) s else s)

/-- A flit is received (R391). -/
def flitIn (crcOk : Bool) (hdr : Word) (pay : List Word) (k : Nat) (s : State) : State :=
  if peerUp s = false ∨ s.awake = false then s
  else if crcOk = false then linkFlit 2 (modPeer (fun p => { p with nak := true }) (count (ctPb 18) 1 s))
  else
    let vc := field hdr 0 2
    let seq := field hdr 2 10
    let s1 := flitHeader hdr s
    if vc = 3 then linkArrives (wordAt pay 0) (flitCredits hdr s1)
    else if seq = s1.peer.rxSeq then linkFlit 2 (creditsBack (flitAccepted vc k pay (flitCredits hdr s1)))
    else if (s1.peer.rxSeq + 1024 - seq) % 1024 ≤ 512 then linkFlit 2 s1
    else linkFlit 2 (modPeer (fun p => { p with nak := true }) s1)

/-- A complete frame becomes a record (R395 to R398). -/
def frameRecord (k : Nat) (f : List Word) (s : State) : State × Bool :=
  let fw := wordAt f 0
  let h := (f.drop 1).take 6
  let n := field fw 6 10
  let pw := (f.drop 7).take (n - 7)
  let tr := wordAt f n
  let h0 := wordAt h 0
  let poison := bit h0 16
  if poison = false ∧ trailerOf h pw ≠ tr then (pbCause 4 (count (ctPb 25) 1 s), true)
  else
    let origin := bit fw 3
    let fmt := if field h0 24 8 = 0x30 then 0x38 else field h0 24 8
    let t := if origin then 0x800 + field (wordAt h 1) 20 12 % 0x800 else 0x80 + k
    let seq := if origin then field (wordAt h 1) 0 20 else s.seqOf t
    let prio := if origin then field h0 21 3 else tkPrio s t
    let nh := [mkH0 fmt prio origin false poison (field h0 0 16), mkH1 t seq] ++ h.drop 2
    let x : RecMeta := { sub := k, chkFail := bit fw 4, repaired := bit fw 5, noRefuse := !origin,
                         hits := 0 }
    match addRecord nh ((wordsBytes pw).take (field h0 0 16)) x s with
    | (_, .full) => (s, false)
    | (s1, _) =>
      let s2 := if origin then s1 else s1.setSeq t (seq + 1)
      (count (ctPb (8 + k)) 1 (whenDo poison (count (ctPb 26) 1) s2), true)

/-- The first complete frame of a sub-channel becomes a record (R395): when the bobbin refuses it, it waits (R397). -/
def frameIn (k : Nat) (s : State) : State :=
  match mapGet (dflt []) s.peer.frames k with
  | [] => s
  | f :: t =>
    if s.awake = false then s
    else
      match frameRecord k f s with
      | (s1, true) => creditsBack (modPeer (fun p => { p with frames := mapSet (dflt []) p.frames k t }) s1)
      | (_, false) => s

/-- The last flit of a sub-channel's oldest sentence has been acknowledged (R394). -/
def frameAcked (k : Nat) (s : State) : State :=
  match mapGet (dflt []) s.peer.sent k with
  | [] => s
  | (lq, r, q) :: t =>
    if s.peer.unacked.any (fun f => field f.hdr 2 10 = q) then s
    else
      count (ctPb k) 1 (delivered lq r (modPeer (fun p => { p with sent := mapSet (dflt []) p.sent k t }) s))

end Sys2Proof.Machine
end

