-- ==== Sys2Proof/Machine/Host.lean ====
section
/-!
DEFINITION. The host interface (R357 to R383): rings, doorbells, fetches, resets, and the commands of the command ring.
-/
namespace Sys2Proof.Machine

/-! ## Access faults (R359, R364) -/

/-- BAD_ACCESS (R359). -/
def badAccess (s : State) : State := raise 0x1928 4 (count (ctHi 335) 1 s)
/-- READ_ERR, and CPL_TIMEOUT when the read was not completed in time (R358). -/
def readFault (timeout : Bool) (s : State) : State :=
  whenDo timeout (fun s => raise 0x1928 2 (count (ctHi 337) 1 s)) (raise 0x1928 1 (count (ctHi 336) 1 s))

/-! ## Rings (R365 to R368) -/

/-- The owner of a ring in the selvage (SV_RING_OWN, SV_CMD): 8 to 15 none. -/
def ringOwner (s : State) (r : Nat) : Nat := if r < 64 then s.rf (0xF060 + 4 * (r / 8)) (4 * (r % 8)) 4 else s.rf 0xF048 0 3
/-- HI_GEN_AGREED.AGREED (R368). -/
def genAgreed (s : State) : Nat := if s.genOffered then min 3 (s.rf 0x10 0 2) else 0
/-- Descriptors of a ring. -/
def ringSize (g : Ring) : Nat := 2 ^ g.size
/-- (a − b) mod 2^32. -/
def dist (a b : Word) : Nat := (a - b).toNat

/-- The live generation that an activation would latch (R365); CMD and CPL have no generation lock. -/
def liveGen (s : State) (r : Nat) (v : Word) : Nat := if r < 64 ∧ bit v 7 then field v 5 2 else genAgreed s
/-- An activation is refused (R365). -/
def activateBad (s : State) (r : Nat) (v : Word) : Bool :=
  let g := liveGen s r v
  decide (g = 0 ∨ genAgreed s < g ∨ field v 0 5 < 4 ∨ 16 < field v 0 5) || !s.wbWritten ||
    (decide (r = 64) && !(s.ring 65).active)

/-- A write of HI_RING_CFG (R365). -/
def wrRingCfg (r : Nat) (v : Word) (s : State) : State :=
  let o := ringOff r + 8
  let cur := s.reg o
  let g := s.ring r
  if g.active then
    let s1 := s.setReg o (setField cur 8 1 (field v 8 1))
    whenDo (decide (field v 0 8 ≠ field cur 0 8)) badAccess s1
  else if bit v 8 = false then s.setReg o (v &&& 0x1FF#32)
  else if activateBad s r v then ringErr r 6 0 (s.setReg o (v &&& 0xFF#32))
  else
    let base := (s.reg (ringOff r + 4)).toNat * 0x100000000 + (s.reg (ringOff r)).toNat
    let g' : Ring := 
      { active := true, gen := liveGen s r v, base := base, size := field v 0 5, owner := g.owner, reads := g.reads }
    (s.setReg o (v &&& 0x1FF#32)).setRing r g'

/-- A write of a ring's base (R365). -/
def wrRingBase (r o : Nat) (v : Word) (s : State) : State :=
  if (s.ring r).active then badAccess s else s.setReg o (if o % 0x20 = 0 then v &&& 0xFFFFFFC0#32 else v)

/-- A write of HI_WB_BASE (R367). -/
def wrWbBase (hi : Bool) (v : Word) (s : State) : State :=
  if s.rings.any (fun e => e.2.active) then badAccess s
  else if hi then { s.setReg 0x1934 v with wbWritten := true }
  else s.setReg 0x1930 (v &&& 0xFFFFFFC0#32)

/-- A write of HI_GEN_OFFER (R368). -/
def wrGenOffer (v : Word) (s : State) : State := { s.setReg 0x10 (v &&& 3#32) with genOffered := true }

/-- The ring of a doorbell slot (R363). -/
def slotRing (o : Nat) : Option Nat :=
  if o % 8 ≠ 0 then none
  else if o < 0x200 then some (o / 8)
  else if o = 0x200 then some 64
  else if o = 0x208 then some 65
  else none

/-- A doorbell value is valid (R366). -/
def dbValid (g : Ring) (r : Nat) (n : Word) : Bool :=
  if r = 65 then decide (dist g.h n ≤ ringSize g ∧ dist n g.d ≤ ringSize g)
  else decide (dist n g.d ≤ ringSize g ∧ dist n g.h ≤ ringSize g)

/-- A doorbell that fails a test other than ownership (R364). -/
def dbBad (r : Nat) (lo : Word) (s : State) : State :=
  ringErr r 5 lo.toNat (raise 0x1928 8 (count (ctHi 325) 1 s))

/-! ## Reads of descriptors (R358, R371, R372, R374, R378) -/

/-- CPL entries that are free and not claimed by a pending command or by one whose read is outstanding (R378). -/
def cplRoom (s : State) : Bool :=
  let g := s.ring 65
  g.active && decide (dist g.h g.d + (s.cmds.filter (fun c => !c.mute)).length + (s.ring 64).reads < ringSize g)

/-- A host-transmit ring fetches no further: it is paused, its class is refused, or a descriptor is kept at its head (R204, R207,
R371). -/
def htStops (s : State) (r : Nat) : Bool :=
  mapGet (dflt false) s.blocked (0x60 + r) || nbit (s.mrg (engOf s (0x60 + r) 0)).refused (tkPrio s (0x60 + r)) ||
    decide ((s.ring r).ht ≠ [])

/-- A ring has a descriptor that the device may read now (R371, R372, R374, R378). -/
def ringWants (s : State) (r : Nat) : Bool :=
  let g := s.ring r
  ringOn s r &&
    (if r < 32 then !htStops s r && decide (g.reads < 8 ∧ g.reads < dist g.h g.d)
     else if r < 64 then decide (g.hr.length + g.reads < 8 ∧ g.hr.length + g.reads < dist g.h g.d)
     else decide (r = 64 ∧ g.reads < dist g.h g.d ∧ s.cmds.length + g.reads < 16) && cplRoom s)

/-- The reads that may be outstanding at once (R358). -/
def readTags (s : State) : Nat := if s.pci.extTag then 128 else 32

/-- A descriptor of a ring is read (R372). -/
def readDesc (r : Nat) (s : State) : State :=
  let g := s.ring r
  let ahead := w32 (g.reads + (if r < 32 then g.ht.length else g.hr.length))
  hostReads (descAddr g r (g.d + ahead)) (if r < 64 ∧ g.gen = 1 then 16 else 32) (s.setRing r { g with reads := g.reads + 1 })

/-- The ring whose descriptor is read next (R372): the command ring first, then the host-transmit rings in turn, one descriptor at a
time, then the host-receive rings. -/
def nextRead (s : State) : Option Nat :=
  let ks := mapKeys s.rings
  if ringWants s 64 then some 64
  else match (ks.filter (fun r => decide (r < 32 ∧ s.turn ≤ r)) ++ ks.filter (fun r => decide (r < 32 ∧ r < s.turn))).find? (ringWants s) with
    | some r => some r
    | none => (ks.filter (fun r => decide (32 ≤ r ∧ r < 64))).find? (ringWants s)

/-- At most n further descriptors are read, while a tag is free. -/
def readMore : Nat → State → State
  | 0, s => s
  | n + 1, s =>
    if readTags s ≤ s.rings.foldl (fun a e => a + e.2.reads) 0 then s
    else match nextRead s with
      | none => s
      | some r => readMore n { readDesc r s with turn := if r < 32 then (r + 1) % 32 else s.turn }

/-- The device issues the reads that it may (R358, R372). -/
def issueReads (s : State) : State := if hostFetches s then readMore 128 s else s

/-- A read of a ring's descriptor ends. -/
def readEnds (r : Nat) (s : State) : State := s.setRing r { s.ring r with reads := (s.ring r).reads - 1 }

/-- The end of a RING_RESET (R382): indices and write-back slot 0. -/
def ringZero (r : Nat) (c : Cmd) (s : State) : State :=
  doneCmd c.idx 0 0#32 0#32 (wbIndex r (s.setRing r { owner := (s.ring r).owner }))

/-- A read of a ring that RING_RESET has deactivated ends: what it brought is dropped, and after the last one the reset ends (R382). -/
def readDropped (r : Nat) (s : State) : State :=
  let s1 := readEnds r s
  match s1.cmds.find? (fun c => decide (c.op = 8 ∧ field (wordAt c.w 1) 0 6 = r ∧ c.done = none) && c.started) with
  | some c => if (s1.ring r).reads = 0 then ringZero r c s1 else s1
  | none => s1

/-- A doorbell is written (R364, R366). -/
def doorbell (d o : Nat) (lo hi : Word) (s : State) : State :=
  if s.d3hot ∨ s.awake = false ∨ s.perst = false then s
  else if s.boot.done = false ∨ o % 8 ≠ 0 then badAccess s
  else match slotRing o with
    | none => s
    | some r =>
      let g := s.ring r
      if ringOwner s r ≠ d then raise 0x1928 0x10 (count (ctHi (326 + d)) 1 s)
      else if ringOn s r = false ∨ hi ≠ ~~~lo ∨ dbValid g r lo = false then dbBad r lo s
      else issueReads (count (ctHi 324) 1 (s.setRing r (if r = 65 then { g with d := lo } else { g with h := lo })))

/-- A read of a doorbell slot (R363). -/
def doorbellRead (s : State) (d o : Nat) : DWord :=
  match slotRing o with
  | none => 0#64
  | some r =>
    let g := s.ring r
    if ringOwner s r ≠ d then 0#64
    else if r = 65 then mkD g.d g.h else mkD g.h g.d

/-! ## Host-transmit rings (R369 to R372) -/

/-- The class of a host-transmit descriptor's record (R107). -/
def htClass (x : HtDesc) : Nat :=
  let w := wordAt x.w 2
  if bit w 27 then field w 24 3 else x.cap.prio

/-- Why a host-transmit descriptor is refused (R370): 0 none. -/
def htError (x : HtDesc) : Nat :=
  let w := wordAt x.w 2
  let f := field w 16 8
  if x.w ≠ [] ∧ 2048 < field w 0 16 then 1
  else if x.w ≠ [] ∧ !(decide (f = 0 ∨ f = 0x30) || (decide (f ≤ 0x22) && fmtDefined f)) then 2
  else if x.ok = false then 3
  else 0

/-- A host-transmit descriptor is consumed (R370): its write-back, then the consumer index. -/
def htConsume (r : Nat) (x : HtDesc) (st : Nat) (seq : Nat) (s : State) : State :=
  let g := s.ring r
  let good := decide (st = 0)
  let back := [w32 (st + (if good then seq * 0x1000 else 0)), if good ∧ g.gen = 3 then x.cap.h4 else 0#32,
    if good then w32 x.cap.dt else 0#32, if good then w32 (x.cap.dt / 0x100000000) else 0#32]
  let s1 := whenDo (decide (2 ≤ g.gen) && bit (wordAt x.w 2) 29)
    (hostWrites (descAddr g r g.d + 16) (wordsBytes back)) s
  let s2 := count (ctHi (5 * r)) 1 (s1.setRing r { g with d := g.d + 1#32, ht := g.ht.drop 1 })
  ringCompleted r s2

/-- The host-transmit descriptor at the head of a ring becomes a record or is refused; false when it cannot enter (R370, R371,
R207, R232). -/
def htEnter (r : Nat) (x : HtDesc) (s : State) : State × Bool :=
  let t := 0x60 + r
  let st := htError x
  let idx := (s.ring r).d.toNat
  if st ≠ 0 then (htConsume r x st 0 (ringErr r st idx (count (ctHi (5 * r + 3)) 1 s)), true)
  else
    let w := wordAt x.w 2
    let c := htClass x
    let q := s.seqOf t
    let fmt := if field w 16 8 = 0 then 0x30 else field w 16 8
    let h := [mkH0 fmt c false false (bit w 28) x.pay.length, mkH1 t q, w32 x.cap.dt, w32 (x.cap.dt / 0x100000000), x.cap.h4, wordAt x.w 3]
    if nbit (s.mrg (engOf s t 0)).refused c then (s, false)
    else match addRecord h x.pay { hits := x.cap.hits, noRefuse := true } s with
      | (_, .full) => (s, false)
      | (s1, _) => (htConsume r x 0 q (count (ctHi (5 * r + 1)) 1 (s1.setSeq t (q + 1))), true)

/-- The descriptors fetched ahead enter in ring order (R370). -/
def htDrain (r : Nat) : Nat → State → State
  | 0, s => s
  | n + 1, s =>
    match (s.ring r).ht with
    | [] => s
    | x :: _ =>
      if s.awake && s.hostUp && ringOn s r then
        match htEnter r x s with
        | (s1, true) => htDrain r n s1
        | (s1, false) => s1
      else s

/-- A host-transmit fetch completes (R370, R371): descriptor, payload, and whether the reads succeeded. The payload's reads went
out when the descriptor arrived. A ring whose EN was cleared meanwhile keeps the descriptor (R365). -/
def htFetch (r : Nat) (desc : List Word) (pay : List Byte) (ok : Bool) (s0 : State) : State :=
  let g := (s0.ring r)
  if hostFetches s0 = false ∨ g.reads = 0 then s0
  else if g.active = false then readDropped r s0
  else if 8 ≤ g.ht.length ∨ dist g.h g.d ≤ g.ht.length then s0
  else
    let len := field (wordAt desc 2) 0 16
    let cap := captureTk s0 (0x60 + r) 0 0 false
    let s := whenDo (decide (len ≤ 2048)) (hostReads ((wordAt desc 1).toNat * 0x100000000 + (wordAt desc 0).toNat) len) (readEnds r s0)
    let g := s.ring r
    let x : HtDesc := { w := desc, pay := pay.take len ++ List.replicate (min 2048 len - pay.length) 0x00#8, ok := ok, cap := cap }
    let x := { x with pay := x.pay.take 2048 }
    let s1 := whenDo (decide (htError x = 0)) (count (ctHi (5 * r + 2)) len) (s.setRing r { g with ht := g.ht ++ [x] })
    htDrain r 8 (whenDo (!ok && !desc.isEmpty) (readFault false) s1)

/-- PAUSED and the block state of the host-transmit rings and peer talkers are brought up to date (R204, R371), and descriptors
kept at a ring's head are offered again. -/
def htRefresh (s : State) : State :=
  if s.awake = false then s
  else
    let b := (List.range 40).foldl (fun (m : SMap Bool) i =>
      let t := 0x60 + i
      let k := blockMask s t
      let was := mapGet (dflt false) s.blocked t
      mapSet (dflt false) m t (decide (k ≠ 0) && blockPaused s k was)) []
    let s1 := { s with blocked := b }
    forAll (mapKeys (mapFilter (fun r g => decide (r < 32) && g.active) s1.rings)) (fun r s =>
      let s2 := htDrain r 8 s
      let g := s2.ring r
      let p := htStops s2 r
      whenDo (p && !g.paused) (count (ctHi (5 * r + 4)) 1) (s2.setRing r { g with paused := p })) s1

/-! ## Host-receive rings and moderation (R374, R376) -/

/-- A host-receive descriptor is prefetched (R374). -/
def hrFetch (r : Nat) (desc : List Word) (s : State) : State :=
  let q := 32 + r
  let g := s.ring q
  if hostFetches s = false ∨ g.reads = 0 then s
  else if g.active = false then readDropped q s
  else if 8 ≤ g.hr.length ∨ dist g.h g.d ≤ g.hr.length then s
  else s.setRing q { g with hr := g.hr ++ [desc], reads := g.reads - 1 }

/-- IMOD.TIME has passed since the first completion not yet signalled (R376). -/
def imodEnds (r : Nat) (s : State) : State :=
  let g := s.ring r
  if r ≠ 64 ∧ s.rf (ringOff r + 0x14) 16 16 ≠ 0 ∧ g.done ≠ 0 ∧ s.up? then raiseDone r (s.setRing r { g with done := 0 }) else s

/-! ## Resets and link events (R360, R361, R477) -/

/-- The registers that R360 and R472 return to reset. -/
def hostResetRegs (m : SMap Word) : SMap Word :=
  mapFilter (fun o _ => !(decide ((0x1000 ≤ o ∧ o < 0x1840) ∨ o = 0x1930 ∨ o = 0x1934 ∨ o = 0x1904 ∨ o = 0x190C ∨ o = 0x1914 ∨
    o = 0x191C ∨ o = 0x1924 ∨ o = 0x192C ∨ o = 0x404 ∨ o = 0x408 ∨ o = 0x10 ∨ o = 0x18))) m

/-- A host image transfer is rejected (R436, R439). -/
def hostImageRejected (code : Nat) (s : State) : State :=
  pcount 13 { s with boot := { s.boot with reading := none, waiting := true, error := code, result := 3 } }

/-- The host interface is reset (R360, R470, R472); a read of an image that is in progress is dropped. -/
def hostReset (s : State) : State :=
  let rings := (s.rings.map (fun e => (e.1, ({ owner := e.2.owner } : Ring)))).filter (fun e => decide (e.2 ≠ {}))
  let s := whenDo (decide (s.boot.reading = some 2)) (hostImageRejected 8) s
  count (ctHi 342) 1 { s with
    regs := hostResetRegs s.regs, rings := rings, genOffered := false, wbWritten := false, bme := false, d3hot := false,
    turn := 0, pci := { aerStatus := s.pci.aerStatus },
    latch := mapFilter (fun k _ => decide (0x20000 ≤ k)) s.latch, cmds := s.cmds.map (fun c => { c with mute := true }) }

/-- PERST_N changes its level (R477). -/
def perstTo (level : Bool) (s : State) : State :=
  if level then { s with perst := true } else if s.perst then hostReset { s with perst := false } else s

/-! ## Command fetch (R377 to R380) -/

/-- The privilege of an opcode (R380): its bit of SV_Dd.PRIV; none for the commands that need none. -/
def opPriv (op : Nat) : Option Nat :=
  match op with
  | 1 => some 0
  | 2 => some 0
  | 3 => some 1
  | 4 => some 2
  | 5 => some 2
  | 6 => some 0
  | 7 => some 2
  | _ => none

/-- The operand bits of PARAM0 that an opcode uses, and whether it takes PARAM1 (R380). -/
def opMask (op : Nat) (p0 : Word) : Nat × Nat :=
  match op with
  | 1 => (0xF, 0xFFFFFFFF)
  | 2 => (0x33, if field p0 0 2 = 0 then 0 else 0xFFFFFFFFFFFFFFFF)
  | 3 => (0x33, if field p0 0 2 = 0 then 0 else 0xFFFFFFFFFFFFFFFF)
  | 4 => (0x7, 0)
  | 5 => (0x7F, 0)
  | 6 => (0x3, 0)
  | 8 => (0x3F, 0)
  | 9 => (0x1FF, 0)
  | _ => (0, 0)

/-- Operands out of range (R380): reserved bits, or a value that the command does not define. -/
def operandBad (w : List Word) : Bool :=
  let op := field (wordAt w 0) 0 8
  let p0 := wordAt w 1
  let p1 := (mkD (wordAt w 3) (wordAt w 2)).toNat
  let m := opMask op p0
  let ang := decide ((op = 2 ∨ op = 3) ∧ 2 ≤ field p0 0 2)
  decide (field (wordAt w 0) 11 5 ≠ 0) || decide (wordAt w 7 ≠ 0#32) || !within p0 m.1 ||
    decide ((op = 1 ∧ 0x100000000 ≤ p1) ∨ (m.2 = 0 ∧ p1 ≠ 0)) || (ang && decide (field (wordAt w 2) 24 8 ≠ 0)) ||
    decide ((op = 2 ∨ op = 3) ∧ field p0 0 2 = 2 ∧ wordAt w 3 ≠ 0#32) ||
    decide (op = 1 ∧ 1048576 < (wordAt w 6).toNat) || decide (op = 4 ∧ field p0 0 2 = 3) ||
    decide (op = 5 ∧ 4 < field p0 0 3) || decide (op = 9 ∧ 0x43 < field p0 0 8)

/-- What R379, R380 and R445 answer at acceptance: the status of a refused command, none for one that may start. -/
def cmdVerdict (s : State) (w : List Word) : Option Nat :=
  let op := field (wordAt w 0) 0 8
  let d := field (wordAt w 0) 8 3
  let p0 := wordAt w 1
  if 9 < op then some 3
  else if s.rb 0xF048 (8 + d) = false then some 5
  else if (opPriv op).any (fun b => !s.rb (0xF628 + 0x40 * d) b) then some 5
  else if operandBad w then some 4
  else if op = 8 ∧ ringOwner s (field p0 0 6) ≠ d then some 5
  else if op = 9 ∧ domTalker s d (field p0 0 8) = false then some 5
  else none

/-- The read of a command descriptor that is outstanding can end: it has claimed its place among the pending commands and its CPL entry
(R378). -/
def cmdReady (s : State) : Bool :=
  let g := s.ring 64
  hostFetches s && decide (g.reads ≠ 0 ∧ g.h ≠ g.d)

/-- A command enters the pending list (R377, R378). -/
def cmdPush (w : List Word) (done : Option Nat) (s : State) : State :=
  let g := s.ring 64
  let c : Cmd := { w := w, idx := w32 s.cmdSerial, no := g.d, started := done.isSome, done := done.map (fun x => (x, 0#32, 0#32)),
                   acceptDt := s.dt }
  wbIndex 64 (count (ctHi 320) 1 ({ s with cmds := s.cmds ++ [c], cmdSerial := s.cmdSerial + 1 }.setRing 64
    { g with d := g.d + 1#32, reads := g.reads - 1 }))

/-- A command descriptor has been fetched (R378, R379, R380). -/
def cmdFetched (w : List Word) (s : State) : State := if cmdReady s then cmdPush w (cmdVerdict s w) s else s

/-- The read of a command descriptor fails (R377). -/
def cmdReadFails (s : State) : State :=
  if cmdReady s then raise 0x1900 4 (cmdPush [0xFF#32] (some 6) s) else s

/-! ## Completion (R378, R383) -/

/-- A NOP at the head of the pending commands is done (R378). -/
def nopHead (s : State) : State :=
  match s.cmds with
  | c :: _ => if c.op = 0 ∧ c.started ∧ c.done.isNone then doneCmd c.idx 0 0#32 0#32 s else s
  | [] => s

/-- The completion of a command is written (R377, R378): the CPL entry, then the producer index. -/
def cplWrite (c : Cmd) (st : Nat) (r0 r1 : Word) (s : State) : State :=
  let g := s.ring 65
  let w0 := wordAt c.w 0
  let ent := [w32 (field w0 16 16 + field w0 0 8 * 0x10000 + st * 0x1000000), r0, r1, c.no]
  let s1 := hostWrites (descAddr g 65 g.h) (wordsBytes ent) s
  let s2 := count (ctHi 323) 1 (count (ctHi (if st = 0 then 321 else 322)) 1 (s1.setRing 65 { g with h := g.h + 1#32 }))
  ringCompleted 65 (whenDo (decide (2 ≤ st)) (raise 0x1900 2) s2)

/-- Commands accepted before a host interface reset leave when they are done, without a completion (R360). -/
def muteGone (s : State) : State := nopHead { s with cmds := s.cmds.filter (fun c => !(c.mute && c.done.isSome)) }

/-- The completion of the command with a CMD index is written (R378). -/
def completeCmd (no : Word) (s0 : State) : State :=
  let s := muteGone s0
  match s.cmds.find? (fun c => decide (c.no = no) && !c.mute && c.done.isSome) with
  | none => s
  | some c =>
    match c.done with
    | none => s
    | some (st, r0, r1) =>
      if s.hostUp && ringOn s 65 then
        nopHead (cplWrite c st r0 r1 { s with cmds := s.cmds.filter (fun x => x.idx ≠ c.idx) })
      else s

/-! ## Commands (R380 to R382) -/

/-- NOP starts (R378). -/
def nopStart (s : State) : State := nopHead (startHead 0 (fun _ s => s) s)

/-- A pending stitch stands before a command in the ring (R414). -/
def stitchBefore (idx : Word) (s : State) : Bool :=
  match s.cons.stitch with
  | none => false
  | some x =>
    match x.cmd with
    | none => true
    | some i => (s.cmds.takeWhile (fun c => c.idx ≠ idx)).any (fun c => c.idx = i)

/-- A LOAD_TABLE has to wait (R414). -/
def loadWaits (idx : Word) (s : State) : Bool := s.cons.rebaste || stitchBefore idx s

/-- The pending stitch's target fell before the last LOAD_TABLE that it waited for (R414). -/
def stitchNowLate (s : State) : State :=
  match s.cons.stitch with
  | none => s
  | some x =>
    let free := match x.cmd with
      | some i => !loadsBefore i s.cmds
      | none => true
    if free && !x.ripe && x.target.any (targetDue s) then
      modCons (fun c => { c with stitch := some { x with ripe := true, status := 7 } }) s
    else s

/-- A LOAD_TABLE is carried out (R381, R383). -/
def runLoad (c : Cmd) (s : State) : State :=
  let (s1, a) := loadTables c.dom (field (wordAt c.w 1) 0 4) (wordAt c.w 2).toNat c.buf s
  let st := if c.bufOk = false ∨ a.short then 6 else if a.refused.isSome then 1 else 0
  let r1 := match a.refused with
    | some (p, x) => w32 (p % 65536 + x * 65536)
    | none => 0#32
  stitchNowLate (doneCmd c.idx st (w32 a.written) r1 (whenDo (!c.bufOk) (raise 0x1900 4) s1))

/-- The reads of a command's buffer go out (R358, R377). -/
def bufferRead (c : Cmd) (len : Nat) (s : State) : State :=
  hostReads ((wordAt c.w 5).toNat * 0x100000000 + (wordAt c.w 4).toNat) len s

/-- LOAD_TABLE starts with its buffer (R381, R414). -/
def loadStart (buf : List Word) (ok : Bool) (c : Cmd) (s0 : State) : State :=
  let s := bufferRead c (wordAt c.w 6).toNat s0
  let c1 := { c with started := true, buf := buf.take ((wordAt c.w 6).toNat / 4), bufOk := ok }
  let s1 := modCmd c.idx (fun _ => c1) (whenDo (!ok) (readFault false) s)
  if loadWaits c.idx s1 then s1 else runLoad c1 s1

/-- The LOAD_TABLE commands that waited go on in ring order (R414). -/
def loadsGo : List Cmd → State → State
  | [], s => s
  | c :: t, s =>
    if c.op = 1 ∧ c.started ∧ c.done.isNone ∧ loadWaits c.idx s = false then loadsGo t (runLoad c s) else loadsGo t s

/-- The target of a STITCH or FITTING (R93, R99): target, status, and whether it is due at once. -/
def schedTarget (w : List Word) (s : State) : Option Target × Nat × Bool :=
  let p0 := wordAt w 1
  let ch := field p0 4 2
  let ang := field (wordAt w 2) 0 24
  match field p0 0 2 with
  | 0 => (none, 0, true)
  | 1 => let t := Target.dt (mkD (wordAt w 3) (wordAt w 2)).toNat
         if targetLate s t then (some t, 7, true) else (some t, 0, false)
  | 2 => if chanLost s ch then (none, 8, true) else (some (nextAngle s ch ang), 0, false)
  | _ => let t := Target.phase ch (wordAt w 3).toNat ang (turnsBack s ch)
         if chanLost s ch then (none, 8, true) else if targetLate s t then (some t, 7, true) else (some t, 0, false)

/-- TP_CAUSE.LATE for a stitch or fitting whose target is late at acceptance (R95, R99). -/
def schedLate (st : Nat) (s : State) : State := whenDo (decide (st = 7)) (raise 0x3040 0x200000) s

/-- STITCH starts (R416, R418, R419). -/
def stitchStart (c : Cmd) (s : State) : State :=
  if s.seam.dev = 3 then doneCmd c.idx 10 0#32 0#32 s
  else if s.cons.stitch.isSome then doneCmd c.idx 2 0#32 0#32 s
  else
    let (t, st, ripe) := schedTarget c.w s
    schedLate st (modCons (fun x => { x with stitch := some { cmd := some c.idx, target := t, status := st, ripe := ripe } }) s)

/-- FITTING starts (R418, R424). -/
def fittingStart (c : Cmd) (s : State) : State :=
  if 2 ≤ s.cons.fits.length then doneCmd c.idx 2 0#32 0#32 s
  else if (wordAt c.w 6).toNat < 87552 then doneCmd c.idx 6 0#32 0#32 s
  else
    let (t, st, ripe) := schedTarget c.w s
    let bank := if s.cons.fits.any (fun f => f.bank = 0) then 1 else 0
    let f : Fit := { cmd := c.idx, target := t, status := st, ripe := ripe, bank := bank, acceptDt := c.acceptDt,
                     tag := field (wordAt c.w 0) 16 16, addr := (wordAt c.w 5).toNat * 0x100000000 + (wordAt c.w 4).toNat }
    schedLate st (modCons (fun x => { x with fits := x.fits ++ [f] }) s)

/-- A bobbin is carved above word 1,048,575 (R26). -/
def carvedHigh (s : State) : Bool :=
  s.live.any (fun e => decide (0x9000 ≤ e.1 ∧ e.1 < 0xB000 ∧ e.1 % 16 = 0) && bit e.2 20 &&
    decide (0x100000 < 64 * field e.2 0 15 + carveDepth e.2))

/-- POWER is refused with BUSY (R26, R418, R449). -/
def powerBusy (s : State) (w : Word) : Bool :=
  let st := field w 0 3
  (bit w 3 && bit w 6 && carvedHigh s) ||
  (decide (3 ≤ st) && (s.cons.stitch.isSome || decide (s.cons.fits ≠ []) || decide (s.seam.restarting ≠ 0 ∨ s.seam.dev = 1) ||
    [0, 1, 2].any (fun e => decide ((s.eng e).st = 2))))

/-- A power state is entered. -/
def enterPower (st : Nat) (s : State) : State := raise 0x2020 1 { s with pw := { s.pw with st := st, req := none } }

/-- POWER starts (R25, R448, R449). -/
def powerStart (c : Cmd) (s : State) : State :=
  let w := wordAt c.w 1
  let st := field w 0 3
  if powerBusy s w then doneCmd c.idx 2 0#32 0#32 s
  else
    let s1 := if bit w 3 then { s with pw := { s.pw with staged := some (bit w 4, bit w 5, bit w 6) } } else s
    let now := if st = 0 then s.pw.st else st
    let s2 := doneCmd c.idx 0 (w32 now) 0#32 s1
    if now = s.pw.st then s2
    else if now ≤ 2 then enterPower now s2
    else { s2 with pw := { s2.pw with req := some now } }

/-- A user record's offset of trim i (R461). -/
def userOffset (b : List Byte) (i : Nat) : Int := signed 16 (leNat ((b.drop (16 + 2 * i)).take 2))

/-- A user record of R461 from its bytes; none where MAGIC, VERSION, COUNT or CRC fails. -/
def userRecord (b : List Byte) : Option UserRec :=
  let gen := leNat ((b.drop 8).take 4)
  if b.take 4 = [0x51#8, 0x57#8, 0x4B#8, 0x43#8] ∧ byteAt b 4 = 0x01#8 ∧ leNat ((b.drop 6).take 2) = 138 ∧
      crc32c (natBytes 4 gen ++ b.take 292) = w32 (leNat ((b.drop 292).take 4)) then
    some { gen := gen, offs := (List.range 138).foldl (fun m i => mapSet (dflt 0) m i (userOffset b i)) [] }
  else none

/-- An offset lies outside R461. -/
def offsetsBad (u : UserRec) : Bool := u.offs.any (fun e => decide (2 ^ (trimWidth e.1 - 2) < e.2.natAbs))

/-- CAL_APPLY starts with its buffer (R462). -/
def calStart (buf : List Byte) (ok : Bool) (bad : Nat) (c : Cmd) (s0 : State) : State :=
  let w := wordAt c.w 1
  let mram := bit w 0
  let s := whenDo (!mram && decide (296 ≤ (wordAt c.w 6).toNat)) (bufferRead c 296) s0
  let len := (wordAt c.w 6).toNat
  let rec_ := if mram then latestSlot (validSlots bad s.pw.user) |>.map (·.2)
    else if ok = false ∨ len < 296 ∨ buf.length < 296 then none else userRecord (buf.take 296)
  let s1 := whenDo mram (slotFaults bad s.pw.user) (whenDo (!mram && !ok) (fun s => raise 0x1900 4 (readFault false s)) s)
  match rec_ with
  | none => doneCmd c.idx 6 0#32 0#32 s1
  | some u =>
    if offsetsBad u then doneCmd c.idx 4 0#32 0#32 s1
    else
      doneCmd c.idx 0 (w32 u.offs.length) 0#32
        { s1 with pw := { s1.pw with calStaged := some (u, if mram then 3 else 2, bit w 1) } }

/-- PEER_FENCE starts (R408). -/
def fenceStart (c : Cmd) (s : State) : State :=
  if peerUp s = false then count (ctPb 41) 1 (doneCmd c.idx 9 0#32 0#32 s)
  else fencesCheck (modCmd c.idx (fun x => { x with fence := s.peer.writes.map (·.tag) }) s)

/-- RING_RESET starts (R382): the ring is deactivated and its fetched descriptors are dropped; its indices become 0 now, or when its
last outstanding read has ended. -/
def ringResetStart (c : Cmd) (s : State) : State :=
  let r := field (wordAt c.w 1) 0 6
  let g := s.ring r
  let o := ringOff r + 8
  let s1 := s.setReg o (setField (s.reg o) 8 1 0)
  if g.reads = 0 then ringZero r c s1 else s1.setRing r { g with active := false, ht := [], hr := [] }

/-- A port by talker ID is in the requested service state (R277, R287, R290). -/
def serviceIs (s : State) (t : Nat) (out : Bool) : Bool := outOfService s t == out

/-- PORT_SERVICE starts (R277, R287, R290). -/
def serviceStart (c : Cmd) (s : State) : State :=
  let w := wordAt c.w 1
  let t := field w 0 8
  let out := bit w 8
  if serviceIs s t out && out then doneCmd c.idx 0 0#32 0#32 s
  else if out then
    if t < 0x30 then portOut t s else if t < 0x40 then canOut (t - 0x30) s else tsOut (t - 0x40) s
  else
    let s1 := if serviceIs s t false && !pendOut t then s
      else if t < 0x30 then portBack t s else if t < 0x40 then canBack (t - 0x30) s else tsBack (t - 0x40) s
    serviceDone t (doneCmd c.idx 0 0#32 0#32 s1)
where
  /-- The port waits for its boundary to leave service. -/
  pendOut (t : Nat) : Bool :=
    if t < 0x30 then (s.port t).oosPend else if t < 0x40 then (s.can (t - 0x30)).oosPend else (s.ts (t - 0x40)).oosPend

/-! ## Read errors (R358, R377) -/

/-- A read of a ring or command fails (R358, R370, R377): 0 to 65 a ring, 66 the buffer of the command that waits to start. -/
def hostReadFails (who : Nat) (timeout : Bool) (s : State) : State :=
  if s.hostUp = false ∨ s.awake = false then s
  else
    let s1 := readFault timeout s
    if who < 32 then htFetch who [] [] false s1
    else if who < 64 then
      (if (s1.ring who).reads = 0 then s
       else if (s1.ring who).active = false then readDropped who s1
       else ringErr who 3 (s.ring who).d.toNat (readEnds who s1))
    else if who = 64 then cmdReadFails s1
    else if who = 66 then
      match headCmd s1 with
      | some c => if c.op = 1 ∨ c.op = 6 then raise 0x1900 4 (doneCmd c.idx 6 0#32 0#32 s1) else s
      | none => s
    else s1

end Sys2Proof.Machine
end

