-- ==== Sys2Proof/Machine/Power.lean ====
section
/-!
DEFINITION. Power states, wake, MRAM, monitors (R78, R274 to R276, R448 to R466, R475 to R482). The output balls PWR_REQ and
CLKREQ_N are the pins 5 and 6 of the outputs driven.
-/
namespace Sys2Proof.Machine

/-- Power's state replaced. -/
def modPw (f : Power → Power) (s : State) : State := { s with pw := f s.pw }

/-! ## Rotated MRAM areas (R455 to R459) -/

/-- The persistent counters are written (R457). -/
def persStore (s : State) : State :=
  let (k, g) := nextSlot s.pw.pers
  modPw (fun p => { p with pers := mapIns p.pers k (g, p.pcnt) }) s

/-- The persistent counters start from the latest valid record (R457). -/
def persLoad (bad : Nat) (s : State) : State :=
  slotFaults bad s.pw.pers (modPw (fun p => { p with pcnt := ((latestSlot (validSlots bad p.pers)).map (·.2)).getD [] }) s)

/-- PERSIST_S elapses (R457). -/
def persElapsed (s : State) : State := if s.awake then persStore s else s

/-- What a slow checkpoint holds now (R458): the SEQ slots of the lowest-numbered good engine, and the emitter's written slots. -/
def slowNow (s : State) : SlowRec :=
  { seq := (s.eng ((lowestGood s).getD 0)).dyn.seq,
    cells := s.cells.foldl (fun m e => (List.range 4).foldl (fun m i =>
      let v := e.2.slot i
      if v.wr then mapIns m (4 * e.1 + i) v.val else m) m) [] }

/-- A slow checkpoint is written (R458). -/
def slowStore (s : State) : State :=
  if s.awake ∧ s.rf 0x2028 0 16 ≠ 0 then
    let (k, g) := nextSlot s.pw.slow
    modPw (fun p => { p with slow := mapIns p.slow k (g, slowNow s) }) s
  else s

/-- The latest valid slow checkpoint is loaded (R459): the SEQ slots into every engine; the cell slots count as written and stale. -/
def slowLoad (bad : Nat) (s : State) : State :=
  let s1 := slotFaults bad s.pw.slow s
  match latestSlot (validSlots bad s.pw.slow) with
  | none => s1
  | some (_, r) =>
    let s2 := forAll [0, 1, 2] (modEng · (fun g => { g with dyn := { g.dyn with seq := r.seq } })) s1
    forAll r.cells (fun e s =>
      let c := e.1 / 4
      s.setCell c ((s.cell c).setSlot (e.1 % 4) { val := e.2, wr := true, old := true })) s2

/-- Factory trims with the latest valid user record (R463). -/
def userTrims (bad : Nat) (s : State) : State :=
  let s1 := slotFaults bad s.pw.user s
  match latestSlot (validSlots bad s.pw.user) with
  | some (_, u) => applyUser u 1 s1
  | none => raise 0xF020 0x10 (modPw (fun p => { p with calLive := {}, calSrc := 0 }) s1)

/-! ## Monitors (R464, R465) -/

/-- A threshold against the temperature (R464): the event, and whether it is armed afterwards. -/
def therm (armed : Bool) (thr tj : Int) : Bool × Bool := (armed && decide (thr ≤ tj), if thr ≤ tj then false else armed || decide (tj ≤ thr - 8))

/-- The junction sensors are sampled (R464, R457). -/
def thermal (t : List (BitVec 12)) (s : State) : State :=
  if s.awake = false then s
  else
    let v := fun i => (t.getD i 0).toInt
    let k := (List.range 4).foldl (fun k i => if v k < v i then i else k) 0
    let tj := v k
    let (w, wa) := therm s.pw.warnArmed (signed 12 (s.rf 0xE014 0 12)) tj
    let (c, ca) := therm s.pw.critArmed (signed 12 (s.rf 0xE014 16 12)) tj
    let top := BitVec.ofNat 64 (max (mapGet (dflt 0#64) s.pw.pcnt 7).toNat tj.toNat)
    let s1 := modPw (fun p => { p with tj := unsigned 12 tj, sensor := k, warnArmed := wa, critArmed := ca,
                                       pcnt := mapSet (dflt 0#64) p.pcnt 7 top }) s
    let s2 := whenDo w (fun s => raise 0xE020 1 (pcount 5 s)) s1
    whenDo c (fun s => raise 0xE020 2 (pcount 6 s)) s2

/-- The supplies are checked (R465, R457). -/
def supplies (out : Nat) (s : State) : State :=
  if s.awake = false then s
  else
    let new := (bitsOf 9 out).filter (fun i => !nbit s.pw.supplyOut i)
    let s1 := modPw (fun p => { p with supplyOut := out }) s
    whenDo (decide (new ≠ [])) (raise 0xE020 4) (forAll new (fun _ => pcount 8) s1)

/-! ## Wake (R274 to R276, R450) -/

/-- The state that a wake leads to (PW_WAKE_CFG.WAKE_TO). -/
def wakeTarget (s : State) : Nat := if s.rf 0x2004 0 2 = 2 then 2 else 1

/-- The state whose wake sources count: the one the device is in, or the one that it is entering (R450). -/
def sleepState (s : State) : Nat := s.pw.req.getD s.pw.st

/-- Wake leaves NAP or HIBERNATE: PWR_REQ is asserted in HIBERNATE (R453). -/
def wakeStart (s : State) : State :=
  if s.pw.waking then s
  else if s.pw.st = 4 then emit (.pin 5 true) (modPw (fun p => { p with waking := true, pwrReq := true }) s)
  else modPw (fun p => { p with waking := true }) s

/-- A wake event (R450): source 1 port, 2 WAKE_IN, 3 host, 4 timer. -/
def wakeEvent (src port : Nat) (s : State) : State :=
  let s1 := raise 0x2020 2 (modPw (fun p => { p with lastWake := src, wakePort := if src = 1 then port else p.wakePort }) s)
  if s1.pw.req.isSome then modPw (fun p => { p with latched := some (src, port) }) s1
  else match s1.pw.st with
    | 2 => if wakeTarget s1 = 2 then s1 else enterPower 1 s1
    | 3 => wakeStart s1
    | 4 => wakeStart s1
    | _ => s1

/-- The always-on domain has power and the device has been started. -/
def alwaysOn (s : State) : Bool := !s.inReset && !s.testEn

/-- A wake source that acts in some of the states (R450). -/
def wakeAllowed (s : State) (hib : Bool) : Bool :=
  let k := sleepState s
  alwaysOn s && decide (k = 2 ∨ k = 3 ∨ (k = 4 ∧ hib = true))

/-- Ports whose wake catch starts with the oscillator (R275). -/
def catchPorts (s : State) : List Nat :=
  (List.range (if s.pw.st = 4 then 8 else 48)).filter (fun n => s.rb (apOff n 0x20) 0)

/-- A falling edge on an armed port (R274, R275). -/
def portEdge (n : Nat) (s : State) : State :=
  if wakeAllowed s (decide (n < 8)) = false ∨ s.rb (apOff n 0x20) 0 = false then s
  else
    let asleep := decide (s.pw.st = 3 ∨ s.pw.st = 4) && !s.pw.osc
    let s1 := whenDo asleep (fun s =>
      modPw (fun p => { p with osc := true })
        (modPort n (fun p => { p with waker := true })
          (forAll (catchPorts s) (fun k s => modPort k (fun p => { p with wakeCatch := true }) s) s))) s
    wakeEvent 1 n (raise (apOff n 0x24) 0x200 (raise (apOff n 0x20) 2 (modPort n (fun p => { p with line := invRx s n }) s1)))

/-- An edge of WAKE_IN (R450). -/
def wakeIn (rising : Bool) (s : State) : State :=
  if wakeAllowed s true && s.rb 0x2004 2 && (s.rb 0x2004 3 == rising) then wakeEvent 2 0 s else s

/-- A write of PW_HOST_WAKE (R450). -/
def hostWakes (v : Word) (s : State) : State :=
  if bit v 0 && s.rb 0x2004 4 && wakeAllowed s false then wakeEvent 3 0 s else s

/-- DT has reached PW_WAKE_DT (R73, R450). -/
def timerWakes (s : State) : State :=
  if wakeAllowed s false && s.rb 0x2004 5 && !s.tape.wakeDone && decide ((mkD (s.reg 0x200C) (s.reg 0x2008)).toNat ≤ s.dt) then
    wakeEvent 4 0 (modTape (fun t => { t with wakeDone := true }) s)
  else s

/-- A write of PW_WAKE_DT (R450): the new target has not fired. -/
def wrWakeDt (o : Nat) (v : Word) (s : State) : State := modTape (fun t => { t with wakeDone := false }) (s.setReg o v)

/-- The characters caught by a port go to its queue (R276). -/
def pushCaught (n : Nat) (hib : Bool) (s : State) : State :=
  let p := s.port n
  let s1 := s.setPort n { p with caught := [], wakeCatch := false, waker := false, hibDrop := 0 }
  let s2 := forAll p.caught (fun e s =>
    let (w, age, c) := e
    rxPush n w (if hib then capture s (age / 10000 * 10000) 0 (tkChan s n) false else c) s) s1
  if hib then
    let s3 := s2.setReg (apOff n 0x20) (setField (s2.reg (apOff n 0x20)) 16 16 (min 65535 p.hibDrop))
    if p.hibDrop = 0 then s3
    else raise (apOff n 0x24) 1 (count (ctAp n 10) p.hibDrop (s3.setPort n { s3.port n with ov := true }))
  else s2

/-- The enabled phase channels start in ACQUIRE (R78). -/
def chansStart (s : State) : State := forAll ([0, 1, 2, 3].filter (fun n => decide (prMode (s.reg (prOff n 0)) ≠ 0))) chanStart s

/-- The return from NAP ends (R78, R184, R276, R448). -/
def napReturn (s : State) : State :=
  if s.pw.st = 3 ∧ s.pw.waking then
    let s1 := enterPower (wakeTarget s) (modPw (fun p => { p with waking := false, osc := false }) s)
    let s2 := forAll (List.range 48) (fun n s => if s.port n = {} then s else pushCaught n false s) s1
    let s3 := cellsAfterNap (chansStart s2)
    if s3.rb 0xC000 0 then modPeer (fun p => { p with st := 1 }) s3 else s3
  else s

/-! ## Entry to NAP (R78, R276, R448, R451) -/

/-- Each transmitter finishes the character in its shifter before its clocks stop (R276). -/
def finishChars (s : State) : State := forAll (List.range 48) (fun n s => whenDo (txBusy s n) (txChar_ n none) s) s

/-- The servo enters HOLD (R78). -/
def servoHolds (s : State) : State := if s.rf 0x3020 0 2 = 0 then s else servoTo 3 s

/-- NAP is entered. -/
def napEnter (s : State) : State :=
  let s := finishChars s
  let chan := fun (n : Nat) (s : State) =>
    let st := chanSt (s.chan n)
    if st = 1 ∨ st = 2 ∨ st = 3 then raise 0x3040 (2 ^ (4 + n)) (enterLost n 4 s) else s
  let s1 := servoHolds (forAll [0, 1, 2, 3] chan s)
  let s2 := forAll (mapKeys s1.early) (fun t => packetEnd t none) s1
  let s3 := euDown 1 (euDown 0 s2)
  let s4 := if s3.peer.st = 0 then s3 else linkFalls s3
  let s5 := forAll [0, 1, 2, 3] (fun n s => s.setTs n { s.ts n with beacon := false }) s4
  let s6 := enterPower 3 s5
  if s6.pw.latched.isSome then wakeStart (modPw (fun p => { p with latched := none }) s6) else s6

/-- The entry to NAP that a POWER command asked for is complete (R451). -/
def napEntered (s : State) : State :=
  if s.pw.req = some 3 ∧ s.awake ∧ (List.range 22).all (fun i => (s.eg (48 + i)).cur.isNone) then napEnter s else s

/-! ## HIBERNATE (R452 to R454) -/

/-- RW and RWB fields of the registers outside the host interface pages (R452). -/
def savedRegs (m : SMap Word) : SMap Word :=
  m.foldl (fun a e =>
    let i := (regInfo e.1).getD {}
    let k := w32 i.rw
    if e.1 < 0x2000 then a else mapSet regReset a e.1 ((e.2 &&& k) ||| (w32 i.reset &&& ~~~k))) []

/-- The context fields that registers write (R452). -/
def savedCtx (c : CkCtx) : CkCtx :=
  { cfg := c.cfg, poly := c.poly, init := c.init, xor := c.xor, bind := c.bind, run := c.run, runHi := c.runHi, exp := c.exp }

/-- Entries of a map that are not empty. -/
def fullMaps (m : SMap (SMap Word)) : SMap (SMap Word) := mapFilter (fun _ v => decide (v ≠ [])) m

/-- The hibernate image now (R452). -/
def hibImage (s : State) : HibImage :=
  { regs := savedRegs s.regs, live := s.live, ctx := s.cuCtx.map (fun e => (e.1, savedCtx e.2)),
    lin := fullMaps (s.ports.map (fun e => (e.1, e.2.lin))), flt := fullMaps (s.cans.map (fun e => (e.1, e.2.flt))),
    bank := bankOfDev s s.cons.liveBank, owners := s.cons.owners,
    dyn := [0, 1, 2].foldl (fun m e => mapSet (dflt {}) m e { (s.eng e).dyn with pool := [] }) [],
    engSt := [0, 1, 2].foldl (fun m e => mapSet (dflt 0) m e (s.eng e).st) [],
    seams := (s.seam.sa, s.seam.sb), seqs := s.seqs, dt := s.dt, freq := s.tape.freq }

/-- What outlives a reset of the core: the waiting commands, the levels at the balls, the outputs so far, the test access port,
the straps, and what MRAM holds. -/
def coreReset (s : State) : State :=
  { pending := s.pending, inReset := s.inReset, testEn := s.testEn, perst := s.perst, rank := s.rank, out := s.out,
    freeCtr := s.freeCtr, tap := s.tap,
    pw := { slow := s.pw.slow, user := s.pw.user, pers := s.pw.pers, hib := s.pw.hib, vio33 := s.pw.vio33, brown := s.pw.brown,
            pwrReq := s.pw.pwrReq, clkReq := s.pw.clkReq } }

/-- Registers that the always-on domain keeps in HIBERNATE: power and wake, and the blocks of AP0 to AP7. -/
def alwaysOnRegs (m : SMap Word) : SMap Word :=
  mapFilter (fun o _ => decide ((0x2000 ≤ o ∧ o < 0x2040) ∨ (0x4000 ≤ o ∧ o < 0x4400))) m

/-- The receive settings of AP0 to AP7, which the always-on domain keeps. -/
def alwaysOnPorts (m : SMap Port) : SMap Port :=
  (mapFilter (fun n _ => decide (n < 8)) m).foldl (fun a e =>
    mapSet (dflt {}) a e.1 { rxChar := e.2.rxChar, rxRate := e.2.rxRate }) []

/-- Nothing is in flight in the engines, and every egress point stands at a sentence boundary (R452). -/
def hibReady (s : State) : Bool :=
  [0, 1, 2].all (fun e => decide ((s.eng e).inbox = [] ∧ (s.eng e).align = [] ∧ (s.eng e).parked = [])) && decide (s.fan = []) &&
    s.egress.all (fun e => e.2.cur.isNone)

/-- HIBERNATE is entered (R452, R457): the image is written and PWR_REQ falls. -/
def hibEnter (s : State) : State :=
  let s1 := persStore (pcount 1 (finishChars s))
  let c := coreReset s1
  let s2 := { c with regs := alwaysOnRegs s1.regs, ports := alwaysOnPorts s1.ports, boot := s1.boot, tap := {},
                     pw := { c.pw with st := 4, hib := some (hibImage s1), lean := s1.pw.lean, coarse := s1.pw.coarse,
                                       store4 := s1.pw.store4, pwrReq := false, clkReq := false,
                                       lastWake := s1.pw.lastWake, wakePort := s1.pw.wakePort },
                     seam := { split := s1.seam.split, profiled := s1.seam.profiled },
                     peer := { rank := s1.peer.rank } }
  let s3 := emit (.pin 6 true) (emit (.pin 5 false) s2)
  if s1.pw.latched.isSome then wakeStart s3 else s3

/-- The entry to HIBERNATE that a POWER command asked for is complete (R452). -/
def hibEntered (s : State) : State := if s.pw.req = some 4 ∧ s.awake ∧ hibReady s then hibEnter s else s

/-- PWR_GOOD has not come in time (R453). -/
def pmicLate (s : State) : State :=
  if s.pw.st = 4 ∧ s.pw.waking then
    emit (.pin 5 false) (modPw (fun p => { p with waking := false, osc := false, pwrReq := false, pmicMiss := true }) s)
  else s

/-- The engines take the image's state: the dynamic state, both banks the live bank (R453); a retired engine stays so (R353). -/
def hibEngines (im : HibImage) (s : State) : State :=
  forAll [0, 1, 2] (fun e => modEng e (fun g =>
    { g with st := (let st := mapGet (dflt 0) im.engSt e; if st = 3 then 3 else 0),
             dyn := mapGet (dflt {}) im.dyn e })) (setBanks 0 im.bank (setBanks 1 im.bank s))

/-- A checkpoint cut and committed at index 0 of each merger (R453). -/
def hibCut (s : State) : State :=
  { s with ckpts := (mergers s).foldl (fun m k =>
      mapIns m k { idx := 0, dyn := (s.eng (if s.split then k else (lowestGood s).getD 0)).dyn, parked := [], slot := k }) [] }

/-- A port after HIBERNATE: the settings of its registers, and its LIN table. -/
def hibPort (im : HibImage) (n : Nat) (s : State) : State :=
  let p := s.port n
  let c := s.reg (apOff n 4)
  let r := s.reg (apOff n 8)
  s.setPort n { p with rxChar := c, rxRate := r, txChar := c, txRate := r, lin := mapGet (dflt []) im.lin n }

/-- The device resumes from a good image (R78, R184, R241, R353, R453, R454, R463). -/
def hibResume (bad : Nat) (im : HibImage) (s : State) : State :=
  let woke := s.regs.filter (fun e => decide (e.1 = 0x2020) || (decide (0x4000 ≤ e.1) && decide (e.1 % 0x80 = 0x20 ∨ e.1 % 0x80 = 0x24)))
  let s1 : State := { s with
    regs := woke.foldl (fun m e => mapSet regReset m e.1 e.2) im.regs, live := im.live, cuCtx := im.ctx, seqs := im.seqs,
    cans := im.flt.map (fun e => (e.1, { flt := e.2 })),
    seam := { s.seam with sa := im.seams.1, sb := im.seams.2 },
    cons := { owners := im.owners },
    tape := { ofs := Int.ofNat im.dt, freq := im.freq } }
  let s2 := hibCut (hibEngines im s1)
  let s2 := whenDo s2.seam.profiled (fun s => s.setReg 0x800C (setField (s.reg 0x800C) 0 17 (ckptPeriod s))) s2
  let s3 := pcount 2 (persLoad (bad / 0x10000) (userTrims (bad / 0x100) s2))
  let s4 := forAll (List.range 48) (hibPort im) s3
  let s5 := chansStart s4
  let s6 := if s5.rf 0x3020 0 2 = 0 then s5 else servoTo 1 s5
  let s7 := regrid (forAll [0, 1, 2, 3] (fun n s =>
    s.setStrobe n { s.strobe n with dt := mkD (s.reg (poOff n 0x14)) (s.reg (poOff n 0x10)) }) s6)
  let s8 := forAll [0, 1, 2, 3] (fun n s => if poMode s n = 2 then s.setStrobe n { s.strobe n with next := poNext s n s.dt } else s) s7
  let s9 := forAll ((bankCells im.bank).filter (cellEn s8)) cellNew s8
  let s10 := wrPbCtrl (s9.reg 0xC000) { s9 with
    rings := if s9.rb 0xF000 0 then (List.range 66).foldl (fun m r => mapSet (dflt {}) m r { owner := ringOwner s9 r % 8 }) [] else [] }
  let s11 := whenDo s10.pw.pmicMiss (raise 0x2020 0x10) (raise 0x3040 (0x1000000) s10)
  let s12 := modPw (fun p => { p with hib := none, waking := false, osc := false, pmicMiss := false, clkReq := true, st := 1 }) s11
  let s13 := forAll (List.range 8) (pushCaught · true) s12
  emit (.pin 6 false) (raise 0x2020 4 (enterPower (wakeTarget s13) s13))

/-! ## Reset (R432, R475, R476, R481) -/

/-- The device is held in reset: everything but MRAM is lost. -/
def toReset (s : State) : State := { coreReset s with inReset := true }

/-- RESET_N is low past the glitch filter (R476, R478). -/
def resetLow (s : State) : State := toReset s
/-- TEST_EN changes its level (R475). -/
def testEnTo (level : Bool) (s : State) : State := if level then { toReset s with testEn := true } else { s with testEn := false }
/-- VDD falls with RESET_N high outside HIBERNATE (R481). -/
def brownedOut (s : State) : State :=
  if alwaysOn s ∧ s.pw.st ≠ 4 then modPw (fun p => { p with brown := true }) (toReset s) else s
/-- VAON fails (R481): the always-on domain is reset too. -/
def vaonFails (s : State) : State :=
  let c := toReset s
  { c with tap := {}, pw := { slow := c.pw.slow, user := c.pw.user, pers := c.pw.pers, hib := c.pw.hib, pwrReq := false } }
/-- VAON comes into range (R480). -/
def vaonUp (s : State) : State :=
  if s.pw.pwrReq then s else emit (.pin 5 true) (modPw (fun p => { p with pwrReq := true }) s)

end Sys2Proof.Machine
end

