-- ==== Sys2Proof/Machine/Boot.lean ====
section
/-!
DEFINITION. The boot controller (R432 to R444, R409): cold boot, images and their checks, the boot script, the selvage lock.
-/
namespace Sys2Proof.Machine

/-- The boot controller's state replaced. -/
def modBoot (f : Boot → Boot) (s : State) : State := { s with boot := f s.boot }
/-- The last boot step reached (R442). -/
def bootStage (k : Nat) (s : State) : State := modBoot (fun b => { b with stage := max b.stage k }) s

/-! ## Images (R435, R436) -/

/-- A little-endian field of an image. -/
def imgField (b : List Byte) (o n : Nat) : Nat := leNat ((b.drop o).take n)
/-- An image length within R435. -/
def imgLenOk (n : Nat) : Bool := decide (512 ≤ n ∧ n ≤ 1048576 ∧ n % 4 = 0)
/-- The hash that the signature covers: bytes 96 to 159 count as 0 (R436). -/
def imgHash (b : List Byte) : Nat := sha256 (b.take 96 ++ List.replicate 64 0x00#8 ++ b.drop 160)

/-- The checks of R436 in order; 0 when all pass. -/
def imageError (ok : Bool) (b : List Byte) : Nat :=
  let len := imgField b 8 4
  let img := b.take len
  let slot := imgField b 5 1
  let key := (b.drop 32).take 64
  if ok = false then 8
  else if b.take 4 ≠ [0x51#8, 0x57#8, 0x4B#8, 0x49#8] ∨ byteAt b 4 ≠ 0x01#8 then 1
  else if imgLenOk len = false ∨ b.length < len ∨ len < imgField b 12 4 + imgField b 16 4 then 2
  else if 3 < slot ∨ Config.otpRevoked slot = true then 4
  else if sha256 key ≠ Config.otpKeyHash slot then 3
  else if ecdsaOk (beNat (key.take 32), beNat (key.drop 32)) (beNat ((img.drop 96).take 32)) (beNat ((img.drop 128).take 32))
      (imgHash img) = false then 5
  else if imgField b 6 2 < Config.minSvn.toNat then 6
  else if byteAt b 20 ≠ 0xB0#8 ∧ byteAt b 20 ≠ 0x00#8 then 7
  else 0

/-- One record of a boot script from its header and operands (R441). -/
def scriptRec (h : Word) (ops : List Word) : SRec :=
  let o := wordAt ops
  match field h 0 8, ops.length with
  | 0, 0 => .endRec
  | 1, 2 => if (o 0).toNat < 0x20000 then .write (o 0).toNat (o 1) else .bad
  | 2, 0 => .bad
  | 2, _ => .load (field (o 0) 0 4) (field (o 0) 8 3) (ops.drop 1)
  | 3, 4 => if (o 0).toNat < 0x20000 then .poll (o 0).toNat (o 1) (o 2) (o 3) else .bad
  | 4, 1 => .wait (o 0)
  | 5, 0 => .lock
  | 6, 0 => .stitch
  | _, _ => .bad

/-- The records of a boot script; what cannot be a record ends it (R441). -/
def scriptRecs : Nat → List Word → List SRec
  | 0, _ => [.bad]
  | _, [] => [.bad]
  | n + 1, h :: t =>
    let k := field h 16 16
    if t.length < k then [.bad] else scriptRec h (t.take k) :: scriptRecs n (t.drop k)

/-- The boot script of an image. -/
def imageScript (b : List Byte) : List SRec :=
  let bs := (b.drop (imgField b 12 4)).take (imgField b 16 4)
  scriptRecs (bs.length / 4 + 1) (bytesWords (bs.take (bs.length / 4 * 4)))

/-! ## RECOVERY (R438) -/

/-- The device waits for a transfer; BOOT_REQ is raised at the partner (R409, R438). -/
def askPartner (s : State) : State :=
  let s1 := touch 0xC000 1 <| wrPbCtrl (s.reg 0xC000 ||| 1#32) (modPeer (fun p => { p with bootWait := true, bootWords := [] }) s)
  if peerUp s1 then linkFlit 4 s1 else s1

/-- RECOVERY is entered with an error (R433, R438, R441, R443); TEST is left only by reset. -/
def bootFails (code : Nat) (s : State) : State :=
  let s1 := raise 0xF020 2 (modBoot (fun b => { b with error := code, reading := none, waiting := true, running := false, script := [] }) s)
  if s.boot.phase = 1 then s1 else askPartner (modBoot (fun b => { b with phase := 2 }) s1)

/-- Boot stops (R443). -/
def bootStops (code : Nat) (s : State) : State :=
  raise 0xF020 2 (modBoot (fun b => { b with error := code, stopped := true, reading := none, waiting := false }) s)

/-! ## The end of an image (R436 to R439, R409) -/

/-- The head of the script is looked at: a record that cannot be carried out fails it (R441). -/
def scriptLook (s : State) : State :=
  match s.boot.script with
  | .bad :: _ => bootFails 14 s
  | _ => s
/-- The record at the head is done. -/
def scriptPop (s : State) : State := scriptLook (modBoot (fun b => { b with script := b.script.drop 1 }) s)

/-- An accepted image: 0 A, 1 B, 2 host, 3 partner (R437, R459). -/
def imageTaken (src : Nat) (img : List Byte) (s : State) : State :=
  let slow := bit (w32 (imgField img 22 1)) 0
  let s1 := modBoot (fun b => { b with image := src, reading := none, waiting := false, running := true, stage := max b.stage 4,
                                       power := imgField img 21 1, script := imageScript img,
                                       result := if src = 2 then 2 else b.result }) s
  let s2 := modPeer (fun p => { p with bootWait := false, bootRes := if src = 3 then 1 else p.bootRes }) s1
  scriptLook (whenDo slow (slowLoad s.boot.slowBad) s2)

/-- A rejected image (R437, R438, R439, R409). -/
def imageRefused (src code : Nat) (s : State) : State :=
  let s1 := pcount 13 s
  match src with
  | 0 => emit (.readReq 0x100000 1048576) (modBoot (fun b => { b with error := code, reading := some 1 }) s1)
  | 1 => bootFails code s1
  | 2 => hostImageRejected code s
  | _ => modPeer (fun p => { p with bootWords := [], bootRes := 2 }) (modBoot (fun b => { b with error := code }) s1)

/-- An image read ends (R436). -/
def imageDone (ok : Bool) (img : List Byte) (s : State) : State :=
  match s.boot.reading with
  | none => s
  | some src =>
    if s.awake = false ∨ (src = 2 ∧ s.hostUp = false) then s
    else
      let b := if src = 2 then img.take (s.rf 0xF010 0 21) else img
      let e := imageError ok b
      if e = 0 then imageTaken src b s else imageRefused src e s

/-- A transfer from the host may start (R433, R438, R439). -/
def hostMayLoad (s : State) : Bool :=
  s.boot.waiting && decide (s.boot.reading = none ∧ s.peer.bootWords = []) &&
    (decide (s.boot.phase = 2 ∨ s.boot.phase = 1 ∨ s.boot.source = 1))

/-- The reads of a boot image in host memory go out (R358, R439); while Bus Master Enable is 0 they wait for it. -/
def bootReads (s : State) : State :=
  whenDo (s.hostUp && decide (s.boot.reading = some 2))
    (hostReads ((s.reg 0xF00C).toNat * 0x100000000 + (s.reg 0xF008).toNat) (s.rf 0xF010 0 21)) s

/-- GO is written to SV_BOOT_CTRL (R438, R439). -/
def bootGo (v : Word) (s : State) : State :=
  if bit v 0 = false then s
  else if hostMayLoad s = false then modBoot (fun b => { b with result := 4 }) s
  else if imgLenOk (s.rf 0xF010 0 21) = false then hostImageRejected 2 s
  else
    bootReads (modBoot (fun b => { b with result := 1, reading := some 2 }) s)

/-- A word may be appended to the partner's image (R409, R438). -/
def wordFits (s : State) : Bool :=
  s.peer.bootWait && decide (s.boot.waiting = true ∧ s.boot.reading = none ∧ s.peer.bootWords.length < 262144)

/-- An image word is appended (R409); a new image has no result yet. -/
def bootWord (w : Word) (s : State) : State :=
  modPeer (fun p => { p with bootWords := p.bootWords ++ [w], bootRes := 0 }) s

/-- DONE is written to PB_BOOT_CTRL (R409). -/
def bootWordsDone (s : State) : State :=
  if s.peer.bootWait ∧ s.boot.waiting ∧ s.boot.reading = none then
    let b := wordsBytes s.peer.bootWords
    let e := imageError true b
    if e = 0 then imageTaken 3 b s else imageRefused 3 e s
  else s

/-! ## The selvage lock (R444) -/

/-- Every ring takes its owner from the selvage (R444). -/
def ownersTaken (s : State) : State := forAll (List.range 66) (fun r s => s.setRing r { s.ring r with owner := ringOwner s r % 8 }) s
/-- SELVAGE_LOCK is set; refused when SPLIT is chosen and an engine is retired. -/
def selvageSet (s : State) : State × Bool :=
  if s.rb 0xF040 0 ∧ [0, 1, 2].any (fun e => decide ((s.eng e).st = 3)) then (s, false)
  else (ownersTaken (s.setReg 0xF000 1#32), true)

/-! ## Boot script records (R441) -/

/-- A record of the script stands at the head. -/
def scriptAt (s : State) (p : SRec → Bool) : Bool :=
  s.boot.running && s.awake && (match s.boot.script with
    | r :: _ => p r
    | [] => false)

/-- The entries in the operands of a LOAD, up to a number; one that the operands cut short counts. -/
def entryCount : Nat → List Word → Nat
  | 0, _ => 0
  | _, [] => 0
  | n + 1, hd :: t => 1 + entryCount n (t.drop (field hd 24 6))

/-- LOAD (R441): every entry must be accepted. -/
def scriptLoad (t d : Nat) (ws : List Word) (s : State) : State :=
  if scriptAt s (fun r => decide (r = .load t d ws)) = false ∨ s.cons.rebaste = true ∨ s.cons.stitch.isSome = true then s
  else
    let (s1, a) := loadTables d t (entryCount ws.length ws) ws s
    if a.refused.isSome ∨ a.short = true then bootFails 14 s1 else scriptPop (bootStage 5 s1)

/-- LOCK (R441, R444). -/
def scriptLock (s : State) : State :=
  if scriptAt s (fun r => decide (r = .lock)) then
    match selvageSet s with
    | (s1, true) => scriptPop s1
    | (s1, false) => bootFails 12 s1
  else s

/-- STITCH (R441): a NEXT_INDEX stitch. -/
def scriptStitches (s : State) : State :=
  if scriptAt s (fun r => decide (r = .stitch)) = false then s
  else if s.rb 0xF000 0 = false then bootFails 11 s
  else if s.cons.stitch.isSome then s
  else scriptPop (bootStage 6 (modCons (fun c => { c with stitch := some {} }) s))

/-- WAIT (R441). -/
def scriptWaits (us : Nat) (s : State) : State :=
  if scriptAt s (fun r => decide (r = .wait (w32 us) ∧ us < 0x100000000)) then scriptPop s else s

/-- The script has run for more than 500 ms (R441). -/
def scriptLate (s : State) : State := if s.boot.running ∧ s.awake then bootFails 13 s else s

/-- END (R314, R433, R441, R442, R454). -/
def scriptEnd (s : State) : State :=
  if scriptAt s (fun r => decide (r = .endRec)) = false then s
  else if s.rb 0xF000 0 = false then bootFails 11 s
  else
    let run := decide (s.boot.phase ≠ 1)
    let t := min 65535 (s.elapsedNs / 10000)
    let s1 := modBoot (fun b => { b with running := false, script := [], done := true, stage := 7, time := t,
                                         phase := if run then 3 else 1 }) s
    let s2 := raise 0xF020 1 (whenDo run closeOpen s1)
    let s3 := whenDo s2.pw.hibFail (fun s => raise 0x2020 8 (modPw (fun p => { p with hibFail := false }) s)) s2
    match s.boot.power with
    | 2 => enterPower 2 s3
    | 3 => modPw (fun p => { p with req := some 3 }) s3
    | _ => enterPower 1 s3

/-! ## Cold boot (R432, R443, R457, R463, R477, R479) -/

/-- The start-up test of the seams (R348, R443): bit 0 A fails, bit 1 B, bit 2 an engine lane with both. -/
def seamBist (v : Nat) (s : State) : State :=
  let a := nbit v 0
  let b := nbit v 1
  let l := nbit v 2
  let s1 := s.setReg 0x8038 (w32 (1 + 2 * b2n (!a && !b && !l) + 4 * b2n a + 8 * b2n b + 16 * b2n l))
  if (a && b) || l then bootStops 10 s1
  else if a then fenceSeam 0 s1
  else if b then fenceSeam 1 s1
  else s1

/-- Memory BIST (R443): bit 0 store or checkpoint SRAM, bits 3..1 the tables of an engine. -/
def memBist (v seams : Nat) (s : State) : State :=
  let bad := [0, 1, 2].filter (fun e => nbit v (e + 1))
  if nbit v 0 ∨ 1 < bad.length then bootStops 9 s
  else
    let s1 := forAll bad (fun e s => pcount 11 (count (ctEng e 10) 1 (smCause 3 (modEng e (fun g => { g with st := 3 }) s)))) s
    seamBist seams (bootStage 3 s1)

/-- The image source is asked (R434, R439, R409). -/
def askSource (s : State) : State :=
  match s.boot.source with
  | 0 => emit (.readReq 0 1048576) (modBoot (fun b => { b with reading := some 0 }) s)
  | 2 => askPartner (modBoot (fun b => { b with waiting := true }) s)
  | _ => modBoot (fun b => { b with waiting := true }) s

/-- A cold boot with sampled straps (R432 to R434, R442, R443). -/
def bootUp (boot : Nat) (rank : Bool) (vio33 bist seams mram : Nat) (s : State) : State :=
  let c := coreReset s
  let s1 : State := { c with
    inReset := false, rank := rank, peer := { rank := rank },
    boot := { source := boot, phase := if boot = 3 then 1 else 0, stage := 1, slowBad := mram % 0x100 },
    pw := { c.pw with hib := none, vio33 := vio33, clkReq := true, brown := false } }
  let s2 := pcount 0 (persLoad (mram / 0x10000) (emit (.pin 6 false) s1))
  let s3 := userTrims (mram / 0x100) (whenDo s.pw.brown (pcount 8) s2)
  let s4 := memBist bist seams (bootStage 2 s3)
  if s4.boot.stopped then s4 else askSource s4

/-- RESET_N is released (R432, R475, R478). -/
def coldBoots (boot : Nat) (rank : Bool) (vio33 bist seams mram : Nat) (s : State) : State :=
  if s.inReset ∧ s.testEn = false ∧ s.pw.pwrReq then bootUp boot rank vio33 bist seams mram s else s

/-- PWR_GOOD comes (R453, R454): the device resumes, or a cold boot follows. -/
def powerGood (ok : Bool) (bist seams mram : Nat) (s : State) : State :=
  if s.pw.st = 4 ∧ s.pw.waking then
    match s.pw.hib, ok with
    | some im, true => hibResume mram im s
    | _, _ =>
      let s1 := bootUp s.boot.source s.rank s.pw.vio33 bist seams mram s
      pcount 3 (modPw (fun p => { p with hibFail := true }) s1)
  else s

end Sys2Proof.Machine
end

