-- ==== Sys2Proof/Machine/Flags.lean ====
section
/-!
DEFINITION. The cause flags: the tree that gathers them, the interrupt line that they drive (R384 to R386), and the end that
every command's effect has.
-/
namespace Sys2Proof.Machine

/-! ## The interrupt tree (R384, R385) -/

/-- A cause register contributes: a set bit whose mask bit is 1; the mask follows the cause. -/
def leafOn (s : State) (o : Nat) : Bool := decide (s.reg o &&& s.reg (o + 4) ≠ 0#32)

/-- The leaf registers of a group, in the order of its HI_GSRC bits (R385). -/
def leaves (g : Nat) : List Nat :=
  match g with
  | 0 => [0x1908, 0x1910, 0x1918, 0x1920, 0x1928]
  | 1 => [0x1900]
  | 2 => (List.range 48).map (apOff · 0x24)
  | 3 => (List.range 16).map (cnOff · 0x1C)
  | 4 => (List.range 4).map (tsOff · 0x18)
  | 5 => (List.range 2).map (euOff · 0x18)
  | 6 => [0x3040]
  | 7 => [0x8F00]
  | 8 => (List.range 16).map (cuOff · 0x50) ++ [0xB800]
  | 9 => [0x8020, 0x8180, 0x81B0]
  | 10 => [0xC008]
  | 11 => [0xD030]
  | 12 => [0x2020]
  | 13 => [0x8F20, 0xE040]
  | 14 => [0xF020]
  | 15 => [0xE020]
  | _ => []

/-- Bits from a list of flags, the first in bit 0. -/
def packBits : List Bool → Nat
  | [] => 0
  | b :: t => b2n b + 2 * packBits t

/-- HI_GSRCg. -/
def gsrc (s : State) (g : Nat) : Nat := packBits ((leaves g).map (leafOn s))
/-- HI_ISUM. -/
def isum (s : State) : Nat := packBits ((List.range 16).map (fun g => decide (gsrc s g ≠ 0)))

/-- IRQ_N is to be asserted (R361, R384, R475, R477). -/
def irqWanted (s : State) : Bool :=
  s.up? && s.perst && !s.d3hot && (s.rb 0x408 1 || (s.rb 0x408 0 && decide (w32 (isum s) &&& s.reg 0x404 ≠ 0#32)))

/-! ## What every command ends with -/

/-- IRQ_N follows the interrupt tree, and each assertion is counted (R384, R386, R388). -/
def irqPin (s : State) : State :=
  let w := irqWanted s
  { whenDo (w && !s.irq) (count (ctHi 339) 1) s with irq := w }

/-- Flow control follows the records and references that a command has moved: rings and peer talkers are paused or resumed,
descriptors kept at a ring's head enter, and credits return (R204, R371, R392, R397); reads of descriptors that have become possible go out (R372). -/
def flow (s : State) : State :=
  let t := issueReads (htRefresh s)
  if peerUp t then creditsBack t else t

/-- A command of the core acts only while the core's clocks run (R448). -/
def core (f : State → State) (s : State) : State := if s.awake then f s else s

/-- The APn_DE balls follow the transmitters (R244, R262): a change of level is driven, the polarity as DE_POL says. -/
def dePins (s t : State) : State :=
  forAll (List.range 16) (fun n u => whenDo (deLevel s n != deLevel t n) (emit (.pin (16 + n) (deLevel t n))) u) t

/-- State t with the queue of s, which no command touches, with IRQ_N following the tree and APn_DE the transmitters. -/
def settle (s t : State) : State := { irqPin (dePins s t) with pending := s.pending }

/-- A command has taken state s to t. -/
def done (s t : State) : Host.Outcome State Fault Refusal := .next (settle s t)

end Sys2Proof.Machine
end

