-- ==== Sys2Proof/Machine/Registers.lean ====
section
/-!
DEFINITION. Reads and writes of BAR0 by the three agents of the register fabric (R5 to R7, R359, R362 to R364, R440, R444, R445,
R468 to R471): what each register reads as, what a read and a write of it do, and the checks in front of them. Agent 0 is the
host, 1 the partner, 2 the boot controller.
-/
namespace Sys2Proof.Machine

/-! ## What registers read as -/

/-- Whether the fetching of commands has stopped (HI_CMD_STATUS.STALLED). -/
def cmdStalled (s : State) : Bool :=
  ringOn s 64 && decide ((s.ring 64).h ≠ (s.ring 64).d) && (decide (16 ≤ s.cmds.length) || !cplRoom s)

/-- A register of a ring block. -/
def rdRing (s : State) (r k o : Nat) : Word :=
  let g := s.ring r
  match k with
  | 0x08 =>
    let paused := if r < 32 then g.paused else decide (r < 64) && g.active && decide (g.hr = [])
    w32 (field (s.reg o) 0 9 + b2n g.active * 0x200 + g.gen * 0x400 + g.owner * 0x1000 + b2n paused * 0x8000)
  | 0x0C => if r = 65 then g.d else g.h
  | 0x10 => if r = 65 then g.h else g.d
  | _ => s.reg o

/-- Pages 0 and 1. -/
def rdHost (s : State) (o : Nat) : Word :=
  if o = 0x14 then w32 (genAgreed s + 4 * b2n s.genOffered)
  else if o = 0x400 then w32 (isum s)
  else if o = 0x408 then w32 ((s.reg o).toNat % 4 + 4 * b2n s.irq)
  else if 0x440 ≤ o ∧ o < 0x4C0 then (let v := gsrc s ((o - 0x440) / 8); w32 (if o % 8 = 0 then v else v / 0x100000000))
  else if 0x1000 ≤ o ∧ o < 0x1840 then rdRing s ((o - 0x1000) / 0x20) (o % 0x20) o
  else if o = 0x1938 then w32 (s.cmds.length + 32 * b2n (cmdStalled s))
  else s.reg o

/-- PW_STATUS. -/
def pwStatus (s : State) : Word :=
  let p := s.pw
  let st := if p.req.isSome || p.waking then 5 else p.st
  w32 (st + 8 * b2n p.lean + 16 * b2n p.coarse + 32 * b2n p.store4 + 64 * b2n p.staged.isSome + p.lastWake * 0x100 +
    p.wakePort * 0x800)

/-- The persistent counter at PW_PCNT_IDX. -/
def pcntAt (s : State) : DWord := mapGet (dflt 0#64) s.pw.pcnt (s.rf 0x2030 0 4)

/-- Page 2. -/
def rdPower (s : State) (o : Nat) : Word :=
  if o = 0x2000 then pwStatus s else if o = 0x2034 then loW (pcntAt s) else s.reg o

/-- TP_STATUS. -/
def tpStatus (s : State) : Word :=
  w32 (s.tape.servo + 4 * b2n s.tape.dtValid + 8 * b2n s.pw.coarse + 16 * b2n s.pw.lean + chanSt (s.chan 0) * 0x100 +
    chanSt (s.chan 1) * 0x800 + chanSt (s.chan 2) * 0x4000 + chanSt (s.chan 3) * 0x20000)

/-- Page 3. -/
def rdTape (s : State) (o : Nat) : Word :=
  if o = 0x3004 then tpStatus s
  else if o = 0x3008 then w32 s.dt
  else if o = 0x3010 then s.tape.freq
  else if 0x3100 ≤ o ∧ o < 0x3200 ∧ o % 0x40 = 0x18 then w32 ((s.chan ((o - 0x3100) / 0x40)).per / 1000)
  else if 0x3300 ≤ o ∧ o < 0x3380 ∧ o % 0x20 = 0x18 then w32 (poNextDt s ((o - 0x3300) / 0x20))
  else s.reg o

/-- AP_STATUS (R246, R263, R266, R277). -/
def apStatus (s : State) (n : Nat) : Word :=
  let p := s.port n
  let c := (s.eg n).cur
  w32 (b2n (p.pendRx || p.pendTx) + 2 * b2n p.rxBusy + 4 * b2n (txBusy s n) + 8 * b2n p.oos +
    16 * b2n (!p.oos && (p.line != invRx s n)) + 32 * b2n (deActive s n) +
    64 * b2n (c.any (·.backoff)) + p.q.length * 0x80 + (c.elim 0 (·.tries)) % 16 * 0x4000)

/-- An entry of the LIN table at AP_LIN_IDX (R270). -/
def rdLin (s : State) (n : Nat) : Word :=
  let i := s.rf (apOff n 0x30) 0 7
  if 80 ≤ i then 0#32
  else if i < 64 then linEntry s n i ||| w32 (b2n (mapFind (s.port n).buf i).isSome * 0x80)
  else linEntry s n i

/-- A register of an asynchronous port. -/
def rdAp (s : State) (n k : Nat) : Word :=
  match k with
  | 0x0C => apStatus s n
  | 0x34 => rdLin s n
  | _ => s.reg (apOff n k)

/-- A register of a CAN controller. -/
def rdCn (s : State) (n k : Nat) : Word :=
  let c := s.can n
  match k with
  | 0x18 => w32 (min 255 c.tec + min 255 c.rcv * 0x100 + c.st * 0x10000 + b2n c.oos * 0x40000 + c.lastErr * 0x80000)
  | 0x28 => mapGet (dflt 0#32) c.flt (s.rf (cnOff n 0x24) 0 6)
  | _ => s.reg (cnOff n k)

/-- A register of a 10BASE-T1S port. -/
def rdTs (s : State) (n k : Nat) : Word :=
  let t := s.ts n
  match k with
  | 0x14 => w32 (b2n (plcaActive s n) + 2 * b2n t.beacon + 4 * b2n t.oos + 8 * b2n ((s.eg (64 + n)).cur.any (fun c => !c.backoff)))
  | _ => s.reg (tsOff n k)

/-- A register of an uplink. -/
def rdEu (s : State) (u k : Nat) : Word :=
  let x := s.up u
  match k with
  | 0x04 => w32 (b2n x.link + 2 * b2n x.anDone + 4 * b2n x.link + 8 * b2n x.remote + 16 * b2n (decide (s.now < x.pauseEnd)) + x.closed.length * 0x100)
  | 0x20 => w32 x.txts.length
  | 0x24 => (x.txts.head?).elim 0#32 (fun e => w32 (field e.h1 20 12 + field e.h1 0 20 * 0x1000))
  | _ => s.reg (euOff u k)

/-- Pages 4 to 7. -/
def rdMedia (s : State) (o : Nat) : Word :=
  if o < 0x5800 then rdAp s ((o - 0x4000) / 0x80) (o % 0x80)
  else if 0x6000 ≤ o ∧ o < 0x7000 then rdCn s ((o - 0x6000) / 0x100) (o % 0x100)
  else if 0x7000 ≤ o ∧ o < 0x7800 then rdTs s ((o - 0x7000) / 0x200) (o % 0x200)
  else if 0x7800 ≤ o ∧ o < 0x8000 ∧ o % 0x400 < 0x100 then rdEu s ((o - 0x7800) / 0x400) (o % 0x400)
  else s.reg o

/-- SE_ADM_STATUS (R208). -/
def admStatus (s : State) : Word :=
  let ms := (mergers s).map s.mrg
  w32 ((ms.foldl (fun a m => a ||| m.refused) 0) % 256 + min 65535 ((ms.map backlog).foldl max 0) * 0x10000)

/-- BB_n_STATUS (R243). -/
def bbStatus (s : State) (b : Nat) : Word :=
  let v := s.bob b
  let on := bobEn s b
  w32 ((if on then bobFill s b else 0) % 0x200000 + b2n v.notch.isSome * 0x200000 + b2n v.lapsed * 0x400000 +
    b2n (on && classL s b) * 0x800000 + b2n on * 0x1000000 + b2n (decide (s.reg (carveOff b) ≠ s.liveReg (carveOff b))) * 0x2000000)

/-- Page B. -/
def rdCheck (s : State) (o : Nat) : Word :=
  if o = 0xB808 then w32 (b2n (checkRepair s))
  else if o < 0xB800 ∧ o % 0x80 < 0x50 then rdCk s ((o - 0xB000) / 0x80) (o % 0x80)
  else s.reg o

/-- PB_STATUS (R411). -/
def pbStatus (s : State) : Word :=
  let p := s.peer
  w32 (p.st + 8 * b2n s.rank + 16 * b2n (peerUp s && p.far) + 32 * b2n p.inLock.isSome +
    64 * b2n (s.cmds.any (fun c => decide (c.op = 7 ∧ c.done = none) && c.started)) + 128 * b2n p.bootWait)

/-- A fault log's ENTRY register. -/
def faultWord (l : List FaultEnt) : Word := (l.head?).elim 0#32 (fun e => w32 (e.tag % 1024 + e.reason * 0x400 + e.win * 0x4000))

/-- Page C without apertures. -/
def rdPeer (s : State) (o : Nat) : Word :=
  let p := s.peer
  if o = 0xC004 then pbStatus s
  else if 0xC040 ≤ o ∧ o < 0xC080 ∧ o % 8 = 4 then
    (let n := (o - 0xC040) / 8
     w32 (lockState s n * 4 + min 15 (mapGet (dflt 0) p.lockTry n) * 0x20))
  else if o = 0xC080 then w32 (p.olog.length + 32 * b2n (s.rb o 5))
  else if o = 0xC084 then faultWord p.olog
  else if o = 0xC090 then w32 (p.ilog.length + 32 * b2n (s.rb o 5))
  else if o = 0xC094 then faultWord p.ilog
  else if o = 0xC404 then w32 (2 * p.bootRes + 16 * p.bootWords.length)
  else s.reg o

/-- The DT at which a phase target is foreseen; free on a channel that does not move toward
it. -/
def phaseDt (s : State) (ch cyc ang : Nat) (rev : Bool) : Nat :=
  let v := ((s.chan ch).segs.head?.getD {}).rate
  let r := if rev then -v else v
  if 0 < r then (s.dt + ((-(phasePast s ch cyc ang rev) + r - 1) / r).toNat / 1000) % 0x10000000000000000 else (Config.freeWord s.freeCtr).toNat

/-- CF_PEND_DT: the resolved DT of the pending stitch. -/
def pendDt (s : State) : Nat :=
  match s.cons.stitch.bind (·.target) with
  | some (.dt t) => t
  | some (.phase ch cyc ang rev) => phaseDt s ch cyc ang rev
  | none => 0

/-- CF_STATUS (R412 to R414, R418, R425). -/
def cfStatus (s : State) : Word :=
  let c := s.cons
  let lw := s.cmds.any (fun x => decide (x.op = 1 ∧ x.done = none) && x.started)
  w32 (c.liveBank + 2 * b2n c.stitch.isSome + 4 * b2n c.rebaste + 8 * b2n lw + 16 * c.fits.length +
    64 * b2n (c.fits.any (fun f => decide (f.bank = 0))) + 128 * b2n (c.fits.any (fun f => decide (f.bank = 1))))

/-- Page D. -/
def rdCons (s : State) (o : Nat) : Word :=
  let c := s.cons
  match o with
  | 0xD000 => cfStatus s
  | 0xD004 => c.seq
  | 0xD008 => w32 c.sIdx
  | 0xD010 => w32 c.sDt
  | 0xD018 => c.fitSeq
  | 0xD01C => w32 (pendDt s)
  | _ => s.reg o

/-- Page E: the trim at CAL_IDX, the live record, the sensors. -/
def rdCal (s : State) (o : Nat) : Word :=
  let i := s.rf 0xE000 0 8
  let p := s.pw
  let u16 := fun (m : SMap Int) => unsigned 16 (mapGet (dflt 0) m i)
  match o with
  | 0xE004 => if 138 ≤ i then 0#32 else w32 (trimFactory i + trimEff p.calLive.offs i * 0x10000)
  | 0xE008 => if 138 ≤ i then 0#32 else w32 (u16 p.calLive.offs + (p.calStaged.elim 0 (fun x => u16 x.1.offs)) * 0x10000)
  | 0xE00C => w32 (p.calSrc + 4 * b2n p.calStaged.isSome + p.calLive.gen % 0x1000000 * 0x100)
  | 0xE010 => w32 (p.tj + p.sensor * 0x1000 + p.supplyOut * 0x10000)
  | _ => s.reg o

/-- SV_BOOT_STATUS. -/
def bootStatus (s : State) : Word :=
  let b := s.boot
  w32 (b.phase + b.source * 4 + b.stage * 0x10 + b2n b.done * 0x100 + b.error * 0x200 + b.image * 0x2000 + b.time * 0x10000)

/-- Pages E and F. -/
def rdSelvage (s : State) (o : Nat) : Word :=
  if o = 0xF004 then bootStatus s else if o = 0xF014 then w32 (2 * s.boot.result) else if o < 0xF000 then rdCal s o else s.reg o

/-! ## Reads (R468, R470, R471) -/

/-- The HI registers that an LO read latches, by LO (R471). -/
def hiOf (o : Nat) : Option Nat :=
  if o = 0x3028 ∨ o = 0x8010 ∨ o = 0xD008 ∨ o = 0xD010 ∨ o = 0xD01C ∨ o = 0x2034 then some (o + 4)
  else if 0x3300 ≤ o ∧ o < 0x3380 ∧ o % 0x20 = 0x18 then some (o + 4)
  else if 0xB000 ≤ o ∧ o < 0xB800 ∧ (o % 0x80 = 0x24 ∨ o % 0x80 = 0x44) then some (o + 4)
  else none

/-- The registers that read as the reading agent's latch (R470, R471). -/
def latched (o : Nat) : Bool :=
  decide (o = 0x300C ∨ o = 0xC088 ∨ o = 0xC098) || (decide (4 ≤ o) && (hiOf (o - 4)).isSome) ||
    (decide (0x3100 ≤ o ∧ o < 0x3200) && decide (o % 0x40 = 0x10 ∨ o % 0x40 = 0x14)) ||
    (decide (0x7800 ≤ o ∧ o < 0x8000) && decide (o % 0x400 = 0x28 ∨ o % 0x400 = 0x2C))

/-- The live value of a HI register. -/
def hiLive (s : State) (o : Nat) : Word :=
  if o = 0x2038 then hiW (pcntAt s)
  else if o = 0xD00C then w32 (s.cons.sIdx / 0x100000000)
  else if o = 0xD014 then w32 (s.cons.sDt / 0x100000000)
  else if o = 0xD020 then w32 (pendDt s / 0x100000000)
  else if 0x3300 ≤ o ∧ o < 0x3380 then w32 (poNextDt s ((o - 0x3300) / 0x20) / 0x100000000)
  else if 0xB000 ≤ o ∧ o < 0xB800 then rdCk s ((o - 0xB000) / 0x80) (o % 0x80)
  else s.reg o

/-- The value that an agent's 4-byte read of a register gives. -/
def readReg (s : State) (a o : Nat) : Word :=
  if (regInfo o).isNone then 0#32
  else if latched o then s.latchOf a o
  else match o / 0x1000 with
    | 0 => rdHost s o
    | 1 => rdHost s o
    | 2 => rdPower s o
    | 3 => rdTape s o
    | 4 => rdMedia s o
    | 5 => rdMedia s o
    | 6 => rdMedia s o
    | 7 => rdMedia s o
    | 8 => if o = 0x8000 then smStatus s else if o = 0x81A0 then admStatus s else s.reg o
    | 9 => if o % 0x10 = 8 then bbStatus s ((o - 0x9000) / 0x10) else s.reg o
    | 0xA => if o % 0x10 = 8 then bbStatus s ((o - 0x9000) / 0x10) else s.reg o
    | 0xB => rdCheck s o
    | 0xC => rdPeer s o
    | 0xD => rdCons s o
    | _ => rdSelvage s o

/-- TP_DT_LO latches TP_DT_HI and every channel's cycle and angle (R471). -/
def latchDt (a : Nat) (s : State) : State :=
  forAll [0, 1, 2, 3]
    (fun n t => setLatch a (prOff n 0x14) (prAng s n) (setLatch a (prOff n 0x10) (w32 (cycNow s n)) t))
    (setLatch a 0x300C (w32 (s.dt / 0x100000000)) s)

/-- A fault log's oldest entry is popped, and its address latched (R407, R471). -/
def popFault (a : Nat) (inb : Bool) (s : State) : State :=
  match (if inb then s.peer.ilog else s.peer.olog) with
  | [] => s
  | e :: t =>
    setLatch a (if inb then 0xC098 else 0xC088) (w32 (e.addr % 65536))
      (modPeer (fun p => if inb then { p with ilog := t } else { p with olog := t }) s)

/-- What a read of a register does besides giving its value (R471). -/
def readEffect (a o : Nat) (s : State) : State :=
  if o = 0x3008 then latchDt a s
  else if o = 0xC084 then popFault a false s
  else if o = 0xC094 then popFault a true s
  else if 0x7800 ≤ o ∧ o < 0x8000 ∧ o % 0x400 = 0x24 then (txtsPop_ a ((o - 0x7800) / 0x400) s).1
  else match hiOf o with
    | some h => setLatch a h (hiLive s h) s
    | none => s

/-- A 4-byte read of a register by an agent. -/
def regRead (a o : Nat) (s : State) : State × Word := (readEffect a o s, readReg s a o)

/-- A read of both registers of an aligned pair (R359, R470). -/
def regRead8 (a o : Nat) (s : State) : State × DWord :=
  let (s1, lo) := regRead a o s
  let (s2, hi) := regRead a (o + 4) s1
  (s2, mkD hi lo)

/-! ## Writes (R5 to R7, R468) -/

/-- The plain effect of a write: RW bits take the value, W1C bits that are written 1 clear (R5); what the device changed at the same FCLK
edge stands (R6, R469). -/
def wrPlain (o : Nat) (v : Word) (s : State) : State :=
  match regInfo o with
  | none => s
  | some i =>
    let was := s.reg o
    let new := (was &&& ~~~(w32 i.rw ||| (v &&& w32 i.w1c))) ||| (v &&& w32 i.rw)
    s.setReg o ((new &&& ~~~s.hotBits o) ||| (was &&& s.hotBits o))

/-- The settings whose value at an earlier instant a capture may ask for: TP_TKCH, SE_TKIN and the datagram streams' registers
(R90, R107, R294). -/
def dated (o : Nat) : Bool :=
  decide ((0x8100 ≤ o ∧ o < 0x8144) ∨ (0x3080 ≤ o ∧ o < 0x30A4) ∨ (0x7800 ≤ o ∧ o < 0x8000 ∧ 0x100 ≤ o % 0x400))

/-- Pages 0 and 1 (R365, R367, R368). -/
def wrHost (o : Nat) (v : Word) (s : State) : State :=
  if o = 0x10 then wrGenOffer v s
  else if 0x1000 ≤ o ∧ o < 0x1840 then
    (let r := (o - 0x1000) / 0x20
     if o % 0x20 = 8 then wrRingCfg r v s else if o % 0x20 < 8 then wrRingBase r o v s else wrPlain o v s)
  else if o = 0x1930 then wrWbBase false v s
  else if o = 0x1934 then wrWbBase true v s
  else wrPlain o v s

/-- Page 2. -/
def wrPower (o : Nat) (v : Word) (s : State) : State :=
  if o = 0x2010 then hostWakes v s else if o = 0x2008 ∨ o = 0x200C then wrWakeDt o v s else wrPlain o v s

/-- Page 3. -/
def wrTape (o : Nat) (v : Word) (s : State) : State :=
  if o = 0x3000 then wrTpCtrl v s
  else if o = 0x3010 then wrFreq v s
  else if o = 0x301C then wrStepHi v s
  else if o = 0x3020 then wrDisc v s
  else if o = 0x3024 then wrOffs v s
  else if o = 0x3030 ∨ o = 0x3034 then wrPps o v s
  else if 0x3100 ≤ o ∧ o < 0x3200 then
    (let n := (o - 0x3100) / 0x40
     match o % 0x40 with
     | 0x00 => wrPr n false v s
     | 0x0C => wrPr n true v s
     | 0x1C => wrExt n v s
     | _ => wrPlain o v s)
  else if 0x3300 ≤ o ∧ o < 0x3380 ∧ o % 0x20 < 0x18 then wrStrobe ((o - 0x3300) / 0x20) (o % 0x20 / 4) v s
  else wrPlain o v s

/-- AP_LIN_DATA (R270). -/
def wrLin (n : Nat) (v : Word) (s : State) : State :=
  let i := s.rf (apOff n 0x30) 0 7
  if 80 ≤ i then s
  else modPort n (fun p => { p with lin := mapSet (dflt 0#32) p.lin i (v &&& (if i < 64 then 0x7F#32 else 0xFFFF7F#32)) }) s

/-- An asynchronous port (R246, R263, R264, R270). -/
def wrAp (n k : Nat) (v : Word) (s : State) : State :=
  match k with
  | 0x00 => wrApCtrl n v s
  | 0x04 => wrRate n true v s
  | 0x08 => if bit v 31 then wrRateNow n v s else wrRate n false v s
  | 0x34 => wrLin n v s
  | _ => wrPlain (apOff n k) v s

/-- Pages 4 to 7. -/
def wrMedia (o : Nat) (v : Word) (s : State) : State :=
  if o < 0x5800 then wrAp ((o - 0x4000) / 0x80) (o % 0x80) v s
  else if 0x6000 ≤ o ∧ o < 0x7000 then
    (let n := (o - 0x6000) / 0x100
     match o % 0x100 with
     | 0x00 => wrCnCtrl n v s
     | 0x28 =>
       (let i := s.rf (cnOff n 0x24) 0 6
        let c := s.can n
        s.setCan n { c with fltWas := (s.tape.clk, i, mapGet (dflt 0#32) c.flt i) :: c.fltWas, flt := mapSet (dflt 0#32) c.flt i v })
     | _ => wrPlain o v s)
  else if 0x7800 ≤ o ∧ o < 0x8000 ∧ o % 0x400 = 0 then wrEuCtrl ((o - 0x7800) / 0x400) v s
  else wrPlain o v s

/-- Page C without apertures and the partner's boot registers (R390, R404). -/
def wrPeer (o : Nat) (v : Word) (s : State) : State :=
  if o = 0xC000 then wrPbCtrl v s
  else if 0xC040 ≤ o ∧ o < 0xC080 ∧ o % 8 = 4 then
    (let n := (o - 0xC040) / 8
     whenDo (bit v 1) (lockRelease n) (whenDo (bit v 0) (lockAcquire n) s))
  else wrPlain o v s

/-- The effect of a write that every check has let through. -/
def writeReg (o : Nat) (v : Word) (s0 : State) : State :=
  let s := whenDo (dated o) (noteWas o (s0.reg o)) s0
  match o / 0x1000 with
  | 0 => wrHost o v s
  | 1 => wrHost o v s
  | 2 => wrPower o v s
  | 3 => wrTape o v s
  | 4 => wrMedia o v s
  | 5 => wrMedia o v s
  | 6 => wrMedia o v s
  | 7 => wrMedia o v s
  | 9 => if o % 0x10 = 0xC then whenDo (bit v 0) (flushBob ((o - 0x9000) / 0x10)) s else wrPlain o v s
  | 0xA => if o % 0x10 = 0xC then whenDo (bit v 0) (flushBob ((o - 0x9000) / 0x10)) s else wrPlain o v s
  | 0xB => if o < 0xB800 ∧ o % 0x80 < 0x50 then wrCk ((o - 0xB000) / 0x80) (o % 0x80) v s else wrPlain o v s
  | 0xC => wrPeer o v s
  | 0xF => if o = 0xF014 then bootGo v s else wrPlain o v s
  | _ => wrPlain o v s

/-! ## Checks (R359, R362, R440, R444, R445) -/

/-- SELVAGE_LOCK. -/
def locked (s : State) : Bool := s.rb 0xF000 0
/-- A register with RWB fields. -/
def isRwb (o : Nat) : Bool := (regInfo o).any (·.rwb)

/-- A write to an RWB field that is ignored (R444). -/
def lockDeny (o : Nat) (s : State) : State :=
  raise 0xF020 4 (s.setReg 0xF018 (w32 (min 65535 (s.rf 0xF018 0 16 + 1) + o % 65536 * 65536)))

/-- The owner of the check unit whose register lies at an offset, if it is one: 0 to 7 a domain, 8 PEER. -/
def cuOwner (s : State) (o : Nat) : Option Nat :=
  if 0xB000 ≤ o ∧ o < 0xB800 then (let n := (o - 0xB000) / 0x80; some (s.rf (0xF050 + 4 * (n / 8)) (4 * (n % 8)) 4)) else none

/-- PAGE_DENY (R362, R445). -/
def pageDeny (s : State) : State := raise 0x1928 0x20 (count (ctHi 334) 1 s)

/-- A host access reaches BAR0: not in reset, D3hot or HIBERNATE, and not while the partner holds a lock (R360, R361, R404). -/
def hostServed (s : State) : Bool := s.up? && s.perst && !s.d3hot && s.peer.inLock.isNone

/-- A 4-byte write of the host to register space that R359 accepts. -/
def hostRegWrite (o : Nat) (v : Word) (s : State) : State :=
  let p := o / 0x1000
  if s.boot.done = false ∧ p ≠ 0 ∧ p ≠ 0xF then badAccess s
  else if locked s ∧ p ≠ 0 ∧ p ≠ 0xF ∧ s.rb 0xF044 p = false then pageDeny s
  else if 0xC800 ≤ o ∧ o < 0xD000 then bridgeWr ((o - 0xC800) / 0x100) (o % 0x100) v true s
  else if (regInfo o).isNone then s
  else if isRwb o then lockDeny o s
  else if (cuOwner s o).any (fun w => decide (8 ≤ w)) then pageDeny s
  else writeReg o v s

/-- Advanced Error Reporting of a poisoned TLP: bit 12 of the Uncorrectable Error Status (R359). -/
def aerPoison (s : State) : State := { s with pci := { s.pci with aerStatus := s.pci.aerStatus ||| 0x1000#32 } }

/-- A write of the host to BAR0 (R359, R451): size in bytes, every byte enabled, poisoned. -/
def hostWrite (o : Nat) (data : DWord) (size : Nat) (full poisoned : Bool) (s : State) : State :=
  if hostServed s = false then s
  else if s.awake = false then (if o = 0x2010 ∧ size = 4 ∧ full ∧ poisoned = false then hostWakes (loW data) s else s)
  else if poisoned then aerPoison (raise 0x1928 0x80 (count (ctHi 338) 1 s))
  else if 0x18000 ≤ o then s
  else if 0x10000 ≤ o then
    (if size = 8 ∧ full ∧ o % 8 = 0 then doorbell ((o - 0x10000) / 0x1000) (o % 0x1000) (loW data) (hiW data) s else badAccess s)
  else if size = 4 ∧ full ∧ o % 4 = 0 then hostRegWrite o (loW data) s
  else badAccess s

/-- A read of the host (R359, R363, R400, R451): 4 bytes, or 8. -/
def hostRead (o : Nat) (wide : Bool) (s : State) : State :=
  let out := fun (v : DWord) => emit (.readData 0 o v)
  if hostServed s = false ∨ o % (if wide then 8 else 4) ≠ 0 then s
  else if s.awake = false ∨ 0x18000 ≤ o then out 0#64 s
  else if 0x10000 ≤ o then
    (let v := doorbellRead s ((o - 0x10000) / 0x1000) (o / 8 * 8 % 0x1000)
     out (if wide then v else mkD 0#32 (if o % 8 = 0 then loW v else hiW v)) s)
  else if 0xC800 ≤ o ∧ o < 0xD000 then
    (if wide then bridgeRd8 else bridgeRd) ((o - 0xC800) / 0x100) (o % 0x100) s
  else if wide then (let (s1, v) := regRead8 0 o s; out v s1)
  else (let (s1, v) := regRead 0 o s; out (mkD 0#32 v) s1)

/-! ## The inbound master (R392, R401, R407, R409) -/

/-- Why an inbound write fails (R401, R407, R409): 0 it is served. -/
def inboundError (o : Nat) (full : Bool) (s : State) : Nat :=
  if full = false ∨ o % 4 ≠ 0 then 3
  else if o / 0x1000 = 0xC then (if o = 0xC400 then (if wordFits s then 0 else 6) else if o = 0xC404 then 0 else 1)
  else if s.peer.bootWait then 1
  else if isRwb o then 2
  else if locked s ∧ s.rb 0xF044 (16 + o / 0x1000) = false then 1
  else if (cuOwner s o).any (fun w => decide (w ≠ 8)) then 1
  else 0

/-- The effect of an inbound write that is served. -/
def inboundEffect (o : Nat) (v : Word) (s : State) : State :=
  if o = 0xC400 then bootWord v s
  else if o = 0xC404 then whenDo (bit v 0) bootWordsDone s
  else if (regInfo o).isNone then s
  else writeReg o v s

/-- A cumulative acknowledgement of posted writes (R407). -/
def ackWrites (s : State) : State :=
  if s.peer.inUnacked = 0 ∨ peerUp s = false then s
  else sendCpl [cplWord 3 ((s.peer.inTag + 1023) % 1024) 0] (modPeer (fun p => { p with inUnacked := 0 }) s)

/-- The answer to an inbound write with its outcome (R402, R407): an acknowledgement that covers posted writes, a completion
for one that is not posted. -/
def inboundAnswer (o tag e : Nat) (posted : Bool) (s : State) : State :=
  let s1 := modPeer (fun p => { p with inTag := (tag + 1) % 1024 }) s
  if posted then
    let s2 := modPeer (fun p => { p with inUnacked := p.inUnacked + 1 }) s1
    if 64 ≤ s2.peer.inUnacked then ackWrites s2 else s2
  else sendCpl [cplWord 2 tag e, w32 o] s1

/-- An inbound write is performed or fails, and is answered (R401, R402, R407). -/
def inboundWrite (o : Nat) (v : Word) (full : Bool) (tag : Nat) (posted : Bool) (s : State) : State :=
  let e := inboundError o full s
  inboundAnswer o tag e posted
    (if e = 0 then inboundEffect o v s
     else sendCpl [cplWord 6 tag e, w32 o]
      (logIn { tag := tag, reason := e, win := 0, addr := o } (count (ctPb 31) 1 (whenDo (decide (e = 2)) (lockDeny o) s))))

/-- An inbound read (R401, R403, R409): DENIED reads give all ones. -/
def inboundRead (o tag : Nat) (s : State) : State :=
  let shown := decide (o = 0xC004 ∨ o = 0xC404)
  if (o / 0x1000 = 0xC ∨ s.peer.bootWait = true) ∧ shown = false then
    sendCpl [cplWord 1 tag 15, 0xFFFFFFFF#32] (count (ctPb 31) 1 s)
  else
    let (s1, v) := regRead 1 o s
    sendCpl [cplWord 1 tag 0, v] s1

/-- A request of the partner (R401, R404): while it holds a lock, requests through its other windows wait. -/
def inbound (wr : Bool) (o : Nat) (v : Word) (full : Bool) (tag win : Nat) (posted : Bool) (s : State) : State :=
  if peerUp s = false ∨ s.awake = false ∨ s.peer.inLock.any (fun w => decide (w ≠ win)) then s
  else
    let s1 := count (ctPb 30) 1 s
    if wr then inboundWrite o v full tag posted s1 else inboundRead o tag s1

/-- WRITE_ACK_TIMER (R407). -/
def ackTimer (s : State) : State := if s.awake then ackWrites s else s

/-! ## The boot script's accesses (R441, R444) -/

/-- The effect of a script's WRITE. -/
def scriptWriteEffect (o : Nat) (v : Word) (s : State) : State :=
  if isRwb o ∧ locked s then lockDeny o s
  else if 0x10000 ≤ o ∨ (regInfo o).isNone then s
  else writeReg o v s

/-- WRITE (R441); a LOCK that is refused fails the script. -/
def scriptWrite (o : Nat) (v : Word) (s : State) : State :=
  if scriptAt s (fun r => decide (r = .write o v)) = false then s
  else if o = 0xF000 ∧ bit v 0 ∧ locked s = false then
    match selvageSet s with
    | (s1, true) => scriptPop s1
    | (s1, false) => bootFails 12 s1
  else scriptPop (scriptWriteEffect o v s)

/-- POLL (R441): done once the register matches under the mask. -/
def scriptPolls (o : Nat) (mask val : Word) (us : Nat) (s : State) : State :=
  if scriptAt s (fun r => decide (r = .poll o mask val (w32 us) ∧ us < 0x100000000)) then
    (let (s1, v) := regRead 2 o s
     if v &&& mask = val then scriptPop s1 else s1)
  else s

/-- The timeout of the POLL at the head expires (R441). -/
def scriptPollLate (s : State) : State :=
  if scriptAt s (fun r => match r with
    | .poll _ _ _ _ => true
    | _ => false) then bootFails 14 s
  else s

end Sys2Proof.Machine
end

