-- ==== Sys2Proof/Machine/Operands.lean ====
section
/-!
DEFINITION. How a command's operands name an access to BAR0: the agent of the register fabric that makes it (R469), 0 the host,
1 the partner, 2 the boot controller, with the offset and the value.
-/
namespace Sys2Proof.Machine

/-! ## An access of any agent (R469) -/

/-- A write of an agent: the host's, one of the partner through the window that may be served, or the script's. -/
def agentWrite (a : Nat) (o : Nat) (v : Word) (s : State) : State :=
  match a with
  | 0 => hostWrite o (mkD 0#32 v) 4 true false s
  | 1 => if 0x10000 ≤ o then s else inbound true o v true s.peer.inTag (s.peer.inLock.getD 0) s.peer.inLock.isNone s
  | _ => scriptWrite o v s

/-- A read of an agent; the boot controller reads under a POLL. -/
def agentRead (a : Nat) (o : Nat) (wide : Bool) (s : State) : State :=
  match a with
  | 0 => hostRead o wide s
  | 1 => if wide ∨ 0x10000 ≤ o then s else inbound false o 0#32 true 0 (s.peer.inLock.getD 0) false s
  | _ => if wide = false ∧ scriptAt s (fun r => match r with
      | .poll p _ _ _ => decide (p = o)
      | _ => false) then (regRead 2 o s).1 else s

/-- A write of any agent with its form (R359, R401): the access size, whether every byte is enabled, and whether the TLP is
poisoned. -/
def accessWrite (a o : Nat) (data : DWord) (size : Nat) (full poisoned : Bool) (s : State) : State :=
  match a with
  | 0 => hostWrite o data size full poisoned s
  | 1 =>
    if 0x10000 ≤ o then s
    else inbound true o (loW data) (full && decide (size = 4)) s.peer.inTag (s.peer.inLock.getD 0) s.peer.inLock.isNone s
  | _ => scriptWrite o (loW data) s

/-- What a write's operand says of a port's receive shifter (R263). -/
def rxSeen (n : Nat) (rx : Bool) (s : State) : State := modPort n (fun p => { p with rxBusy := rx }) s

/-- A failed read of the host interface (R358, R439): 67 is the read of a boot image. -/
def readFails_ (who : Nat) (timeout : Bool) (s : State) : State :=
  if who = 67 then
    (if s.hostUp ∧ s.boot.reading = some 2 then imageDone false [] (readFault timeout s) else s)
  else hostReadFails who timeout s

/-- A stitch, fitting, held entry or cell that is due goes before a strobe (R16). -/
def timedFirst (s : State) : Bool :=
  stitchFirstDue s || fitFirstDue s || decide (heldDue s ≠ []) || (mapKeys s.cells).any (fun c => (cellFalls s c).isSome)

end Sys2Proof.Machine
end

