-- ==== Sys2Proof/Machine/ExecAsync.lean ====
section
/-!
DEFINITION. The meanings of the commands of the asynchronous ports (R244 to R277).
-/
namespace Sys2Proof.Machine

/-- CHARACTER_RECEIVED (R252): The receiver reaches a stop decision and pushes a receive word into the port queue. -/
def execCharacterReceived (port : Fin 48) (falseStart : Bool) (data : BitVec 9) (par : Bool) (stop : Bool)
    (noisy : Bool) (early : Bool) (time : CharTime) (s : State) : Host.Outcome State Fault Refusal :=
  done s (rxChar_ port falseStart data.toNat par stop noisy early time.sync time.age s)

/-- LIN_BREAK (R269): A low level of at least BRK_DET bit times ends and a BK word is stored. -/
def execLinBreak (port : Fin 48) (bits : Nat) (age : Nat) (s : State) : Host.Outcome State Fault Refusal :=
  done s (core (linBreakEnd port bits age) s)

/-- FRAME_CHARACTER (R110): The framer pops a receive word and applies it to the unit in progress under the port's framing. -/
def execFrameCharacter (port : Fin 48) (s : State) : Host.Outcome State Fault Refusal :=
  done s (core (frameChar port) s)

/-- IDLE_GAP_END (R123): The line has been idle for GAP bit times and the idle-gap unit ends. -/
def execIdleGapEnd (port : Fin 48) (s : State) : Host.Outcome State Fault Refusal :=
  done s (core (gapEnd port) s)

/-- SILENCE_TIMEOUT (R113): The line has been idle for ABORT_BITS bit times and the unit ends ABORTED. -/
def execSilenceTimeout (port : Fin 48) (s : State) : Host.Outcome State Fault Refusal :=
  done s (core (silence port) s)

/-- RATE_WRITE (R263): A write to AP_RATE or AP_CHAR applies at once or becomes pending. -/
def execRateWrite (agent : Fin 3) (port : Fin 48) (char : Bool) (val : Word) (rx : Bool)
    (s : State) : Host.Outcome State Fault Refusal :=
  done s (core (fun s => agentWrite agent (apOff port (if char then 4 else 8)) (if char then val else val &&& 0x7FFFFFFF#32) (rxSeen port rx s)) s)

/-- RATE_APPLY (R263): A pending rate setting is applied at a side's next character point. -/
def execRateApply (port : Fin 48) (tx : Bool) (s : State) : Host.Outcome State Fault Refusal :=
  done s (core (rateApply_ port tx) s)

/-- RATE_NOW (R264): A write with RATE_NOW applies the setting on the next tick and discards the characters in the shifters. -/
def execRateNow (agent : Fin 3) (port : Fin 48) (val : Word) (rx : Bool) (s : State) : Host.Outcome State Fault Refusal :=
  done s (core (fun s => agentWrite agent (apOff port 8) (val ||| 0x80000000#32) (rxSeen port rx s)) s)

/-- TRANSMIT_CHARACTER (R258): The transmitter sends one character and compares the bits read back. -/
def execTransmitCharacter (port : Fin 48) (mismatch : Option (Fin 12)) (s : State) : Host.Outcome State Fault Refusal :=
  done s (core (fun s => flow (txChar_ port (mismatch.map (·.val)) s)) s)

/-- BACKOFF_RETRY (R266): The line has been idle for IFS plus the backoff, and the sentence restarts. -/
def execBackoffRetry (port : Fin 48) (s : State) : Host.Outcome State Fault Refusal :=
  done s (core (backoffOver port) s)

/-- LIN_HEADER (R272): A header with a valid protected identifier arrives, and the port responds from the buffer. -/
def execLinHeader (port : Fin 48) (s : State) : Host.Outcome State Fault Refusal :=
  done s (core (linRespond port) s)

/-- LIN_SCHEDULE_SLOT (R273): The commander's slot time elapses and it sends the next header. -/
def execLinScheduleSlot (slot : LinSlot) (s : State) : Host.Outcome State Fault Refusal :=
  done s (core (linSchedule slot.port (slot.mismatch.map (·.val))) s)

/-- LIN_FRAME_SLOT_EXPIRY (R125): The frame slot ends with the response incomplete or absent. -/
def execLinFrameSlotExpiry (port : Fin 48) (s : State) : Host.Outcome State Fault Refusal :=
  done s (core (linSlotEnd port) s)

/-- IFS_IDLE (R265): In SINGLE or HDX_DE mode the line has been idle for IFS bit times, and the waiting sentence starts. -/
def execIfsIdle (port : Fin 48) (s : State) : Host.Outcome State Fault Refusal :=
  done s (core (fun s => ifsOver port s) s)

/-- DE_LAG_END (R262): DE_LAG sample intervals after the last stop bit of a sentence, APn_DE becomes inactive. -/
def execDeLagEnd (port : Fin 16) (s : State) : Host.Outcome State Fault Refusal :=
  done s (core (deOver port) s)

/-- AP_CTRL_EN_WRITE (R246): A write of AP_CTRL.EN disables a port, ending its unit ABORTED and idling its transmitter, or
re-enables it and resumes the current sentence. -/
def execApCtrlEnWrite (agent : Fin 3) (port : Fin 48) (val : Word) (s : State) : Host.Outcome State Fault Refusal :=
  done s (core (agentWrite agent (apOff port 0) val) s)

end Sys2Proof.Machine
end

