-- ==== Sys2Proof/Machine/ExecBoot.lean ====
section
/-!
DEFINITION. The meanings of the commands of boot, boot images and the boot script (R432 to R444).
-/
namespace Sys2Proof.Machine

/-- COLD_BOOT (R432): Release of RESET_N starts a cold boot: straps are sampled, then trims, BIST, the seam test, image load
and the boot script follow. -/
def execColdBoot (boot : BitVec 2) (rank : Bool) (vio33 : BitVec 4) (bist : BitVec 4) (seams : BitVec 3)
    (mram : BitVec 24) (s : State) : Host.Outcome State Fault Refusal :=
  done s (coldBoots boot.toNat rank vio33.toNat bist.toNat seams.toNat mram.toNat s)

/-- IMAGE_READ_COMPLETE (R436): The last byte of a boot image arrives, and the image is verified in the order of the checks. -/
def execImageReadComplete (ok : Bool) (image : List Byte) (s : State) : Host.Outcome State Fault Refusal :=
  done s (core (imageDone ok image) s)

/-- END (R441): The boot script record END enters the named power state and moves the device phase. -/
def execEndScript (s : State) : Host.Outcome State Fault Refusal :=
  done s (core scriptEnd s)

/-- WRITE (R441): The boot script record WRITE performs a register write without page checks. -/
def execWrite (off : BitVec 17) (val : Word) (s : State) : Host.Outcome State Fault Refusal :=
  done s (core (scriptWrite off.toNat val) s)

/-- LOAD (R441): The boot script record LOAD writes table entries to the staging banks for a domain. -/
def execLoad (table : BitVec 4) (dom : Fin 8) (words : List Word) (s : State) : Host.Outcome State Fault Refusal :=
  done s (core (scriptLoad table.toNat dom words) s)

/-- POLL (R441): The boot script record POLL waits until a masked register equals a value or its timeout expires. -/
def execPoll (off : BitVec 17) (mask val : Word) (us : Nat) (s : State) : Host.Outcome State Fault Refusal :=
  done s (core (scriptPolls off.toNat mask val us) s)

/-- POLL_TIMEOUT (R441): A POLL timeout expires, and the script fails with SCRIPT_ERR. -/
def execPollTimeout (s : State) : Host.Outcome State Fault Refusal :=
  done s (core scriptPollLate s)

/-- WAIT (R441): The boot script record WAIT waits a given number of microseconds. -/
def execWait (us : Nat) (s : State) : Host.Outcome State Fault Refusal :=
  done s (core (scriptWaits us) s)

/-- LOCK (R441): The boot script record LOCK sets SELVAGE_LOCK. -/
def execLock (s : State) : Host.Outcome State Fault Refusal :=
  done s (core scriptLock s)

/-- SCRIPT_STITCH (R441): The boot script record STITCH requests a NEXT_INDEX stitch, and fails without a prior LOCK. -/
def execScriptStitch (s : State) : Host.Outcome State Fault Refusal :=
  done s (core scriptStitches s)

/-- SCRIPT_TIMEOUT (R441): The boot script has run for more than 500 ms, and the device enters RECOVERY. -/
def execScriptTimeout (s : State) : Host.Outcome State Fault Refusal :=
  done s (core scriptLate s)

/-- SELVAGE_LOCK (R444): A write of 1 to SV_LOCK.SELVAGE_LOCK locks the selvage and copies the ring owners. -/
def execSelvageLock (agent : Fin 3) (s : State) : Host.Outcome State Fault Refusal :=
  done s (core (agentWrite agent 0xF000 1#32) s)

/-- GO (R439): A write to SV_BOOT_CTRL.GO starts a host image transfer by DMA, or returns BUSY. -/
def execGo (agent : Fin 3) (s : State) : Host.Outcome State Fault Refusal :=
  done s (core (agentWrite agent 0xF014 1#32) s)

/-- BOOT_DATA_WRITE (R409): A partner write to PB_BOOT_DATA appends an image word, or fails with BOOT_OVERRUN. -/
def execBootDataWrite (w : Word) (s : State) : Host.Outcome State Fault Refusal :=
  done s (core (agentWrite 1 0xC400 w) s)

/-- BOOT_DONE_WRITE (R409): A write to PB_BOOT_CTRL.DONE ends the partner image and starts verification. -/
def execBootDoneWrite (s : State) : Host.Outcome State Fault Refusal :=
  done s (core (agentWrite 1 0xC404 1#32) s)

end Sys2Proof.Machine
end

