-- ==== Sys2Proof/Machine/ExecCan.lean ====
section
/-!
DEFINITION. The meanings of the commands of the CAN controllers (R280 to R287).
-/
namespace Sys2Proof.Machine

/-- CAN_FRAME_RECEIVED (R126): A controller accepts a frame at the sixth end-of-frame bit, filters it and makes a record. -/
def execCanFrameReceived (cn : Fin 16) (kind : Fin 4) (ide : Bool) (id : BitVec 29) (dlc : BitVec 4) (sec : Bool)
    (vcid sdt : Byte) (af : Word) (data : List Byte) (own : Bool) (age : Nat) (s : State) : Host.Outcome State Fault Refusal :=
  done s (core (canReceive cn kind ide id.toNat dlc.toNat sec vcid sdt af data own age) s)

/-- CAN_FRAME_SENT (R285): A transmitted frame completes with acknowledgement and the sentence ends. -/
def execCanFrameSent (cn : Fin 16) (s : State) : Host.Outcome State Fault Refusal :=
  done s (core (fun s => flow (canSent cn s)) s)

/-- ARBITRATION_LOST (R285): A transmission loses arbitration, and the frame is retried or abandoned. -/
def execArbitrationLost (cn : Fin 16) (s : State) : Host.Outcome State Fault Refusal :=
  done s (core (canArb cn) s)

/-- CAN_ERROR (R286): The controller detects an error and updates TEC, REC and its state. -/
def execCanError (cn : Fin 16) (kind : Fin 6) (tx : Bool) (flag except : Bool) (s : State) : Host.Outcome State Fault Refusal :=
  done s (core (fun s => flow (canErr cn kind tx flag except s)) s)

/-- RECOVER (R286): A write of CN_CTRL.RECOVER starts bus-off recovery. -/
def execRecover (agent : Fin 3) (cn : Fin 16) (s : State) : Host.Outcome State Fault Refusal :=
  done s (core (fun s => agentWrite agent (cnOff cn 0) (s.reg (cnOff cn 0) ||| 0x40#32) s) s)

/-- BUS_RECOVERED (R286): 128 occurrences of 11 recessive bits have been counted and the controller leaves bus-off. -/
def execBusRecovered (cn : Fin 16) (s : State) : Host.Outcome State Fault Refusal :=
  done s (core (canRecovered cn) s)

end Sys2Proof.Machine
end

