-- ==== Sys2Proof/Machine/ExecCells.lean ====
section
/-!
DEFINITION. The meanings of the commands of rate cells, the stitch and fittings (R175 to R186, R412 to R427).
-/
namespace Sys2Proof.Machine

/-- CELL_DUE (R178): A rate cell falls due under its trigger. -/
def execCellDue (cell : Fin 1024) (s : State) : Host.Outcome State Fault Refusal :=
  done s (core (fun s => if stitchFirstDue s || fitFirstDue s || decide (heldDue s ≠ []) then s else cellDueGo cell s) s)

/-- CELL_EMISSION (R181): The emitter forms a due emission after the required, freshness and size checks. -/
def execCellEmission (s : State) : Host.Outcome State Fault Refusal :=
  done s (core (fun s => flow (emitCell s)) s)

/-- STITCH_TAKES_EFFECT (R417): A stitch fires, and the banks and staged settings change together at index S. -/
def execStitchTakesEffect (s : State) : Host.Outcome State Fault Refusal :=
  done s (core (fun s => flow (stitchGo s)) s)

/-- REBASTE (R413): The checkpoint at the stitch commits and the dirty blocks are copied into the new staging bank. -/
def execRebaste (s : State) : Host.Outcome State Fault Refusal :=
  done s (core Sys2Proof.Machine.rebasteGo s)

/-- REBASTE_DONE (R413): The re-baste copy ends and waiting LOAD_TABLE commands proceed. -/
def execRebasteDone (s : State) : Host.Outcome State Fault Refusal :=
  done s (core (fun s => if s.cons.rebasteRun then (let t := rebasteEnd s; loadsGo t.cmds t) else s) s)

/-- FITTING_CAPTURE (R422): All counters are copied into a shadow bank on the capture tick. -/
def execFittingCapture (second : Bool) (s : State) : Host.Outcome State Fault Refusal :=
  done s (core (fitCapture second) s)

/-- FITTING_RECORD_WRITTEN (R426): The fitting record has been written to host memory and the bank is freed. -/
def execFittingRecordWritten (bank : Bool) (s : State) : Host.Outcome State Fault Refusal :=
  done s (core (fitWritten (b2n bank)) s)

end Sys2Proof.Machine
end

