-- ==== Sys2Proof/Machine/ExecCheck.lean ====
section
/-!
DEFINITION. The meanings of the commands of the check units (R304 to R322).
-/
namespace Sys2Proof.Machine

/-- CK_START (R308): CK_CMD.START initialises the selected context and folds the binding word. -/
def execCkStart (agent : Fin 3) (cu : Fin 16) (s : State) : Host.Outcome State Fault Refusal :=
  done s (core (agentWrite agent (cuOff cu 0x40) 1#32) s)

/-- CK_FINISH (R308): CK_CMD.FINISH forms the result and compares it when CMP_EN is set. -/
def execCkFinish (agent : Fin 3) (cu : Fin 16) (s : State) : Host.Outcome State Fault Refusal :=
  done s (core (agentWrite agent (cuOff cu 0x40) 2#32) s)

/-- CK_CLEAR (R308): CK_CMD.CLEAR returns the selected context to reset. -/
def execCkClear (agent : Fin 3) (cu : Fin 16) (s : State) : Host.Outcome State Fault Refusal :=
  done s (core (agentWrite agent (cuOff cu 0x40) 8#32) s)

/-- SELFTEST (R322): CK_CMD.SELFTEST starts a known-answer test, or is refused as BUSY. -/
def execSelftest (agent : Fin 3) (cu : Fin 16) (s : State) : Host.Outcome State Fault Refusal :=
  done s (core (agentWrite agent (cuOff cu 0x40) 4#32) s)

/-- SELFTEST_DONE (R322): A unit self-test ends with PASS or FAIL. -/
def execSelftestDone (cu : Fin 16) (pass : Bool) (s : State) : Host.Outcome State Fault Refusal :=
  done s (core (cuTestEnd cu pass) s)

/-- CK_DATA_WRITE (R308): A write to CK_DATA1, CK_DATA2 or CK_DATA4 folds bytes into the running value. -/
def execCkDataWrite (agent : Fin 3) (cu : Fin 16) (which : Fin 3) (val : Word)
    (s : State) : Host.Outcome State Fault Refusal :=
  done s (core (agentWrite agent (cuOff cu (0x34 + 4 * which.val)) val) s)

/-- CK_CFG_WRITE (R313): A write to CK_CFG replaces the context configuration, or is refused in RUN when opened. -/
def execCkCfgWrite (agent : Fin 3) (cu : Fin 16) (val : Word) (s : State) : Host.Outcome State Fault Refusal :=
  done s (core (agentWrite agent (cuOff cu 4) val) s)

/-- CK_OPEN_PARAM_WRITE (R313): A write to CK_POLY, CK_INIT or CK_XOR is stored, or refused in RUN. -/
def execCkOpenParamWrite (agent : Fin 3) (cu : Fin 16) (which : Fin 6) (val : Word)
    (s : State) : Host.Outcome State Fault Refusal :=
  done s (core (agentWrite agent (cuOff cu (8 + 4 * which.val)) val) s)

/-- CK_RUN_RESTORE (R309): A write to CK_RUN_LO restores a running value and sets STARTED. -/
def execCkRunRestore (agent : Fin 3) (cu : Fin 16) (val : Word) (s : State) : Host.Outcome State Fault Refusal :=
  done s (core (agentWrite agent (cuOff cu 0x24) val) s)

end Sys2Proof.Machine
end

