-- ==== Sys2Proof/Machine/ExecCommand.lean ====
section
/-!
DEFINITION. The meanings of the commands of the command ring (R377 to R383).
-/
namespace Sys2Proof.Machine

/-- CMD_FETCH (R378): A CMD descriptor is fetched when CPL has an unclaimed entry and fewer than 16 commands are pending. -/
def execCmdFetch (desc : List Word) (s : State) : Host.Outcome State Fault Refusal :=
  done s (core (fun s => flow (cmdFetched desc s)) s)

/-- NOP (R380): Command NOP completes after every earlier command. -/
def execNop (s : State) : Host.Outcome State Fault Refusal :=
  done s (core nopStart s)

/-- LOAD_TABLE (R163): Command LOAD_TABLE writes a run of entries into the staging banks, refusing bad entries. -/
def execLoadTable (buf : List Word) (ok : Bool) (s : State) : Host.Outcome State Fault Refusal :=
  done s (core (fun s => whenDo s.hostUp (startHead 1 (loadStart buf ok)) s) s)

/-- STITCH (R416): Command STITCH schedules a bank flip at a sentence index, time or phase coordinate. -/
def execStitch (s : State) : Host.Outcome State Fault Refusal :=
  done s (core (startHead 2 stitchStart) s)

/-- FITTING (R424): Command FITTING takes a shadow bank and schedules a counter snapshot. -/
def execFitting (s : State) : Host.Outcome State Fault Refusal :=
  done s (core (startHead 3 fittingStart) s)

/-- SEAM_TEST (R349): Command SEAM_TEST runs the injection test on a seam, or readmits a fenced seam. -/
def execSeamTest (s : State) : Host.Outcome State Fault Refusal :=
  done s (core (startHead 4 seamTestStart) s)

/-- POWER (R449): Command POWER stages profiles or requests a change of power state. -/
def execPower (s : State) : Host.Outcome State Fault Refusal :=
  done s (core (startHead 5 powerStart) s)

/-- A CAL_APPLY may start: from MRAM at any time, from a buffer while the device may read it (R358). -/
def calReady (s : State) : Bool := s.hostUp || (headCmd s).any (fun c => bit (wordAt c.w 1) 0)

/-- CAL_APPLY (R462): Command CAL_APPLY stages a user calibration record for the next stitch. -/
def execCalApply (buf : List Byte) (ok : Bool) (mram : BitVec 8) (s : State) : Host.Outcome State Fault Refusal :=
  done s (core (fun s => whenDo (calReady s) (startHead 6 (calStart buf ok mram.toNat)) s) s)

/-- PEER_FENCE (R408): Command PEER_FENCE completes once every earlier bridge write is acknowledged or logged. -/
def execPeerFence (s : State) : Host.Outcome State Fault Refusal :=
  done s (core (startHead 7 fenceStart) s)

/-- RING_RESET (R382): Command RING_RESET deactivates a ring, waits for its requests to end and zeroes its indices. -/
def execRingReset (s : State) : Host.Outcome State Fault Refusal :=
  done s (core (startHead 8 ringResetStart) s)

/-- PORT_SERVICE (R277): Command PORT_SERVICE takes a port out of service or returns it. -/
def execPortService (s : State) : Host.Outcome State Fault Refusal :=
  done s (core (startHead 9 serviceStart) s)

/-- COMMAND_COMPLETION (R378): A pending command's awaited event occurs, and its CPL entry is written. -/
def execCommandCompletion (idx : Word) (s : State) : Host.Outcome State Fault Refusal :=
  done s (core (fun s => flow (completeCmd idx s)) s)

end Sys2Proof.Machine
end

