-- ==== Sys2Proof/Machine/ExecEngine.lean ====
section
/-!
DEFINITION. The meanings of the commands of the engines, the seam and checkpoints (R19, R325 to R354).
-/
namespace Sys2Proof.Machine

/-- HEADER_ISSUE (R19): The merger issues the next complete header to the engines with a sentence index. -/
def execHeaderIssue (eng : Fin 3) (s : State) : Host.Outcome State Fault Refusal :=
  done s (core (fun s => flow (issueNext eng s)) s)

/-- DECISION_ENTRY (R326): An engine finishes its lookup and chain and pushes a decision entry into its alignment buffer. -/
def execDecisionEntry (eng : Fin 3) (parityOk : Bool) (s : State) : Host.Outcome State Fault Refusal :=
  done s (core (fun s => flow (decideNext eng parityOk s)) s)

/-- PARKED_RESUME (R161): A progress token makes every addressed byte present and the parked decision resumes. -/
def execParkedResume (eng : Fin 3) (parityOk : Bool) (s : State) : Host.Outcome State Fault Refusal :=
  done s (core (fun s => flow (resumeNext eng parityOk s)) s)

/-- SEAM_RELEASE (R330): Both seams present identical release words and the decision is released to fan-out and the tape unit. -/
def execSeamRelease (eng : Fin 3) (s : State) : Host.Outcome State Fault Refusal :=
  done s (core (fun s => flow (seamGo eng s)) s)

/-- ENTRY_LATE_TIMER (R330): 2 µs pass without an expected entry, making the engine odd (SKEW) or leaving no majority. -/
def execEntryLateTimer (s : State) : Host.Outcome State Fault Refusal :=
  done s (core (fun s => flow (lateGo s)) s)

/-- SEAM_DISAGREE (R334): The seams present different words, or one or both are silent for 2 µs, and release is held. -/
def execSeamDisagree (s : State) : Host.Outcome State Fault Refusal :=
  done s (core disagreeGo s)

/-- SEAM_ROUND_END (R334): A round of injection test, restore and re-vote ends with fencing, resumption, a further round or
HALTED. -/
def execSeamRoundEnd (aPass bPass agree : Bool) (s : State) : Host.Outcome State Fault Refusal :=
  done s (core (fun s => flow (roundEnd aPass bPass agree s)) s)

/-- SELF_FAULT (R336): An engine reports a parity error in its own tables or pipeline. -/
def execSelfFault (eng : Fin 3) (s : State) : Host.Outcome State Fault Refusal :=
  done s (core (selfGo eng) s)

/-- RESYNC_COPY_COMPLETE (R338): The copy of the donor image finishes and the join index is fixed. -/
def execResyncCopyComplete (s : State) : Host.Outcome State Fault Refusal :=
  done s (core copyDone s)

/-- RESYNC_JOIN (R338): The mirrored stream has drained and the target starts voting from the join index. -/
def execResyncJoin (s : State) : Host.Outcome State Fault Refusal :=
  done s (core joinGo s)

/-- CHECKPOINT_CUT (R342): The checkpoint period elapses and a checkpoint is cut at the next issued header. -/
def execCheckpointCut (s : State) : Host.Outcome State Fault Refusal :=
  done s (core cutGo s)

/-- CHECKPOINT_COMMIT (R343): The snapshot has been written and signature-compared, and the slot commits and the notches
advance. -/
def execCheckpointCommit (ok : Bool) (blocks : List (Nat × BitVec 3)) (s : State) : Host.Outcome State Fault Refusal :=
  done s (core (commitGo ok blocks) s)

/-- RESTART_COMPLETE (R345): Table repair, state load and replay are done and release resumes. -/
def execRestartComplete (slotOk : Bool) (blocks : List (Nat × BitVec 3)) (replayOk : Bool) (s : State) : Host.Outcome State Fault Refusal :=
  done s (core (fun s => flow (restartEnd slotOk blocks replayOk s)) s)

/-- SPLIT_ENGINE_TIMEOUT (R350): In Split, a header has had no entry for 2 µs and that engine restarts. -/
def execSplitEngineTimeout (eng : Fin 3) (s : State) : Host.Outcome State Fault Refusal :=
  done s (core (splitLate eng) s)

/-- SCRUB (R347): The scrub period elapses and the engines compare block signatures. -/
def execScrub (blocks : List (Nat × BitVec 3)) (s : State) : Host.Outcome State Fault Refusal :=
  done s (core (scrubGo blocks) s)

/-- SEAM_TEST_END (R349): An in-service seam test ends with a pass or a fencing. -/
def execSeamTestEnd (pass : Bool) (s : State) : Host.Outcome State Fault Refusal :=
  done s (core (seamTestOver pass) s)

/-- COPY_PATH_PARITY (R339): A parity error on the resynchronisation copy path fails the copy, fencing the target again or
retiring it. -/
def execCopyPathParity (s : State) : Host.Outcome State Fault Refusal :=
  done s (core copyParity s)

end Sys2Proof.Machine
end

