-- ==== Sys2Proof/Machine/ExecEther.lean ====
section
/-!
DEFINITION. The meanings of the commands of 10BASE-T1S and the Ethernet uplinks (R288 to R301).
-/
namespace Sys2Proof.Machine

/-- T1S_FRAME_RECEIVED (R127): A 10BASE-T1S frame passes its FCS and becomes a record. -/
def execT1sFrameReceived (ts : Fin 4) (bytes : List Byte) (fin : FrameEnd) (own : Bool) (age : Nat)
    (s : State) : Host.Outcome State Fault Refusal :=
  done s (core (tsReceive ts bytes fin.fcsOk own fin.errors age) s)

/-- T1S_FRAME_SENT (R289): A 10BASE-T1S frame completes on the medium. -/
def execT1sFrameSent (sent : T1sEnd) (s : State) : Host.Outcome State Fault Refusal :=
  done s (core (fun s => flow (tsSent sent.ts sent.jabber s)) s)

/-- T1S_COLLISION (R289): A CSMA/CD collision leads to backoff, or to a drop after 16 attempts. -/
def execT1sCollision (ts : Fin 4) (s : State) : Host.Outcome State Fault Refusal :=
  done s (core (fun s => flow (tsCollide ts s)) s)

/-- PLCA_LOST (R289): No BEACON has been seen for the standard time and the port falls back to CSMA/CD. -/
def execPlcaLost (ts : Fin 4) (s : State) : Host.Outcome State Fault Refusal :=
  done s (core (tsPlcaLost ts) s)

/-- PLCA_BACK (R289): A BEACON returns. -/
def execPlcaBack (ts : Fin 4) (s : State) : Host.Outcome State Fault Refusal :=
  done s (core (tsPlcaBack ts) s)

/-- T1S_BACKOFF_END (R289): The CSMA/CD backoff after a 10BASE-T1S collision ends and the frame is sent again. -/
def execT1sBackoffEnd (ts : Fin 4) (s : State) : Host.Outcome State Fault Refusal :=
  done s (core (fun s => flow (tsBackoffEnd ts s)) s)

/-- UPLINK_FRAME_RECEIVED (R293): An uplink frame is classified to a stream and split into records. -/
def execUplinkFrameReceived (eu : Fin 2) (bytes : List Byte) (fin : FrameEnd) (age : Nat)
    (s : State) : Host.Outcome State Fault Refusal :=
  done s (core (euReceive eu bytes fin.fcsOk fin.errors age) s)

/-- LINK_UP (R291): An uplink link comes up after training. -/
def execLinkUp (eu : Fin 2) (found : LinkFound) (s : State) : Host.Outcome State Fault Refusal :=
  done s (core (euUp eu found.anDone found.remote) s)

/-- LINK_DOWN (R292): An uplink link goes down and its closed frames are discarded. -/
def execLinkDown (loss : LinkLoss) (s : State) : Host.Outcome State Fault Refusal :=
  done s (core (fun s => flow (euLost loss.eu loss.remote s)) s)

/-- SPEED_CHANGE (R291): A change of EU_CTRL.SPEED takes the link down and retrains it. -/
def execSpeedChange (agent : Fin 3) (eu : Fin 2) (val : Word) (s : State) : Host.Outcome State Fault Refusal :=
  done s (core (agentWrite agent (euOff eu 0) val) s)

/-- FRAME_CLOSE_TIMER (R295): CLOSE_US has passed since the first sentence and the open frame closes. -/
def execFrameCloseTimer (stream : Fin 16) (s : State) : Host.Outcome State Fault Refusal :=
  done s (core (fun s => flow (closeTimer stream s)) s)

/-- UPLINK_FRAME_SENT (R295): A closed frame is sent and its sentences count as delivered. -/
def execUplinkFrameSent (eu : Fin 2) (age : Nat) (s : State) : Host.Outcome State Fault Refusal :=
  done s (core (fun s => flow (euSent eu age s)) s)

/-- TXTS_POP (R301): A read of EU_TXTS_ID pops the oldest stamp and latches its DT. -/
def execTxtsPop (agent : Fin 3) (eu : Fin 2) (s : State) : Host.Outcome State Fault Refusal :=
  done s (core (agentRead agent (euOff eu 0x24) false) s)

/-- HEADER_SPAN_END (R108): A CAN, 10BASE-T1S or uplink raw frame reaches the end of its header span and a cut-through
talker's unit gets its early header. -/
def execHeaderSpanEnd (talker : Fin 84) (kind : Fin 4) (ide : Bool) (id : BitVec 29) (len : Nat) (sec : Bool)
    (vcid sdt : Byte) (head : List Byte) (age : Nat) (s : State) : Host.Outcome State Fault Refusal :=
  done s (core (headerSpan talker kind ide id.toNat len sec vcid sdt head age) s)

end Sys2Proof.Machine
end

