-- ==== Sys2Proof/Machine/ExecHost.lean ====
section
/-!
DEFINITION. The meanings of the commands of host accesses, rings and reads (R357 to R376).
-/
namespace Sys2Proof.Machine

/-- REGISTER_WRITE (R5): A write to a register with no behaviour of its own applies the field access types, reserved-bit rules
and page grants. -/
def execRegisterWrite (agent : Fin 3) (off : BitVec 17) (data : DWord) (size : Nat) (full : Bool) (poisoned : Bool)
    (s : State) : Host.Outcome State Fault Refusal :=
  done s (accessWrite agent off.toNat data size full poisoned s)

/-- LO_READ_LATCH (R471): A read of an LO register latches the matching HI register for the reading agent. -/
def execLoReadLatch (agent : Fin 3) (off : BitVec 17) (wide : Bool) (s : State) : Host.Outcome State Fault Refusal :=
  done s (agentRead agent off.toNat wide s)

/-- TP_DT_LO_READ (R471): A read of TP_DT_LO latches TP_DT_HI and every channel cycle and angle. -/
def execTpDtLoRead (agent : Fin 3) (wide : Bool) (s : State) : Host.Outcome State Fault Refusal :=
  done s (core (agentRead agent 0x3008 wide) s)

/-- HOST_INTERFACE_RESET (R360): A Function Level Reset, hot reset or link-down event resets the host interface only. -/
def execHostInterfaceReset (_kind : Fin 3) (s : State) : Host.Outcome State Fault Refusal :=
  done s (whenDo s.up? hostReset s)

/-- PERST (R477): PERST_N low holds the host interface in reset while the rest of the device runs. -/
def execPerst (level : Bool) (s : State) : Host.Outcome State Fault Refusal :=
  done s (if s.up? then perstTo level s else { s with perst := level })

/-- D3HOT_ENTRY (R361): The function enters D3hot, issues no requests and releases IRQ_N. -/
def execD3hotEntry (s : State) : Host.Outcome State Fault Refusal :=
  done s (if s.up? && s.perst then { s with d3hot := true } else s)

/-- D0_RETURN (R361): The function is returned from D3hot to D0 and resumes issuing requests and driving IRQ_N. -/
def execD0Return (s : State) : Host.Outcome State Fault Refusal :=
  done s (if s.up? && s.perst then { s with d3hot := false } else s)

/-- BUS_MASTER_ENABLE (R358): Bus Master Enable is set, with the payload and read sizes and the tags that Device Control gives, and
stalled rings, image transfers and waiting fitting DMA resume. -/
def execBusMasterEnable (s : State) : Host.Outcome State Fault Refusal :=
  done s (if s.up? && s.perst && !s.d3hot then
      let (k, s1) := s.fresh
      let (mps, mrrs, ext) := Config.deviceControl k
      whenDo (!s.bme) bootReads { s1 with bme := true, pci := { s.pci with mps := mps, mrrs := mrrs, extTag := ext } }
    else s)

/-- LINK_RETRAIN (R389): The PCI Express link changes speed or width, and LINK_RETRAIN is counted and raised. -/
def execLinkRetrain (s : State) : Host.Outcome State Fault Refusal :=
  done s (whenDo (s.up? && s.perst) (fun s => raise 0x1928 0x40 (count (ctHi 341) 1 s)) s)

/-- DOORBELL_WRITE (R364): An 8-byte doorbell write is checked for ownership, enable, complement and index validity, and
advances the ring. -/
def execDoorbellWrite (page : Fin 8) (slot : BitVec 12) (lo hi : Word) (s : State) : Host.Outcome State Fault Refusal :=
  done s (hostWrite (0x10000 + 0x1000 * page.val + slot.toNat) (mkD hi lo) 8 true false s)

/-- RING_ENABLE_WRITE (R365): A write of HI_RING_CFG.EN activates, pauses or resumes a ring, or is refused with BAD_CFG. -/
def execRingEnableWrite (agent : Fin 3) (ring : Fin 66) (val : Word) (s : State) : Host.Outcome State Fault Refusal :=
  done s (core (agentWrite agent (ringOff ring + 8) val) s)

/-- GEN_OFFER_WRITE (R368): A write to HI_GEN_OFFER recomputes HI_GEN_AGREED. -/
def execGenOfferWrite (agent : Fin 3) (val : Word) (s : State) : Host.Outcome State Fault Refusal :=
  done s (core (agentWrite agent 0x10 val) s)

/-- WB_BASE_WRITE (R367): A write to HI_WB_BASE_HI marks the write-back base written, unless a ring is active. -/
def execWbBaseWrite (agent : Fin 3) (val : Word) (s : State) : Host.Outcome State Fault Refusal :=
  done s (core (agentWrite agent 0x1934 val) s)

/-- HT_FETCH_COMPLETE (R370): An HT descriptor and its payload have arrived, and the record is formed, stamped and numbered or
refused. -/
def execHtFetchComplete (ring : Fin 32) (desc : List Word) (payload : List Byte) (ok : Bool)
    (s : State) : Host.Outcome State Fault Refusal :=
  done s (core (fun s => flow (if desc.isEmpty && !ok then hostReadFails ring false s else htFetch ring desc payload ok s)) s)

/-- HR_DESCRIPTOR_FETCH (R374): A prefetched HR descriptor arrives and makes that ring's lane heads eligible. -/
def execHrDescriptorFetch (ring : Fin 32) (desc : List Word) (s : State) : Host.Outcome State Fault Refusal :=
  done s (core (fun s => flow (hrFetch ring desc s)) s)

/-- READ_COMPLETION_ERROR (R358): A device read completes with UR, CA or poison, and ends as READ_ERR. -/
def execReadCompletionError (who : Fin 68) (s : State) : Host.Outcome State Fault Refusal :=
  done s (core (fun s => flow (readFails_ who false s)) s)

/-- CPL_TIMEOUT (R358): A device read is not completed within the completion timeout. -/
def execCplTimeout (who : Fin 68) (s : State) : Host.Outcome State Fault Refusal :=
  done s (core (fun s => flow (readFails_ who true s)) s)

/-- IMOD_TIMER (R376): The moderation TIME elapses and the ring's DONE bit rises. -/
def execImodTimer (ring : Fin 66) (s : State) : Host.Outcome State Fault Refusal :=
  done s (core (imodEnds ring) s)

end Sys2Proof.Machine
end

