-- ==== Sys2Proof/Machine/ExecPeer.lean ====
section
/-!
DEFINITION. The meanings of the commands of the peer link and the bridge (R390 to R409).
-/
namespace Sys2Proof.Machine

/-- PEER_LINK_ENABLE (R390): Setting PB_CTRL.EN starts link training. -/
def execPeerLinkEnable (agent : Fin 3) (s : State) : Host.Outcome State Fault Refusal :=
  done s (core (fun s => agentWrite agent 0xC000 (s.reg 0xC000 ||| 1#32) s) s)

/-- RETRAIN (R390): A write of PB_CTRL.RETRAIN forces a retrain. -/
def execRetrain (agent : Fin 3) (s : State) : Host.Outcome State Fault Refusal :=
  done s (core (fun s => agentWrite agent 0xC000 (s.reg 0xC000 ||| 4#32) s) s)

/-- PEER_LINK_UP (R390): Training completes and the link is UP, or UP_X1 when one lane fails. -/
def execPeerLinkUp (rank : Bool) (fl0 fl1 : Bool) (s : State) : Host.Outcome State Fault Refusal :=
  done s (core (linkTrained rank fl0 fl1) s)

/-- FLIT_RECEIVED (R391): A flit arrives and is acknowledged or NAKed, and its credits and acks are applied. -/
def execFlitReceived (crcOk : Bool) (hdr : Word) (payload : List Word) (sub : Fin 8)
    (s : State) : Host.Outcome State Fault Refusal :=
  done s (core (fun s => flow (flitIn crcOk hdr payload sub s)) s)

/-- REPLAY_TIMER (R391): 2 µs pass without an acknowledgement and the sender replays. -/
def execReplayTimer (s : State) : Host.Outcome State Fault Refusal :=
  done s (core replay s)

/-- PEER_LINK_DOWN (R393): A retrain fails or nothing is received for 1 µs, and the link goes DOWN. -/
def execPeerLinkDown (s : State) : Host.Outcome State Fault Refusal :=
  done s (core linkDownNow s)

/-- SENTENCE_FRAME_RECEIVED (R395): A complete sentence frame is checked and forms a record in PEER or ORIGIN mode. -/
def execSentenceFrameReceived (sub : Fin 8) (s : State) : Host.Outcome State Fault Refusal :=
  done s (core (fun s => flow (frameIn sub s)) s)

/-- SENTENCE_FRAME_ACKED (R394): The last flit of a sentence is acknowledged and it counts as delivered. -/
def execSentenceFrameAcked (sub : Fin 8) (s : State) : Host.Outcome State Fault Refusal :=
  done s (core (fun s => flow (frameAcked sub s)) s)

/-- BRIDGE_WRITE (R400): A host write to a window aperture issues a posted or non-posted bridge write. -/
def execBridgeWrite (win : Fin 8) (off : Byte) (data : Word) (full : Bool) (s : State) : Host.Outcome State Fault Refusal :=
  done s (hostWrite (0xC800 + 0x100 * win.val + off.toNat) (mkD 0#32 data) 4 full false s)

/-- BRIDGE_READ (R400): A host read of a window aperture issues a bridge read. -/
def execBridgeRead (win : Fin 8) (off : Byte) (s : State) : Host.Outcome State Fault Refusal :=
  done s (hostRead (0xC800 + 0x100 * win.val + off.toNat) false s)

/-- INBOUND_REQUEST (R401): The inbound master serves a partner read or write request, or fails it. -/
def execInboundRequest (wr : Bool) (off : BitVec 16) (data : Word) (full : Bool) (tag : BitVec 10) (win : Fin 8)
    (posted : Bool) (s : State) : Host.Outcome State Fault Refusal :=
  done s (core (inbound wr off.toNat data full tag.toNat win posted) s)

/-- BRIDGE_TIMEOUT (R403): A bridge read or non-posted write has no completion after 10 µs. -/
def execBridgeTimeout (tag : BitVec 10) (rd : Bool) (s : State) : Host.Outcome State Fault Refusal :=
  done s (core (bridgeLate tag.toNat rd) s)

/-- WRITE_ACK_TIMER (R407): 1 µs after the first unacknowledged write, the target sends a cumulative acknowledgement. -/
def execWriteAckTimer (s : State) : Host.Outcome State Fault Refusal :=
  done s (core ackTimer s)

/-- FAULT_NOTICE (R407): A FAULT_NOTICE arrives and is entered in the outbound fault log. -/
def execFaultNotice (tag : BitVec 10) (reason : BitVec 4) (off : BitVec 16) (s : State) : Host.Outcome State Fault Refusal :=
  done s (core (faultArrives tag.toNat reason.toNat off.toNat) s)

/-- FAULT_LOG_POP (R407): A read of a fault-log ENTRY register pops the oldest entry. -/
def execFaultLogPop (agent : Fin 3) (inbound : Bool) (s : State) : Host.Outcome State Fault Refusal :=
  done s (core (agentRead agent (if inbound then 0xC094 else 0xC084) false) s)

/-- ACQUIRE (R404): A write of PB_PWn_LOCK.ACQUIRE sends a lock request. -/
def execAcquire (agent : Fin 3) (win : Fin 8) (s : State) : Host.Outcome State Fault Refusal :=
  done s (core (agentWrite agent (0xC044 + 8 * win.val) 1#32) s)

/-- RELEASE (R404): A write of PB_PWn_LOCK.RELEASE ends a lock. -/
def execRelease (agent : Fin 3) (win : Fin 8) (s : State) : Host.Outcome State Fault Refusal :=
  done s (core (agentWrite agent (0xC044 + 8 * win.val) 2#32) s)

/-- LOCK_REQUEST_RECEIVED (R405): A partner lock request is granted or refused by rank. -/
def execLockRequestReceived (win : Fin 8) (s : State) : Host.Outcome State Fault Refusal :=
  done s (core (lockAsked win) s)

/-- LOCK_GRANT_RECEIVED (R404): A grant or refusal of this device's lock request arrives. -/
def execLockGrantReceived (granted : Bool) (s : State) : Host.Outcome State Fault Refusal :=
  done s (core (lockAnswered granted) s)

/-- LOCK_RETRY (R405): The backoff of a refused lock request ends and it is sent again. -/
def execLockRetry (s : State) : Host.Outcome State Fault Refusal :=
  done s (core lockAgain s)

/-- LOCK_TIMEOUT (R406): A lock has been held for 2 µs and the target breaks it. -/
def execLockTimeout (own : Bool) (s : State) : Host.Outcome State Fault Refusal :=
  done s (core (lockBroken own) s)

end Sys2Proof.Machine
end

