-- ==== Sys2Proof/Machine/Tap.lean ====
section
/-!
DEFINITION. The test access port (R487), an IEEE 1149.1 controller: what an edge of TCK does to it, and its reset.
-/
namespace Sys2Proof.Machine

/-- The controller's next state from TMS. -/
def tapNext (st : Nat) (tms : Bool) : Nat :=
  let t := fun (on off : Nat) => if tms then on else off
  match st with
  | 0 => t 0 1
  | 1 => t 2 1
  | 2 => t 9 3
  | 3 => t 5 4
  | 4 => t 5 4
  | 5 => t 8 6
  | 6 => t 7 6
  | 7 => t 8 4
  | 8 => t 2 1
  | 9 => t 0 10
  | 10 => t 12 11
  | 11 => t 12 11
  | 12 => t 15 13
  | 13 => t 14 13
  | 14 => t 15 11
  | _ => t 2 1

/-- IDCODE: version 0xB, part number 0x7480, the manufacturer identity, 1 (R487). -/
def idcode : Nat := 0xB * 0x10000000 + 0x7480 * 0x1000 + Config.jedecId.toNat * 2 + 1

/-- The boundary register is selected: EXTEST or SAMPLE/PRELOAD. -/
def scanIr (ir : Nat) : Bool := decide (ir = 0 ∨ ir = 2)
/-- Bits of the data register that an instruction selects: the boundary register, IDCODE, or the bypass bit. -/
def drBits (ir : Nat) : Nat := if scanIr ir then Config.scanCells + 1 else if ir = 1 then 32 else 1
/-- A bit shifted in at the most significant end. -/
def shiftIn (n v : Nat) (b : Bool) : Nat := v / 2 + b2n b * 2 ^ (n - 1)

/-- A rising edge of TCK: capture or shift in the state that the controller is in, then the move by TMS. -/
def tapRise (tms tdi : Bool) (s : State) : State :=
  let t := s.tap
  let (k, s1) := if t.st = 3 ∧ scanIr t.ir then s.fresh else (0, s)
  let t1 := match t.st with
    | 3 => { t with dr := if scanIr t.ir then Config.scanBits k % 2 ^ drBits t.ir else if t.ir = 1 then idcode else 0 }
    | 4 => { t with dr := shiftIn (drBits t.ir) t.dr tdi }
    | 10 => { t with irShift := 1 }
    | 11 => { t with irShift := shiftIn 5 t.irShift tdi }
    | _ => t
  let n := tapNext t.st tms
  { s1 with tap := { t1 with st := n, ir := if n = 0 then 1 else t1.ir } }

/-- A falling edge of TCK: the update states act, and TDO takes the next bit in the shift states. -/
def tapFall (s : State) : State :=
  let t := s.tap
  let t1 := match t.st with
    | 8 => if scanIr t.ir then { t with upd := t.dr } else t
    | 15 => { t with ir := t.irShift }
    | _ => t
  { s with tap := { t1 with tdo := if t.st = 4 then some (nbit t.dr 0) else if t.st = 11 then some (nbit t.irShift 0) else none } }

/-- The port has power (R487). -/
def tapOn (s : State) : Bool := decide (s.pw.st ≠ 4)
/-- An edge of TCK. -/
def tapEdge (rising tms tdi : Bool) (s : State) : State :=
  if tapOn s then (if rising then tapRise tms tdi s else tapFall s) else s
/-- TRST_N resets the controller asynchronously. -/
def tapReset (s : State) : State :=
  if tapOn s then { s with tap := { s.tap with st := 0, ir := 1, tdo := none } } else s

end Sys2Proof.Machine
end

