-- ==== Sys2Proof/Machine/ExecPower.lean ====
section
/-!
DEFINITION. The meanings of the commands of resets, wake, power states, monitors and the test access port (R448 to R487).
-/
namespace Sys2Proof.Machine

/-- BROWNOUT (R481): VDD falls below 0.70 V with RESET_N high, and a cold boot follows when it returns. -/
def execBrownout (s : State) : Host.Outcome State Fault Refusal :=
  done s (brownedOut s)

/-- VAON_LOSS (R481): VAON falls below 1.55 V and the whole device is reset. -/
def execVaonLoss (s : State) : Host.Outcome State Fault Refusal :=
  done s (vaonFails s)

/-- TEST_EN_ASSERT (R475): TEST_EN at 1 holds the device in reset with all outputs undriven. -/
def execTestEnAssert (level : Bool) (s : State) : Host.Outcome State Fault Refusal :=
  done s (testEnTo level s)

/-- PORT_WAKE_EDGE (R274): A falling edge on an armed port starts the wake oscillator and a wake. -/
def execPortWakeEdge (port : Fin 48) (s : State) : Host.Outcome State Fault Refusal :=
  done s (portEdge port s)

/-- WAKE_IN_EDGE (R450): The WAKE_IN edge wakes the device to WAKE_TO. -/
def execWakeInEdge (rising : Bool) (s : State) : Host.Outcome State Fault Refusal :=
  done s (wakeIn rising s)

/-- HOST_WAKE (R450): A write to PW_HOST_WAKE is a wake event when HOST_EN is set. -/
def execHostWake (agent : Fin 3) (s : State) : Host.Outcome State Fault Refusal :=
  done s (agentWrite agent 0x2010 1#32 s)

/-- TIMER_WAKE (R450): DT reaches PW_WAKE_DT and the device wakes. -/
def execTimerWake (s : State) : Host.Outcome State Fault Refusal :=
  done s (timerWakes s)

/-- NAP_ENTRY (R451): The device enters NAP, stopping the core clocks and the media. -/
def execNapEntry (s : State) : Host.Outcome State Fault Refusal :=
  done s (core napEntered s)

/-- HIBERNATE_ENTRY (R452): The hibernate image is written to MRAM and PWR_REQ is released. -/
def execHibernateEntry (s : State) : Host.Outcome State Fault Refusal :=
  done s (core hibEntered s)

/-- PWR_GOOD (R453): PWR_GOOD arrives after a hibernate wake and the device restores from MRAM. -/
def execPwrGood (imageOk : Bool) (bist : BitVec 4) (seams : BitVec 3) (mram : BitVec 24)
    (s : State) : Host.Outcome State Fault Refusal :=
  done s (powerGood imageOk bist.toNat seams.toNat mram.toNat s)

/-- PMIC_TIMEOUT (R453): PWR_GOOD has not come within 10 ms and the device stays in HIBERNATE. -/
def execPmicTimeout (s : State) : Host.Outcome State Fault Refusal :=
  done s (pmicLate s)

/-- PERSIST_WRITE (R457): PERSIST_S elapses and the persistent counters are written to MRAM. -/
def execPersistWrite (s : State) : Host.Outcome State Fault Refusal :=
  done s (core persElapsed s)

/-- SLOW_CHECKPOINT (R458): SLOW_S elapses and a slow checkpoint is written to MRAM. -/
def execSlowCheckpoint (s : State) : Host.Outcome State Fault Refusal :=
  done s (core slowStore s)

/-- THERMAL_SAMPLE (R464): The junction sensors are sampled every 100 µs and the thresholds are checked. -/
def execThermalSample (t0 t1 t2 t3 : BitVec 12) (s : State) : Host.Outcome State Fault Refusal :=
  done s (core (thermal [t0, t1, t2, t3]) s)

/-- SUPPLY_CHECK (R465): Each supply is checked every 10 µs against its window. -/
def execSupplyCheck (out : BitVec 9) (s : State) : Host.Outcome State Fault Refusal :=
  done s (core (supplies out.toNat) s)

/-- VAON_IN_RANGE (R480): VAON enters its operating range, the always-on domain and crystal oscillator start, and PWR_REQ is
driven high. -/
def execVaonInRange (s : State) : Host.Outcome State Fault Refusal :=
  done s (vaonUp s)

/-- RESET_N_LOW (R478): RESET_N is held low past the glitch filter, the device is reset and its LVCMOS outputs go
high-impedance. -/
def execResetNLow (s : State) : Host.Outcome State Fault Refusal :=
  done s (resetLow s)

/-- TAP_TCK_EDGE (R487): A TCK edge advances the IEEE 1149.1 test access port, which may select EXTEST, CLAMP or HIGHZ and cut
the balls off from the logic. -/
def execTapTckEdge (rising : Bool) (tms tdi : Bool) (s : State) : Host.Outcome State Fault Refusal :=
  done s (tapEdge rising tms tdi s)

/-- TRST_N_LOW (R487): A low pulse on TRST_N of at least 100 ns resets the test access port. -/
def execTrstNLow (s : State) : Host.Outcome State Fault Refusal :=
  done s (tapReset s)

end Sys2Proof.Machine
end

