-- ==== Sys2Proof/Machine/ExecRoute.lean ====
section
/-!
DEFINITION. The meanings of the commands of routing, holds and the store (R94, R157, R188 to R241).
-/
namespace Sys2Proof.Machine

/-- DERIVED_RECORD_BUILD (R172): The derivation unit builds a derived record from the original, its rewrites and a template. -/
def execDerivedRecordBuild (s : State) : Host.Outcome State Fault Refusal :=
  done s (core (fun s => flow (deriveNext s)) s)

/-- SENTENCE_BOUNDARY (R196): An egress point becomes idle or its sentence ends, and it chooses and starts the next sentence. -/
def execSentenceBoundary (ep : Fin 76) (s : State) : Host.Outcome State Fault Refusal :=
  done s (core (fun s => flow (boundary ep s)) s)

/-- HELD_RELEASE (R94): The tape unit fires a held target and places P0 references with HELD set. -/
def execHeldRelease (s : State) : Host.Outcome State Fault Refusal :=
  done s (core (fun s => flow (if stitchFirstDue s || fitFirstDue s then s else heldFire s)) s)

/-- LEASE_LAPSE (R235): A notch has been held for its lease and lapses. -/
def execLeaseLapse (bob : Fin 512) (s : State) : Host.Outcome State Fault Refusal :=
  done s (core (fun s => flow (lapse bob s)) s)

/-- FLUSH (R226): A write of BB_n_CMD.FLUSH empties a class S bobbin. -/
def execFlush (agent : Fin 3) (bob : Fin 512) (s : State) : Host.Outcome State Fault Refusal :=
  done s (core (fun s => flow (agentWrite agent (0x900C + 0x10 * bob.val) 1#32 s)) s)

/-- BACKGROUND_SCAN_READ (R240): The scan reads store words, and zeroes or reports non-live words that fail parity. -/
def execBackgroundScanRead (addr : Fin 2097152) (upset : Option (Fin 33)) (s : State) : Host.Outcome State Fault Refusal :=
  done s (core (scanRead addr (upset.map (·.val))) s)

/-- PIN_AGED (R238): A record pinned by a poisoned reference ages out and is unpinned. -/
def execPinAged (addr : Fin 2097152) (s : State) : Host.Outcome State Fault Refusal :=
  done s (core (fun s => flow (pinAge addr s)) s)

end Sys2Proof.Machine
end

