-- ==== Sys2Proof/Machine/ExecTape.lean ====
section
/-!
DEFINITION. The meanings of the commands of the tape unit (R69 to R101).
-/
namespace Sys2Proof.Machine

/-- TP_STEP (R72): A write to TP_STEP_HI steps DT and fires the targets that it carries past. -/
def execTpStep (agent : Fin 3) (val : Word) (s : State) : Host.Outcome State Fault Refusal :=
  done s (core (agentWrite agent 0x301C val) s)

/-- TP_FREQ_WRITE (R71): A write to TP_FREQ sets the frequency correction, saturating when out of range. -/
def execTpFreqWrite (agent : Fin 3) (val : Word) (s : State) : Host.Outcome State Fault Refusal :=
  done s (core (agentWrite agent 0x3010 val) s)

/-- DT_VALID_SET (R70): A write of TP_CTRL.DT_VALID_SET sets DT_VALID. -/
def execDtValidSet (agent : Fin 3) (s : State) : Host.Outcome State Fault Refusal :=
  done s (core (agentWrite agent 0x3000 1#32) s)

/-- DISC_SOURCE_WRITE (R76): A write of TP_DISC.SRC selects the servo source and moves the servo to ACQUIRE or FREE. -/
def execDiscSourceWrite (agent : Fin 3) (val : Word) (s : State) : Host.Outcome State Fault Refusal :=
  done s (core (agentWrite agent 0x3020 val) s)

/-- TP_OFFS_SAMPLE (R76): A write to TP_OFFS is one servo sample for the AS sources. -/
def execTpOffsSample (agent : Fin 3) (val : Word) (s : State) : Host.Outcome State Fault Refusal :=
  done s (core (agentWrite agent 0x3024 val) s)

/-- PPS_IN_EDGE (R75): A rising edge on PPS_IN is captured and drives the servo. -/
def execPpsInEdge (age : Nat) (s : State) : Host.Outcome State Fault Refusal :=
  done s (core (ppsIn age) s)

/-- SERVO_HOLD (R76): No servo sample has come for the hold time and the servo enters HOLD. -/
def execServoHold (s : State) : Host.Outcome State Fault Refusal :=
  done s (core servoMiss s)

/-- PPS_OUT_EDGE (R77): DT reaches a whole second plus offset and PPS_OUT is driven active. -/
def execPpsOutEdge (s : State) : Host.Outcome State Fault Refusal :=
  done s (core ppsOut s)

/-- PPS_OUT_PULSE_END (R77): PPS_OUT has been active for WIDTH microseconds and returns to its inactive level. -/
def execPpsOutPulseEnd (s : State) : Host.Outcome State Fault Refusal :=
  done s (core ppsEnd s)

/-- REFERENCE_EVENT (R83): A phase channel receives a reference event and its loop and state are updated. -/
def execReferenceEvent (ch : Fin 4) (kind : Fin 6) (age : Nat) (s : State) : Host.Outcome State Fault Refusal :=
  done s (core (refEvent ch (kind.val % 4) (decide (4 ≤ kind.val)) age) s)

/-- HOLDOVER (R83): No reference event has come within 1.5 expected periods and the channel enters HOLDOVER. -/
def execHoldover (ch : Fin 4) (s : State) : Host.Outcome State Fault Refusal :=
  done s (core (toHoldover ch) s)

/-- LOST (R83): HOLD_LIMIT expected periods have passed and the channel becomes LOST, handling its held entries. -/
def execLost (ch : Fin 4) (s : State) : Host.Outcome State Fault Refusal :=
  done s (core (toLost ch) s)

/-- QE_STILL_STOP (R85): In QE_STILL mode the absence of counts sets the loop rate to zero in TRACK. -/
def execQeStillStop (ch : Fin 4) (s : State) : Host.Outcome State Fault Refusal :=
  done s (core (qeStop ch) s)

/-- PHASE_CHANNEL_CFG_WRITE (R88): A write to TP_PRn_CFG reconfigures a channel, passing through LOST when the mode changes. -/
def execPhaseChannelCfgWrite (agent : Fin 3) (ch : Fin 4) (cpr : Bool) (val : Word)
    (s : State) : Host.Outcome State Fault Refusal :=
  done s (core (agentWrite agent (prOff ch (if cpr then 0x0C else 0)) val) s)

/-- EXT_SAMPLE_WRITE (R87): A write to TP_PRn_EXT commits an external phase sample. -/
def execExtSampleWrite (agent : Fin 3) (ch : Fin 4) (val : Word) (s : State) : Host.Outcome State Fault Refusal :=
  done s (core (agentWrite agent (prOff ch 0x1C) val) s)

/-- STROBE_WRITE (R100): A write of strobe angle, period, DT_HI or EN reschedules the next leading edge. -/
def execStrobeWrite (agent : Fin 3) (po : Fin 4) (reg : Fin 6) (val : Word) (s : State) : Host.Outcome State Fault Refusal :=
  done s (core (agentWrite agent (poOff po (4 * reg.val)) val) s)

/-- STROBE_EDGE (R100): A strobe's target is reached and a pulse begins on POn. -/
def execStrobeEdge (po : Fin 4) (s : State) : Host.Outcome State Fault Refusal :=
  done s (core (fun s => if timedFirst s then s else strobeGo po s) s)

/-- STROBE_PULSE_END (R100): A PO strobe pulse has lasted its WIDTH ticks and the output returns to its idle level. -/
def execStrobePulseEnd (po : Fin 4) (s : State) : Host.Outcome State Fault Refusal :=
  done s (core (strobeEnd po) s)

end Sys2Proof.Machine
end

