-- ==== Sys2Proof/Machine/Dispatch.lean ====
section
/-!
DEFINITION. The effect of each command: one arm per constructor of Instr, each one call of its meaning.
-/
namespace Sys2Proof.Machine

def exec (i : Instr) (s : State) : Host.Outcome State Fault Refusal :=
  match i with
  | .coldBoot boot rank vio33 bist seams mram => Sys2Proof.Machine.execColdBoot boot rank vio33 bist seams mram s
  | .imageReadComplete ok image => Sys2Proof.Machine.execImageReadComplete ok image s
  | .endScript => Sys2Proof.Machine.execEndScript s
  | .write off val => Sys2Proof.Machine.execWrite off val s
  | .load table dom words => Sys2Proof.Machine.execLoad table dom words s
  | .poll off mask val us => Sys2Proof.Machine.execPoll off mask val us s
  | .pollTimeout => Sys2Proof.Machine.execPollTimeout s
  | .wait us => Sys2Proof.Machine.execWait us s
  | .lock => Sys2Proof.Machine.execLock s
  | .scriptStitch => Sys2Proof.Machine.execScriptStitch s
  | .scriptTimeout => Sys2Proof.Machine.execScriptTimeout s
  | .selvageLock agent => Sys2Proof.Machine.execSelvageLock agent s
  | .go agent => Sys2Proof.Machine.execGo agent s
  | .bootDataWrite w => Sys2Proof.Machine.execBootDataWrite w s
  | .bootDoneWrite => Sys2Proof.Machine.execBootDoneWrite s
  | .registerWrite agent off data size full poisoned => Sys2Proof.Machine.execRegisterWrite agent off data size full poisoned s
  | .loReadLatch agent off wide => Sys2Proof.Machine.execLoReadLatch agent off wide s
  | .tpDtLoRead agent wide => Sys2Proof.Machine.execTpDtLoRead agent wide s
  | .hostInterfaceReset kind => Sys2Proof.Machine.execHostInterfaceReset kind s
  | .perst level => Sys2Proof.Machine.execPerst level s
  | .d3hotEntry => Sys2Proof.Machine.execD3hotEntry s
  | .brownout => Sys2Proof.Machine.execBrownout s
  | .vaonLoss => Sys2Proof.Machine.execVaonLoss s
  | .testEnAssert level => Sys2Proof.Machine.execTestEnAssert level s
  | .doorbellWrite page slot lo hi => Sys2Proof.Machine.execDoorbellWrite page slot lo hi s
  | .ringEnableWrite agent ring val => Sys2Proof.Machine.execRingEnableWrite agent ring val s
  | .genOfferWrite agent val => Sys2Proof.Machine.execGenOfferWrite agent val s
  | .wbBaseWrite agent val => Sys2Proof.Machine.execWbBaseWrite agent val s
  | .htFetchComplete ring desc payload ok => Sys2Proof.Machine.execHtFetchComplete ring desc payload ok s
  | .hrDescriptorFetch ring desc => Sys2Proof.Machine.execHrDescriptorFetch ring desc s
  | .readCompletionError who => Sys2Proof.Machine.execReadCompletionError who s
  | .cplTimeout who => Sys2Proof.Machine.execCplTimeout who s
  | .imodTimer ring => Sys2Proof.Machine.execImodTimer ring s
  | .cmdFetch desc => Sys2Proof.Machine.execCmdFetch desc s
  | .nop => Sys2Proof.Machine.execNop s
  | .loadTable buf ok => Sys2Proof.Machine.execLoadTable buf ok s
  | .stitch => Sys2Proof.Machine.execStitch s
  | .fitting => Sys2Proof.Machine.execFitting s
  | .seamTest => Sys2Proof.Machine.execSeamTest s
  | .power => Sys2Proof.Machine.execPower s
  | .calApply buf ok mram => Sys2Proof.Machine.execCalApply buf ok mram s
  | .peerFence => Sys2Proof.Machine.execPeerFence s
  | .ringReset => Sys2Proof.Machine.execRingReset s
  | .portService => Sys2Proof.Machine.execPortService s
  | .commandCompletion idx => Sys2Proof.Machine.execCommandCompletion idx s
  | .characterReceived port falseStart data par stop noisy early time => Sys2Proof.Machine.execCharacterReceived port falseStart data par stop noisy early time s
  | .linBreak port bits age => Sys2Proof.Machine.execLinBreak port bits age s
  | .frameCharacter port => Sys2Proof.Machine.execFrameCharacter port s
  | .idleGapEnd port => Sys2Proof.Machine.execIdleGapEnd port s
  | .silenceTimeout port => Sys2Proof.Machine.execSilenceTimeout port s
  | .rateWrite agent port char val rx => Sys2Proof.Machine.execRateWrite agent port char val rx s
  | .rateApply port tx => Sys2Proof.Machine.execRateApply port tx s
  | .rateNow agent port val rx => Sys2Proof.Machine.execRateNow agent port val rx s
  | .transmitCharacter port mismatch => Sys2Proof.Machine.execTransmitCharacter port mismatch s
  | .backoffRetry port => Sys2Proof.Machine.execBackoffRetry port s
  | .linHeader port => Sys2Proof.Machine.execLinHeader port s
  | .linScheduleSlot slot => Sys2Proof.Machine.execLinScheduleSlot slot s
  | .linFrameSlotExpiry port => Sys2Proof.Machine.execLinFrameSlotExpiry port s
  | .portWakeEdge port => Sys2Proof.Machine.execPortWakeEdge port s
  | .wakeInEdge rising => Sys2Proof.Machine.execWakeInEdge rising s
  | .hostWake agent => Sys2Proof.Machine.execHostWake agent s
  | .timerWake => Sys2Proof.Machine.execTimerWake s
  | .canFrameReceived cn kind ide id dlc sec vcid sdt af data own age => Sys2Proof.Machine.execCanFrameReceived cn kind ide id dlc sec vcid sdt af data own age s
  | .canFrameSent cn => Sys2Proof.Machine.execCanFrameSent cn s
  | .arbitrationLost cn => Sys2Proof.Machine.execArbitrationLost cn s
  | .canError cn kind tx flag except => Sys2Proof.Machine.execCanError cn kind tx flag except s
  | .recover agent cn => Sys2Proof.Machine.execRecover agent cn s
  | .busRecovered cn => Sys2Proof.Machine.execBusRecovered cn s
  | .t1sFrameReceived ts bytes fin own age => Sys2Proof.Machine.execT1sFrameReceived ts bytes fin own age s
  | .t1sFrameSent sent => Sys2Proof.Machine.execT1sFrameSent sent s
  | .t1sCollision ts => Sys2Proof.Machine.execT1sCollision ts s
  | .plcaLost ts => Sys2Proof.Machine.execPlcaLost ts s
  | .plcaBack ts => Sys2Proof.Machine.execPlcaBack ts s
  | .uplinkFrameReceived eu bytes fin age => Sys2Proof.Machine.execUplinkFrameReceived eu bytes fin age s
  | .linkUp eu found => Sys2Proof.Machine.execLinkUp eu found s
  | .linkDown loss => Sys2Proof.Machine.execLinkDown loss s
  | .speedChange agent eu val => Sys2Proof.Machine.execSpeedChange agent eu val s
  | .frameCloseTimer stream => Sys2Proof.Machine.execFrameCloseTimer stream s
  | .uplinkFrameSent eu age => Sys2Proof.Machine.execUplinkFrameSent eu age s
  | .txtsPop agent eu => Sys2Proof.Machine.execTxtsPop agent eu s
  | .headerIssue eng => Sys2Proof.Machine.execHeaderIssue eng s
  | .decisionEntry eng parityOk => Sys2Proof.Machine.execDecisionEntry eng parityOk s
  | .parkedResume eng parityOk => Sys2Proof.Machine.execParkedResume eng parityOk s
  | .seamRelease eng => Sys2Proof.Machine.execSeamRelease eng s
  | .entryLateTimer => Sys2Proof.Machine.execEntryLateTimer s
  | .seamDisagree => Sys2Proof.Machine.execSeamDisagree s
  | .seamRoundEnd aPass bPass agree => Sys2Proof.Machine.execSeamRoundEnd aPass bPass agree s
  | .selfFault eng => Sys2Proof.Machine.execSelfFault eng s
  | .resyncCopyComplete => Sys2Proof.Machine.execResyncCopyComplete s
  | .resyncJoin => Sys2Proof.Machine.execResyncJoin s
  | .checkpointCut => Sys2Proof.Machine.execCheckpointCut s
  | .checkpointCommit ok blocks => Sys2Proof.Machine.execCheckpointCommit ok blocks s
  | .restartComplete slotOk blocks replayOk => Sys2Proof.Machine.execRestartComplete slotOk blocks replayOk s
  | .splitEngineTimeout eng => Sys2Proof.Machine.execSplitEngineTimeout eng s
  | .scrub blocks => Sys2Proof.Machine.execScrub blocks s
  | .seamTestEnd pass => Sys2Proof.Machine.execSeamTestEnd pass s
  | .derivedRecordBuild => Sys2Proof.Machine.execDerivedRecordBuild s
  | .sentenceBoundary ep => Sys2Proof.Machine.execSentenceBoundary ep s
  | .heldRelease => Sys2Proof.Machine.execHeldRelease s
  | .tpStep agent val => Sys2Proof.Machine.execTpStep agent val s
  | .tpFreqWrite agent val => Sys2Proof.Machine.execTpFreqWrite agent val s
  | .dtValidSet agent => Sys2Proof.Machine.execDtValidSet agent s
  | .discSourceWrite agent val => Sys2Proof.Machine.execDiscSourceWrite agent val s
  | .tpOffsSample agent val => Sys2Proof.Machine.execTpOffsSample agent val s
  | .ppsInEdge age => Sys2Proof.Machine.execPpsInEdge age s
  | .servoHold => Sys2Proof.Machine.execServoHold s
  | .ppsOutEdge => Sys2Proof.Machine.execPpsOutEdge s
  | .referenceEvent ch kind age => Sys2Proof.Machine.execReferenceEvent ch kind age s
  | .holdover ch => Sys2Proof.Machine.execHoldover ch s
  | .lost ch => Sys2Proof.Machine.execLost ch s
  | .qeStillStop ch => Sys2Proof.Machine.execQeStillStop ch s
  | .phaseChannelCfgWrite agent ch cpr val => Sys2Proof.Machine.execPhaseChannelCfgWrite agent ch cpr val s
  | .extSampleWrite agent ch val => Sys2Proof.Machine.execExtSampleWrite agent ch val s
  | .strobeWrite agent po reg val => Sys2Proof.Machine.execStrobeWrite agent po reg val s
  | .strobeEdge po => Sys2Proof.Machine.execStrobeEdge po s
  | .cellDue cell => Sys2Proof.Machine.execCellDue cell s
  | .cellEmission => Sys2Proof.Machine.execCellEmission s
  | .stitchTakesEffect => Sys2Proof.Machine.execStitchTakesEffect s
  | .rebaste => Sys2Proof.Machine.execRebaste s
  | .rebasteDone => Sys2Proof.Machine.execRebasteDone s
  | .fittingCapture second => Sys2Proof.Machine.execFittingCapture second s
  | .fittingRecordWritten bank => Sys2Proof.Machine.execFittingRecordWritten bank s
  | .leaseLapse bob => Sys2Proof.Machine.execLeaseLapse bob s
  | .flush agent bob => Sys2Proof.Machine.execFlush agent bob s
  | .backgroundScanRead addr upset => Sys2Proof.Machine.execBackgroundScanRead addr upset s
  | .pinAged addr => Sys2Proof.Machine.execPinAged addr s
  | .ckStart agent cu => Sys2Proof.Machine.execCkStart agent cu s
  | .ckFinish agent cu => Sys2Proof.Machine.execCkFinish agent cu s
  | .ckClear agent cu => Sys2Proof.Machine.execCkClear agent cu s
  | .selftest agent cu => Sys2Proof.Machine.execSelftest agent cu s
  | .selftestDone cu pass => Sys2Proof.Machine.execSelftestDone cu pass s
  | .ckDataWrite agent cu which val => Sys2Proof.Machine.execCkDataWrite agent cu which val s
  | .ckCfgWrite agent cu val => Sys2Proof.Machine.execCkCfgWrite agent cu val s
  | .ckOpenParamWrite agent cu which val => Sys2Proof.Machine.execCkOpenParamWrite agent cu which val s
  | .ckRunRestore agent cu val => Sys2Proof.Machine.execCkRunRestore agent cu val s
  | .peerLinkEnable agent => Sys2Proof.Machine.execPeerLinkEnable agent s
  | .retrain agent => Sys2Proof.Machine.execRetrain agent s
  | .peerLinkUp rank fl0 fl1 => Sys2Proof.Machine.execPeerLinkUp rank fl0 fl1 s
  | .flitReceived crcOk hdr payload sub => Sys2Proof.Machine.execFlitReceived crcOk hdr payload sub s
  | .replayTimer => Sys2Proof.Machine.execReplayTimer s
  | .peerLinkDown => Sys2Proof.Machine.execPeerLinkDown s
  | .sentenceFrameReceived sub => Sys2Proof.Machine.execSentenceFrameReceived sub s
  | .sentenceFrameAcked sub => Sys2Proof.Machine.execSentenceFrameAcked sub s
  | .bridgeWrite win off data full => Sys2Proof.Machine.execBridgeWrite win off data full s
  | .bridgeRead win off => Sys2Proof.Machine.execBridgeRead win off s
  | .inboundRequest wr off data full tag win posted => Sys2Proof.Machine.execInboundRequest wr off data full tag win posted s
  | .bridgeTimeout tag rd => Sys2Proof.Machine.execBridgeTimeout tag rd s
  | .writeAckTimer => Sys2Proof.Machine.execWriteAckTimer s
  | .faultNotice tag reason off => Sys2Proof.Machine.execFaultNotice tag reason off s
  | .faultLogPop agent inbound => Sys2Proof.Machine.execFaultLogPop agent inbound s
  | .acquire agent win => Sys2Proof.Machine.execAcquire agent win s
  | .release agent win => Sys2Proof.Machine.execRelease agent win s
  | .lockRequestReceived win => Sys2Proof.Machine.execLockRequestReceived win s
  | .lockGrantReceived granted => Sys2Proof.Machine.execLockGrantReceived granted s
  | .lockRetry => Sys2Proof.Machine.execLockRetry s
  | .lockTimeout own => Sys2Proof.Machine.execLockTimeout own s
  | .napEntry => Sys2Proof.Machine.execNapEntry s
  | .hibernateEntry => Sys2Proof.Machine.execHibernateEntry s
  | .pwrGood imageOk bist seams mram => Sys2Proof.Machine.execPwrGood imageOk bist seams mram s
  | .pmicTimeout => Sys2Proof.Machine.execPmicTimeout s
  | .persistWrite => Sys2Proof.Machine.execPersistWrite s
  | .slowCheckpoint => Sys2Proof.Machine.execSlowCheckpoint s
  | .thermalSample t0 t1 t2 t3 => Sys2Proof.Machine.execThermalSample t0 t1 t2 t3 s
  | .supplyCheck out => Sys2Proof.Machine.execSupplyCheck out s
  | .vaonInRange => Sys2Proof.Machine.execVaonInRange s
  | .resetNLow => Sys2Proof.Machine.execResetNLow s
  | .headerSpanEnd talker kind ide id len sec vcid sdt head age => Sys2Proof.Machine.execHeaderSpanEnd talker kind ide id len sec vcid sdt head age s
  | .d0Return => Sys2Proof.Machine.execD0Return s
  | .busMasterEnable => Sys2Proof.Machine.execBusMasterEnable s
  | .linkRetrain => Sys2Proof.Machine.execLinkRetrain s
  | .ifsIdle port => Sys2Proof.Machine.execIfsIdle port s
  | .deLagEnd port => Sys2Proof.Machine.execDeLagEnd port s
  | .strobePulseEnd po => Sys2Proof.Machine.execStrobePulseEnd po s
  | .ppsOutPulseEnd => Sys2Proof.Machine.execPpsOutPulseEnd s
  | .t1sBackoffEnd ts => Sys2Proof.Machine.execT1sBackoffEnd ts s
  | .copyPathParity => Sys2Proof.Machine.execCopyPathParity s
  | .apCtrlEnWrite agent port val => Sys2Proof.Machine.execApCtrlEnWrite agent port val s
  | .tapTckEdge rising tms tdi => Sys2Proof.Machine.execTapTckEdge rising tms tdi s
  | .trstNLow => Sys2Proof.Machine.execTrstNLow s

end Sys2Proof.Machine
end

