-- ==== Sys2Proof/Machine/Idle.lean ====
section
/-!
DEFINITION. What the device does at a tick of its clock with no command waiting (R69, R78, R276, R329, R410, R448, R457).
-/
namespace Sys2Proof.Machine

/-- Cycles of FCLK, 500 MHz, that end between two states. -/
def fclks (a b : State) : Nat := b.elapsedNs / 2 - a.elapsedNs / 2

/-- STALL_CYCLES of the engines whose alignment buffer is full, and CREDIT_STALL of the peer egress point (R329, R410). -/
def stalls (n : Nat) (s : State) : State :=
  let full := [0, 1, 2].filter (fun e => engWorks s e && decide (64 ≤ (s.eng e).align.length))
  let s1 := if n = 0 then s else forAll full (fun e => count (ctEng e 11) n) s
  whenDo (decide (n ≠ 0 ∧ s.peer.txq ≠ [] ∧ peerCredit s s.peer.txSub = 0) && peerUp s) (count (ctPb 42) n) s1

/-- RUN_SECONDS: the whole seconds of elapsed time that end in RUN (R457). -/
def runSecond (before : State) (s : State) : State :=
  whenDo (decide (s.pw.st = 1 ∧ before.elapsedNs / 1000000000 < s.elapsedNs / 1000000000)) (pcount 4) s

/-- A tick of the wake oscillator, 10 ns: the characters it has caught grow older (R276). -/
def oscTick (s : State) : State :=
  { s with ports := s.ports.map (fun e =>
      (e.1, { e.2 with caught := e.2.caught.map (fun c => (c.1, c.2.1 + 10000, c.2.2)) })) }

/-- One tick of the clock: an ECLK cycle while the core runs, a REFCLK cycle in NAP, a cycle of the wake oscillator in
HIBERNATE while it runs; nothing in reset. -/
def idle (s : State) : State :=
  if s.up? then
    let s1 := modTape (fun t => { t with clk := t.clk + tickUnits s }) s
    if s.awake then flow (runSecond s (stalls (fclks s s1) s1)) else napReturn s1
  else whenDo (alwaysOn s && s.pw.osc) oscTick s

end Sys2Proof.Machine
end

