-- ==== Sys2Proof/Safety.lean ====
section
/-!
DEFINITION. The terms that claims about the device are stated in: when an access of the host is served, the form of the store,
and what a state must hold.
-/
namespace Sys2Proof.Machine

/-- The host's 4-byte write of a register passes every check of R359, R360, R362, R444 and R445: BAR0 is served, the device is
awake, the offset is a register's, its page is granted, the register is not RWB, and no unit of the partner's owns it. -/
def hostMayWrite (s : State) (o : Nat) : Bool :=
  hostServed s && s.awake && decide (o < 0x10000 ∧ o % 4 = 0) && !decide (0xC800 ≤ o ∧ o < 0xD000) &&
    (s.boot.done || decide (o / 0x1000 = 0 ∨ o / 0x1000 = 0xF)) &&
    (!locked s || decide (o / 0x1000 = 0 ∨ o / 0x1000 = 0xF) || s.rb 0xF044 (o / 0x1000)) &&
    (regInfo o).isSome && !isRwb o && !(cuOwner s o).any (fun w => decide (8 ≤ w))

/-- The host's read of a register passes the checks of R359 and R360. -/
def hostMayRead (s : State) (o : Nat) : Bool :=
  hostServed s && s.awake && decide (o < 0x10000 ∧ o % 4 = 0) && !decide (0xC800 ≤ o ∧ o < 0xD000)

/-- A write of an agent passes every check (R359, R401, R441, R444, R445): the host's as above; one of the partner through the
window that holds its lock, or any when it holds none; the boot script's when the record at its head is that WRITE, which does
not touch a locked RWB field and is not the setting of SELVAGE_LOCK. -/
def agentMayWrite (a : Nat) (s : State) (o : Nat) (v : Word) : Bool :=
  match a with
  | 0 => hostMayWrite s o
  | 1 => peerUp s && s.awake && decide (o < 0x10000) && (regInfo o).isSome && decide (o / 0x1000 ≠ 0xC) &&
      decide (inboundError o true s = 0)
  | _ => s.awake && scriptAt s (fun r => decide (r = .write o v)) && decide (o < 0x10000) && (regInfo o).isSome &&
      !(isRwb o && locked s) && !(decide (o = 0xF000) && bit v 0 && !locked s)

/-- What precedes the effect of a write that is let through: a request of the partner is counted (R411). -/
def agentPre (a : Nat) (s : State) : State := if a = 1 then count (ctPb 30) 1 s else s

/-- What follows the effect of a write that is let through, from s: the partner's is answered (R402, R407), the script goes on to its
next record (R441). -/
def agentDone (a o : Nat) (s t : State) : State :=
  match a with
  | 0 => t
  | 1 => inboundAnswer o s.peer.inTag 0 s.peer.inLock.isNone t
  | _ => scriptPop t

/-- The store in canonical form: addresses rising within the 2^21 words of R220, and no entry that reads as an unlisted one. -/
def storeWf (s : State) : Bool := mapWf (dflt 0#33) s.store && s.store.all (fun e => decide (e.1 < 0x200000))

/-- IRQ_N stands as the interrupt tree wants it (R384). -/
def irqSettled (s : State) : Prop := s.irq = irqWanted s

end Sys2Proof.Machine
end

