-- ==== Sys2Proof/Certificates/Slice0/Obligations.lean ====
section
/-!
DEFINITION. What is claimed of the model, for provers. A claim about a command names the state that the command leads to: the
updates that the rules give, inside settle, which sets IRQ_N as the interrupt tree wants it and gives the queue back (its own
claims are SettleTouches and StepEnds). All that an update does not name is unchanged. flow is the flow control of R204,
R371, R392 and R397, which follows every move of records.
-/
open Sys2Proof Sys2Proof.Machine

/-! ## The step, reset, the interrupt line -/

/-- A step with a command waiting runs the command at the front of the queue on the rest of the queue. Choices of the model it
rests on: log entries 1. -/
def Obligations.StepRunsFront : Prop :=
  ∀ (s : State) (c : Instr) (rest : List Instr), s.pending = c :: rest → step s = exec c { s with pending := rest }

/-- What settle does: IRQ_N follows the tree, each assertion of it is counted once (R384, R386), the queue is given back, an
APn_DE whose level the command changed is driven anew (R244, R262), and nothing else changes. Choices of the model it rests on:
log entries 115. -/
def Obligations.SettleTouches : Prop :=
  ∀ s t : State,
    (settle s t).irq = irqWanted t ∧ (settle s t).pending = s.pending ∧
    (settle s t).counter (ctHi 339) = (if irqWanted t && !t.irq then t.counter (ctHi 339) + 1#64 else t.counter (ctHi 339)) ∧
    (∀ i, i ≠ ctHi 339 → (settle s t).counter i = t.counter i) ∧
    { settle s t with irq := t.irq, pending := t.pending, ctr := t.ctr, out := t.out } = t ∧
    ((∀ n, n < 16 → deLevel s n = deLevel t n) → (settle s t).out = t.out) ∧
    (∀ n, n < 16 → t.cutOff = false → deLevel s n ≠ deLevel t n → (.pin (16 + n) (deLevel t n) : Output) ∈ (settle s t).out) ∧
    (∀ x ∈ (settle s t).out, x ∈ t.out ∨ ∃ n, n < 16 ∧ deLevel s n ≠ deLevel t n ∧ x = .pin (16 + n) (deLevel t n))

/-- A step answers a next state, in every state: it takes exactly the command at the front off the queue and puts none in, and
IRQ_N then stands as the interrupt tree wants it (R384); no step faults or is refused. On an empty queue, awake, one ECLK cycle
passes (the model's tick, log entry 2): 1 ns at FULL or 5/3 ns at LEAN with the correction FREQ, in units of 2^-40 / 3 ns (R69).
Choices of the model it rests on: log entries 1, 2, 4. -/
def Obligations.StepEnds : Prop :=
  ∀ s : State, ∃ t, step s = .next t ∧ t.pending = s.pending.tail ∧ irqSettled t ∧
    (s.pending = [] → s.awake = true →
      (t.tape.clk : Int) = s.tape.clk + (if s.pw.lean then 5 else 3) * (0x10000000000 + freqInt s))

/-- At reset IRQ_N is released, as the tree wants it; the store is in canonical form, the queue is empty, every register of R473
holds its reset value and every counter is 0. Choices of the model it rests on: log entries 9, 1. -/
def Obligations.ResetState : Prop :=
  irqSettled State.reset ∧ State.reset.irq = false ∧ storeWf State.reset = true ∧ State.reset.pending = [] ∧
    (∀ o, State.reset.reg o = regReset o) ∧ (∀ i, State.reset.counter i = 0#64)

/-- Every step keeps the store in canonical form, inside its 2^21 words. Choices of the model it rests on: log entries 9. -/
def Obligations.StepKeepsStore : Prop := ∀ s t : State, storeWf s = true → step s = .next t → storeWf t = true

/-! ## Boot -/

/-- COLD_BOOT samples the straps (R432 to R434). A device that passes its tests asks its image source: image A is read from flash
offset 0 (R434), and the host's or the partner's is waited for; one whose store or checkpoint SRAM fails BIST stops with BIST_FAIL
and raises BOOT_FAIL (R443). The core starts from its reset state. Choices of the model it rests on: log entries 34, 49. -/
def Obligations.ColdBootStarts : Prop :=
  ∀ (boot : BitVec 2) (rank : Bool) (vio bist : BitVec 4) (seams : BitVec 3) (mram : BitVec 24) (s : State),
    s.inReset = true → s.testEn = false → s.pw.pwrReq = true →
    (bist = 0#4 → seams = 0#3 →
      ∃ t, exec (.coldBoot boot rank vio bist seams mram) s = .next t ∧ t.inReset = false ∧ t.rank = rank ∧
        t.boot.source = boot.toNat ∧ t.boot.phase = (if boot = 3#2 then 1 else 0) ∧ t.boot.stopped = false ∧ t.boot.stage = 3 ∧
        (boot = 0#2 → t.boot.reading = some 0 ∧ (.readReq 0 1048576 : Output) ∈ t.out.take 17) ∧
        (boot ≠ 0#2 → t.boot.reading = none ∧ t.boot.waiting = true) ∧ (boot = 2#2 → t.peer.bootWait = true) ∧
        t.store = [] ∧ t.bobs = [] ∧ t.engs = [] ∧ t.cells = []) ∧
    (bist.getLsbD 0 = true →
      ∃ t, exec (.coldBoot boot rank vio bist seams mram) s = .next t ∧ t.inReset = false ∧ t.boot.stopped = true ∧
        t.boot.error = 9 ∧ t.boot.reading = none ∧ t.boot.waiting = false ∧ t.rb 0xF020 1 = true ∧ t.store = [] ∧ t.engs = [])

/-- An image that passes every check of R436 is taken: its script runs, its source and its power state are noted, and a slow
checkpoint is restored when its FLAGS ask for it (R437, R459). An image that fails a check of R436 is rejected with the code of
the first check that fails, and counted (R457): after image A, image B is read from its flash offset; after image B the device
enters RECOVERY, raises BOOT_FAIL and asks the partner (R437, R438); a host transfer ends with RESULT REJECTED (R439). Choices of
the model it rests on: log entries 32, 31, 34, 33. -/
def Obligations.ImageJudged : Prop :=
  ∀ (s : State) (ok : Bool) (img : List Byte), s.awake = true →
    let runs := fun b => imageError ok b = 0 → imageScript b ≠ [] ∧ (imageScript b).head? ≠ some .bad
    let taken := fun (src : Nat) (b : List Byte) => whenDo (bit (w32 (imgField b 22 1)) 0) (slowLoad s.boot.slowBad)
      (modPeer (fun p => { p with bootWait := false })
        (modBoot (fun x => { x with image := src, reading := none, waiting := false, running := true, stage := max x.stage 4,
                                    power := imgField b 21 1, script := imageScript b,
                                    result := if src = 2 then 2 else x.result }) s))
    (s.boot.reading = some 0 → runs img →
      exec (.imageReadComplete ok img) s = .next (settle s
        (if imageError ok img = 0 then taken 0 img
         else { modBoot (fun x => { x with error := imageError ok img, reading := some 1 }) (pcount 13 s) with
                out := .readReq 0x100000 1048576 :: s.out }))) ∧
    (s.boot.reading = some 1 → s.boot.phase ≠ 1 → runs img →
      exec (.imageReadComplete ok img) s = .next (settle s
        (if imageError ok img = 0 then taken 1 img
         else askPartner (modBoot (fun x => { x with phase := 2, error := imageError ok img, reading := none, waiting := true,
                                                     running := false, script := [] }) (raise 0xF020 2 (pcount 13 s)))))) ∧
    (s.boot.reading = some 2 → s.hostUp = true →
      let b := img.take (s.rf 0xF010 0 21)
      runs b →
      exec (.imageReadComplete ok img) s = .next (settle s
        (if imageError ok b = 0 then taken 2 b
         else modBoot (fun x => { x with error := imageError ok b, result := 3, reading := none, waiting := true }) (pcount 13 s))))

/-- In RECOVERY the boot ROM sets PB_CTRL.EN, waits for words from the partner with the staging area free, and, with the link up,
raises BOOT_REQ at the partner; it touches the peer link alone (R438, R409). Choices of the model it rests on: log entries 74. -/
def Obligations.RecoveryAsks : Prop :=
  ∀ s : State, (askPartner s).rb 0xC000 0 = true ∧ (∀ o, o ≠ 0xC000 → (askPartner s).reg o = s.reg o) ∧
    (askPartner s).peer.bootWait = true ∧ (askPartner s).peer.bootWords = [] ∧ (askPartner s).boot = s.boot ∧
    (askPartner s).store = s.store ∧ (askPartner s).engs = s.engs ∧
    (peerUp s = true → bit (s.reg 0xC000) 2 = false →
      ∃ f cr, (askPartner s).out = .flit f :: s.out ∧ wordAt f.pay 0 = 4#32 ∧ f.hdr = flitHdr 3 s.peer cr)

/-- A host transfer (R439): GO while the boot ROM waits for one starts the read that SV_BOOT_ADDR and SV_BOOT_LEN name and RESULT
becomes LOADING, the reads going out while the function may issue requests; a length outside R435 is rejected with BAD_LEN and
nothing is read; a GO at any other time returns BUSY. Choices of the model it rests on: log entries 32, 121. -/
def Obligations.HostTransferStarts : Prop :=
  ∀ (s : State) (a : Fin 3), agentMayWrite a s 0xF014 1#32 = true →
    (hostMayLoad s = true → imgLenOk (s.rf 0xF010 0 21) = true →
      exec (.go a) s = .next (settle s (agentDone a 0xF014 s
        (whenDo s.hostUp (hostReads ((s.reg 0xF00C).toNat * 0x100000000 + (s.reg 0xF008).toNat) (s.rf 0xF010 0 21))
          (modBoot (fun x => { x with result := 1, reading := some 2 }) (agentPre a s)))))) ∧
    (hostMayLoad s = true → imgLenOk (s.rf 0xF010 0 21) = false →
      exec (.go a) s = .next (settle s (agentDone a 0xF014 s
        (modBoot (fun x => { x with error := 2, result := 3, reading := none, waiting := true }) (pcount 13 (agentPre a s)))))) ∧
    (hostMayLoad s = false →
      exec (.go a) s = .next (settle s (agentDone a 0xF014 s (modBoot (fun x => { x with result := 4 }) (agentPre a s)))))

/-- A partner transfer (R409): a word that fits the staging area is appended and the write is answered as served; one that finds
the area taken fails with BOOT_OVERRUN (6) and is logged (R407); DONE ends the image, which is verified as R436 says. Choices of
the model it rests on: log entries 74, 81, 77. -/
def Obligations.PartnerTransfer : Prop :=
  ∀ (s : State) (w : Word), peerUp s = true → s.awake = true →
    (wordFits s = true →
      exec (.bootDataWrite w) s = .next (settle s (inboundAnswer 0xC400 s.peer.inTag 0 s.peer.inLock.isNone
        (modPeer (fun p => { p with bootWords := p.bootWords ++ [w], bootRes := 0 }) (count (ctPb 30) 1 s))))) ∧
    (wordFits s = false →
      exec (.bootDataWrite w) s = .next (settle s (inboundAnswer 0xC400 s.peer.inTag 6 s.peer.inLock.isNone
        (sendCpl [cplWord 6 s.peer.inTag 6, 0xC400#32]
          (logIn { tag := s.peer.inTag, reason := 6, win := 0, addr := 0xC400 } (count (ctPb 31) 1 (count (ctPb 30) 1 s))))))) ∧
    (s.peer.bootWait = true → s.boot.waiting = true → s.boot.reading = none →
      let b := wordsBytes s.peer.bootWords
      (imageError true b = 0 → imageScript b ≠ [] ∧ (imageScript b).head? ≠ some .bad ∧ bit (w32 (imgField b 22 1)) 0 = false) →
      exec .bootDoneWrite s = .next (settle s (inboundAnswer 0xC404 s.peer.inTag 0 s.peer.inLock.isNone
        (if imageError true b = 0 then
          modPeer (fun p => { p with bootWait := false, bootRes := 1 })
            (modBoot (fun x => { x with image := 3, reading := none, waiting := false, running := true, stage := max x.stage 4,
                                        power := imgField b 21 1, script := imageScript b }) (count (ctPb 30) 1 s))
         else
          modPeer (fun p => { p with bootWords := [], bootRes := 2 })
            (modBoot (fun x => { x with error := imageError true b }) (pcount 13 (count (ctPb 30) 1 s)))))))

/-- The records of a boot script that stand before another record (R441): WAIT and POLL let the script go on; WRITE writes a
register, RWB fields included; LOCK locks the selvage; STITCH asks for a NEXT_INDEX stitch; a WRITE of SV_LOCK is the same as
LOCK. POLL has the effects of a read. Choices of the model it rests on: log entries 30, 35, 3. -/
def Obligations.ScriptRecordsRun : Prop :=
  ∀ (s : State) (r : SRec) (rest : List SRec), s.awake = true → s.boot.running = true → r ≠ .bad →
    let next := modBoot (fun b => { b with script := r :: rest })
    (∀ us : Nat, us < 2 ^ 32 → s.boot.script = .wait (w32 us) :: r :: rest →
      exec (.wait us) s = .next (settle s (next s))) ∧
    (∀ (off : BitVec 17) (val : Word) (i : RegInfo), s.boot.script = .write off.toNat val :: r :: rest →
      locked s = false → off.toNat / 0x1000 = 0xF → off.toNat ≠ 0xF000 → regInfo off.toNat = some i → i.rwb = true →
      exec (.write off val) s = .next (settle s
        (next (s.setReg off.toNat ((s.reg off.toNat &&& ~~~(w32 i.rw)) ||| (val &&& w32 i.rw)))))) ∧
    (∀ (off : BitVec 17) (mask val : Word) (us : Nat), us < 2 ^ 32 →
      s.boot.script = .poll off.toNat mask val (w32 us) :: r :: rest → readReg s 2 off.toNat &&& mask = val →
      exec (.poll off mask val us) s = .next (settle s (next (readEffect 2 off.toNat s)))) ∧
    (s.boot.script = .lock :: r :: rest → s.rb 0xF040 0 = false →
      exec .lock s = .next (settle s (next (ownersTaken (s.setReg 0xF000 1#32))))) ∧
    (s.boot.script = .stitch :: r :: rest → locked s = true → s.cons.stitch = none →
      exec .scriptStitch s = .next (settle s (modBoot (fun b => { b with script := r :: rest, stage := max b.stage 6 })
        (modCons (fun c => { c with stitch := some {} }) s)))) ∧
    (s.boot.script = .write 0xF000 1#32 :: r :: rest → locked s = false → s.rb 0xF040 0 = false →
      exec (.selvageLock 2) s = .next (settle s (next (ownersTaken (s.setReg 0xF000 1#32)))))

/-- A LOAD of one entry that R164 accepts (R441): the entry goes to the staging bank of every engine for the record's domain, the
objects that it names are claimed (R145), and the script goes on. Choices of the model it rests on: log entries 35, 34. -/
def Obligations.ScriptLoads : Prop :=
  ∀ (s : State) (r : SRec) (rest : List SRec) (table : BitVec 4) (dom : Fin 8) (hd : Word) (im : List Word),
    s.awake = true → s.boot.running = true → r ≠ .bad → s.cons.rebaste = false → s.cons.stitch = none →
    s.boot.script = .load table.toNat dom (hd :: im) :: r :: rest → field hd 24 6 = im.length →
    field hd 17 7 = 0 → field hd 30 2 = 0 → table ≠ 10#4 → (table = 9#4 → bit (wordAt im 0) 25 = false) →
    let l := loadEntry (reachOf s dom) s.cons.owners (bankOfDev s (stagingBank s)) table.toNat (field hd 0 16) (bit hd 16) im
    l.1 ≤ 1 →
    exec (.load table dom (hd :: im)) s = .next (settle s
      (modBoot (fun b => { b with script := r :: rest, stage := max b.stage 5 })
        (modCons (fun c => { c with owners := ownersAfter dom table.toNat (field hd 0 16) im c.owners })
          (setBanks (stagingBank s) l.2 s))))

/-- END ends the script (R441): without the lock the device enters RECOVERY with NO_LOCK (11); with it BOOT_DONE and DONE are set,
the opened check units close on entry into RUN (R314), the phase becomes RUN, except in TEST (R433), and the state that the header
names is entered or, for NAP, its entry begins (R454: a failed hibernate image is reported). A POLL timeout fails the script with
SCRIPT_ERR (14), a script of more than 500 ms with SCRIPT_TIMEOUT (13): the device enters RECOVERY (R441, R438). Choices of the
model it rests on: log entries 34, 35. -/
def Obligations.ScriptEnds : Prop :=
  ∀ s : State, s.awake = true → s.boot.running = true →
    let fails := fun code => askPartner
      (modBoot (fun x => { x with phase := 2, error := code, reading := none, waiting := true, running := false, script := [] })
        (raise 0xF020 2 s))
    (∀ rest, s.boot.script = .endRec :: rest →
      (locked s = false → s.boot.phase ≠ 1 → exec .endScript s = .next (settle s (fails 11))) ∧
      (locked s = true → s.pw.hibFail = false →
        exec .endScript s = .next (settle s
          ((if s.boot.power = 2 then enterPower 2 else if s.boot.power = 3 then modPw (fun p => { p with req := some 3 })
            else enterPower 1)
            (raise 0xF020 1 (whenDo (decide (s.boot.phase ≠ 1)) closeOpen
              (modBoot (fun x => { x with running := false, script := [], done := true, stage := 7,
                                          time := min 65535 (s.elapsedNs / 10000),
                                          phase := if s.boot.phase = 1 then 1 else 3 }) s))))))) ∧
    (∀ off mask val us rest, s.boot.phase ≠ 1 → s.boot.script = .poll off mask val us :: rest →
      exec .pollTimeout s = .next (settle s (fails 14))) ∧
    (s.boot.phase ≠ 1 → exec .scriptTimeout s = .next (settle s (fails 13)))

/-- The host's write of SELVAGE_LOCK is ignored: the field is the boot controller's alone (R444). The denial is counted with the
offset and LOCK_DENY is raised; the same goes for every RWB register that the host writes. Choices of the model it rests on: log
entries 25. -/
def Obligations.SelvageKeptFromHost : Prop :=
  ∀ (s : State) (off : BitVec 17) (val : Word), hostServed s = true → s.awake = true → off.toNat / 0x1000 = 0xF → off.toNat % 4 = 0 →
    isRwb off.toNat = true →
    exec (.registerWrite 0 off (mkD 0#32 val) 4 true false) s = .next (settle s (lockDeny off.toNat s)) ∧
    exec (.selvageLock 0) s = .next (settle s (lockDeny 0xF000 s))

/-! ## Host accesses, resets and rings -/

/-- The checks before a host write, in their order (R359, R440, R445): a poisoned write is counted, reported through Advanced
Error Reporting and discarded; a doorbell takes 8 bytes and a register 4, aligned, with all bytes enabled; before boot has ended
only pages 0 and F are open, no doorbell among them, and after the lock only granted pages; what fails is counted and raised, and
has no other effect. Choices of the model it rests on: log entries 159. -/
def Obligations.HostWriteChecks : Prop :=
  ∀ (s : State) (off : BitVec 17) (data : DWord) (size : Nat) (full : Bool), hostServed s = true → s.awake = true →
    let page := off.toNat / 0x1000
    exec (.registerWrite 0 off data size full true) s = .next (settle s (aerPoison (raise 0x1928 0x80 (count (ctHi 338) 1 s)))) ∧
    (off.toNat < 0x10000 → ¬ (size = 4 ∧ full = true ∧ off.toNat % 4 = 0) →
      exec (.registerWrite 0 off data size full false) s = .next (settle s (badAccess s))) ∧
    (0x10000 ≤ off.toNat → off.toNat < 0x18000 → ¬ (size = 8 ∧ full = true ∧ off.toNat % 8 = 0) →
      exec (.registerWrite 0 off data size full false) s = .next (settle s (badAccess s))) ∧
    (off.toNat < 0x10000 → off.toNat % 4 = 0 → s.boot.done = false → page ≠ 0 → page ≠ 0xF →
      exec (.registerWrite 0 off data 4 true false) s = .next (settle s (badAccess s))) ∧
    (0x10000 ≤ off.toNat → off.toNat < 0x18000 → s.boot.done = false →
      exec (.registerWrite 0 off data size full false) s = .next (settle s (badAccess s))) ∧
    (off.toNat < 0x10000 → off.toNat % 4 = 0 → s.boot.done = true → locked s = true → page ≠ 0 → page ≠ 0xF →
      s.rb 0xF044 page = false →
      exec (.registerWrite 0 off data 4 true false) s = .next (settle s (pageDeny s)))

/-- A register write of any agent that every check lets through (R5): in a register of page 8 without an effect of its own, the RW
bits take the value, the W1C bits written 1 clear, every other bit and every other register keeps its value, but a bit that the
device changed at the same FCLK edge stands (R6, R469); then the agent's write is answered. Choices of the model it rests on: log
entries 81, 140. -/
def Obligations.RegisterWritten : Prop :=
  ∀ (s : State) (a : Fin 3) (off : BitVec 17) (v : Word) (i : RegInfo), agentMayWrite a s off.toNat v = true →
    off.toNat / 0x1000 = 8 → regInfo off.toNat = some i →
    let o := off.toNat
    let kept := s.hotBits o
    let new := (s.reg o &&& ~~~(w32 i.rw ||| (v &&& w32 i.w1c))) ||| (v &&& w32 i.rw)
    exec (.registerWrite a off (mkD 0#32 v) 4 true false) s = .next (settle s (agentDone a o s
      ((whenDo (dated o) (noteWas o (s.reg o)) (agentPre a s)).setReg o ((new &&& ~~~kept) ||| (s.reg o &&& kept))))) ∧
    (s.hotAt ≠ s.edge → kept = 0#32)

/-- A 4-byte read of a LO register by the host returns the register and latches its HI register for the host alone (R470, R471);
an 8-byte read returns the pair, its high half through the latch just set. The partner's read is answered by a completion and
latches for the partner. The host's read of TP_DT_LO returns the low word of DT and latches TP_DT_HI and every channel's cycle and
angle at that instant (R471). Choices of the model it rests on: log entries 28, 74, 81. -/
def Obligations.ReadsLatch : Prop :=
  (∀ s : State, hostMayRead s 0x3008 = true →
    ∃ t, exec (.tpDtLoRead 0 false) s = .next t ∧ t.out = .readData 0 0x3008 (mkD 0#32 (w32 s.dt)) :: s.out ∧
      t.latchOf 0 0x300C = w32 (s.dt / 0x100000000) ∧
      (∀ n, n < 4 → t.latchOf 0 (prOff n 0x10) = w32 (cycNow s n) ∧ t.latchOf 0 (prOff n 0x14) = prAng s n) ∧
      { t with latch := s.latch, out := s.out, irq := s.irq, ctr := s.ctr } = s) ∧
  ∀ (s : State) (off : BitVec 17) (h : Nat), hiOf off.toNat = some h →
    (hostMayRead s off.toNat = true →
      exec (.loReadLatch 0 off false) s = .next (settle s
        (emit (.readData 0 off.toNat (mkD 0#32 (readReg s 0 off.toNat))) (setLatch 0 h (hiLive s h) s)))) ∧
    (hostMayRead s off.toNat = true → off.toNat % 8 = 0 →
      ∃ t, exec (.loReadLatch 0 off true) s = .next t ∧ t.latchOf 0 h = hiLive s h ∧
        t.out = .readData 0 off.toNat (mkD (hiLive s h) (readReg s 0 off.toNat)) :: s.out) ∧
    (peerUp s = true → s.awake = true → s.peer.inLock = none → s.peer.bootWait = false → off.toNat / 0x1000 ≠ 0xC →
      exec (.loReadLatch 1 off false) s = .next (settle s
        (sendCpl [cplWord 1 0 0, readReg (count (ctPb 30) 1 s) 1 off.toNat]
          (setLatch 1 h (hiLive (count (ctPb 30) 1 s) h) (count (ctPb 30) 1 s)))))

/-- A reset of the host interface returns its registers to reset, disables every ring, keeping its owner, drops Bus Master Enable
and D3hot, clears the host's latches, silences the pending commands, and is counted; an image read in progress is rejected with
READ_ERR (R360, R470, R472, R436). PERST_N low does the same (R477); its rise ends the reset of the PCI Express function. Choices
of the model it rests on: log entries 50, 37, 69. -/
def Obligations.HostInterfaceResets : Prop :=
  ∀ s : State, s.up? = true →
    (∀ kind, s.boot.reading ≠ some 2 →
      exec (.hostInterfaceReset kind) s = .next (settle s (count (ctHi 342) 1
        { s with regs := hostResetRegs s.regs, rings := (s.rings.map (fun e => (e.1, ({ owner := e.2.owner } : Ring)))).filter (fun e => decide (e.2 ≠ {})),
                 genOffered := false, wbWritten := false, bme := false, d3hot := false,
                 turn := 0, pci := { aerStatus := s.pci.aerStatus },
                 latch := mapFilter (fun k _ => decide (0x20000 ≤ k)) s.latch,
                 cmds := s.cmds.map (fun c => { c with mute := true }) }))) ∧
    (∀ kind, s.boot.reading = some 2 →
      ∃ t, exec (.hostInterfaceReset kind) s = .next t ∧ t.boot.reading = none ∧ t.boot.error = 8 ∧ t.boot.result = 3 ∧
        t.bme = false) ∧
    (s.perst = true → exec (.perst false) s = .next (settle s (hostReset { s with perst := false }))) ∧
    exec (.perst true) s = .next (settle s { s with perst := true })

/-- D3hot and the return to D0 change that one state, and nothing else; in D3hot the function issues no requests and holds IRQ_N
released (R361). Bus Master Enable comes with the sizes and tags of Device Control, and an image transfer that waited for it reads
(R358). A retraining of the PCI Express link is counted and raised (R358, R389). The configuration header holds the Device ID
0x7480, which HI_ID repeats, the class code 0x028000, a 64-bit BAR0 of 128 KiB alone, and Interrupt Pin 0 (R1, R357, R472).
Choices of the model it rests on: log entries 50, 158, 159. -/
def Obligations.PciStates : Prop :=
  ∀ s : State, s.up? = true → s.perst = true →
    exec .d3hotEntry s = .next (settle s { s with d3hot := true }) ∧
    (s.d3hot = true → irqWanted s = false ∧ s.hostUp = false ∧ hostFetches s = false) ∧
    exec .d0Return s = .next (settle s { s with d3hot := false }) ∧
    (∀ mps mrrs ext, s.d3hot = false → Config.deviceControl s.freeCtr = (mps, mrrs, ext) →
      let u := { s with bme := true, freeCtr := s.freeCtr + 1, pci := { s.pci with mps := mps, mrrs := mrrs, extTag := ext } }
      exec .busMasterEnable s = .next (settle s (whenDo (!s.bme && decide (s.boot.reading = some 2))
        (hostReads ((s.reg 0xF00C).toNat * 0x100000000 + (s.reg 0xF008).toNat) (s.rf 0xF010 0 21)) u))) ∧
    field (configWord s 0) 16 16 = 0x7480 ∧ field (readReg s 0 0) 16 16 = 0x7480 ∧ field (configWord s 8) 8 24 = 0x028000 ∧
    bit (configWord s 4) 2 = s.bme ∧ field (configWord s 0x10) 0 17 = 4 ∧
    (∀ o ∈ [0x18, 0x1C, 0x20, 0x24, 0x30], configWord s o = 0#32) ∧ field (configWord s 0x3C) 8 8 = 0 ∧
    exec .linkRetrain s = .next (settle s (raise 0x1928 0x40 (count (ctHi 341) 1 s)))

/-- A doorbell of the ring's owner with a complement that holds and an index within the ring moves the host's index and is
counted, and the descriptors that may be read now are read (R372); a doorbell of another domain's is denied and counted for the
domain; one that fails another test is counted and noted at the ring (R363, R364, R366). Choices of the model it rests on: log
entries 156. -/
def Obligations.DoorbellMoves : Prop :=
  ∀ (s : State) (page : Fin 8) (slot : BitVec 12) (lo hi : Word) (r : Nat), hostServed s = true → s.awake = true →
    s.boot.done = true → slot.toNat % 8 = 0 → slotRing slot.toNat = some r →
    (ringOwner s r = page → ringOn s r = true → hi = ~~~lo → dbValid (s.ring r) r lo = true →
      exec (.doorbellWrite page slot lo hi) s = .next (settle s (issueReads (count (ctHi 324) 1
        (s.setRing r (if r = 65 then { s.ring r with d := lo } else { s.ring r with h := lo })))))) ∧
    (ringOwner s r ≠ page →
      exec (.doorbellWrite page slot lo hi) s = .next (settle s (raise 0x1928 0x10 (count (ctHi (326 + page)) 1 s)))) ∧
    (ringOwner s r = page → (ringOn s r = false ∨ hi ≠ ~~~lo ∨ dbValid (s.ring r) r lo = false) →
      exec (.doorbellWrite page slot lo hi) s = .next (settle s
        (ringErr r 5 lo.toNat (raise 0x1928 8 (count (ctHi 325) 1 s)))))

/-- A write of EN activates a ring: its indices are 0, its base, size and generation are latched (R365); an activation that R365
forbids leaves EN 0 and notes BAD_CFG (6); in an active ring EN is the only bit that a write changes. A write of HI_GEN_OFFER
offers a generation (R368); a write of HI_WB_BASE_HI sets the write-back base while no ring is active, and is a BAD_ACCESS while
one is (R367). Choices of the model it rests on: log entries 66, 65, 37. -/
def Obligations.RingsSetUp : Prop :=
  (∀ (s : State) (a : Fin 3) (ring : Fin 66) (val : Word), agentMayWrite a s (ringOff ring + 8) val = true →
    let u := agentPre a s
    let o := ringOff ring + 8
    ((s.ring ring).active = false → bit val 8 = true → activateBad s ring val = false →
      exec (.ringEnableWrite a ring val) s = .next (settle s (agentDone a o s ((u.setReg o (val &&& 0x1FF#32)).setRing ring
        { active := true, gen := liveGen s ring val, size := field val 0 5, owner := (s.ring ring).owner,
          reads := (s.ring ring).reads,
          base := (s.reg (ringOff ring + 4)).toNat * 0x100000000 + (s.reg (ringOff ring)).toNat })))) ∧
    ((s.ring ring).active = false → bit val 8 = true → activateBad s ring val = true →
      exec (.ringEnableWrite a ring val) s = .next (settle s (agentDone a o s (ringErr ring 6 0 (u.setReg o (val &&& 0xFF#32)))))) ∧
    ((s.ring ring).active = true → field val 0 8 = field (s.reg o) 0 8 →
      exec (.ringEnableWrite a ring val) s = .next (settle s (agentDone a o s
        (u.setReg o (setField (s.reg o) 8 1 (field val 8 1))))))) ∧
  ∀ (s : State) (a : Fin 3) (val : Word),
    (agentMayWrite a s 0x10 val = true →
      exec (.genOfferWrite a val) s = .next (settle s (agentDone a 0x10 s
        { (agentPre a s).setReg 0x10 (val &&& 3#32) with genOffered := true }))) ∧
    (agentMayWrite a s 0x1934 val = true → s.rings.any (fun e => e.2.active) = false →
      exec (.wbBaseWrite a val) s = .next (settle s (agentDone a 0x1934 s
        { (agentPre a s).setReg 0x1934 val with wbWritten := true }))) ∧
    (agentMayWrite a s 0x1934 val = true → s.rings.any (fun e => e.2.active) = true →
      exec (.wbBaseWrite a val) s = .next (settle s (agentDone a 0x1934 s (badAccess (agentPre a s)))))

/-- A host-transmit descriptor whose ring has no other waiting: its payload is read (R370), and one that R370 accepts becomes a
record of the ring's talker with the next sequence number, and is consumed with its write-back and index; one with a bad length or
type is refused with that status. Choices of the model it rests on: log entries 118, 68, 156. -/
def Obligations.TransmitDescriptor : Prop :=
  ∀ (s s1 : State) (ring : Fin 32) (desc : List Word) (payload : List Byte), s.awake = true → hostFetches s = true →
    ringOn s ring = true → (s.ring ring).reads ≠ 0 → (s.ring ring).ht = [] → dist (s.ring ring).h (s.ring ring).d ≠ 0 → desc ≠ [] →
    let g := s.ring ring
    let t := 0x60 + ring.val
    let w := wordAt desc 2
    let len := field w 0 16
    let x : HtDesc := { w := desc, ok := true, cap := captureTk s t 0 0 false,
                        pay := (payload.take len ++ List.replicate (min 2048 len - payload.length) 0x00#8).take 2048 }
    let fetched := (whenDo (decide (len ≤ 2048)) (hostReads ((wordAt desc 1).toNat * 0x100000000 + (wordAt desc 0).toNat) len)
      (s.setRing ring { g with reads := g.reads - 1 })).setRing ring { g with reads := g.reads - 1, ht := [x] }
    let q := s.seqOf t
    let fmt := if field w 16 8 = 0 then 0x30 else field w 16 8
    (htError x = 0 → nbit (s.mrg (engOf s t 0)).refused (htClass x) = false →
      addRecord [mkH0 fmt (htClass x) false false (bit w 28) x.pay.length, mkH1 t q, w32 x.cap.dt,
          w32 (x.cap.dt / 0x100000000), x.cap.h4, wordAt desc 3] x.pay { hits := x.cap.hits, noRefuse := true }
        (count (ctHi (5 * ring + 2)) len fetched) = (s1, .recorded) →
      exec (.htFetchComplete ring desc payload true) s = .next (settle s (flow
        (htConsume ring x 0 q (count (ctHi (5 * ring + 1)) 1 (s1.setSeq t (q + 1))))))) ∧
    (htError x ≠ 0 →
      exec (.htFetchComplete ring desc payload true) s = .next (settle s (flow
        (htConsume ring x (htError x) 0 (ringErr ring (htError x) g.d.toNat (count (ctHi (5 * ring + 3)) 1 fetched))))))

/-- A host-receive descriptor that was being read joins the ring's list (R374); a failed read is counted and raised, a read past
its time as CPL_TIMEOUT too, and is noted at the host-receive ring or ends the command whose buffer it was with BAD_BUF (6) (R358,
R377); IMOD.TIME after a completion not yet signalled, the DONE bit rises (R376). Choices of the model it rests on: log entries
67, 118, 156. -/
def Obligations.HostReads : Prop :=
  ∀ s : State,
    (∀ (ring : Fin 32) (desc : List Word), s.awake = true → hostFetches s = true → ringOn s (32 + ring) = true →
      (s.ring (32 + ring)).reads ≠ 0 → (s.ring (32 + ring)).hr.length < 8 → (s.ring (32 + ring)).hr.length < dist (s.ring (32 + ring)).h (s.ring (32 + ring)).d →
      exec (.hrDescriptorFetch ring desc) s = .next (settle s (flow
        (s.setRing (32 + ring) { s.ring (32 + ring) with hr := (s.ring (32 + ring)).hr ++ [desc],
                                                         reads := (s.ring (32 + ring)).reads - 1 })))) ∧
    (∀ who : Fin 68, s.awake = true → s.hostUp = true → 32 ≤ who.val → who.val < 64 → (s.ring who).active = true →
      (s.ring who).reads ≠ 0 →
      let err := raise 0x1928 1 (count (ctHi 336) 1 s)
      exec (.readCompletionError who) s = .next (settle s (flow (ringErr who 3 (s.ring who).d.toNat (readEnds who err)))) ∧
      exec (.cplTimeout who) s = .next (settle s (flow
        (ringErr who 3 (s.ring who).d.toNat (readEnds who (raise 0x1928 2 (count (ctHi 337) 1 err))))))) ∧
    (∀ c, s.awake = true → s.hostUp = true → headCmd s = some c → c.op = 1 ∨ c.op = 6 →
      exec (.readCompletionError 66) s = .next (settle s (flow
        (raise 0x1900 4 (doneCmd c.idx 6 0#32 0#32 (raise 0x1928 1 (count (ctHi 336) 1 s))))))) ∧
    (∀ ring : Fin 66, s.awake = true → ring.val ≠ 64 → s.rf (ringOff ring + 0x14) 16 16 ≠ 0 → (s.ring ring).done ≠ 0 →
      exec (.imodTimer ring) s = .next (settle s (raiseDone ring (s.setRing ring { s.ring ring with done := 0 }))))

/-! ## The command ring -/

/-- A command descriptor that was being read arrives (R378): it joins the pending list with its CMD index, the index moves and is
written back, and a descriptor that R379, R380 or R445 refuses is already done with its status: BAD_OPCODE (3) for an undefined
opcode, REACH (5) for a domain without delegation or privilege, BAD_FIELD (4) for operands out of range, in that order. Choices of
the model it rests on: log entries 63, 156. -/
def Obligations.CommandFetched : Prop :=
  ∀ (s : State) (w : List Word), s.awake = true → cmdReady s = true →
    let g := s.ring 64
    let op := field (wordAt w 0) 0 8
    let d := field (wordAt w 0) 8 3
    exec (.cmdFetch w) s = .next (settle s (flow (wbIndex 64 (count (ctHi 320) 1
      (({ s with cmds := s.cmds ++ [{ w := w, idx := w32 s.cmdSerial, no := g.d, started := (cmdVerdict s w).isSome,
                                      done := (cmdVerdict s w).map (fun x => (x, 0#32, 0#32)), acceptDt := s.dt }],
                 cmdSerial := s.cmdSerial + 1 } : State).setRing 64 { g with d := g.d + 1#32, reads := g.reads - 1 }))))) ∧
    (9 < op → cmdVerdict s w = some 3) ∧
    (op ≤ 9 → s.rb 0xF048 (8 + d) = false → cmdVerdict s w = some 5) ∧
    (∀ b, op ≤ 9 → s.rb 0xF048 (8 + d) = true → opPriv op = some b → s.rb (0xF628 + 0x40 * d) b = false → cmdVerdict s w = some 5) ∧
    (op = 0 → s.rb 0xF048 (8 + d) = true → operandBad w = true → cmdVerdict s w = some 4) ∧
    (op = 0 → s.rb 0xF048 (8 + d) = true → operandBad w = false → cmdVerdict s w = none)

/-- A NOP is done when it is first in the list (R378); the completion of a command that is done is written at the producer index
of CPL with its tag, opcode, status, results and CMD index (R378, R383), the command leaves the list, and the index moves on.
Choices of the model it rests on: log entries 71, 69. -/
def Obligations.NopAndCompletion : Prop :=
  ∀ (s : State) (c : Cmd) (rest : List Cmd), s.awake = true →
    (s.cmds = c :: rest → c.op = 0 → c.started = false → c.done = none → (∀ x ∈ rest, x.idx ≠ c.idx) →
      exec .nop s = .next (settle s { s with cmds := { c with started := true, done := some (0, 0#32, 0#32) } :: rest })) ∧
    (∀ (st : Nat) (r0 r1 : Word), s.cmds = c :: rest → c.done = some (st, r0, r1) → c.mute = false → s.hostUp = true →
      ringOn s 65 = true → (∀ x ∈ rest, x.idx ≠ c.idx ∧ x.op ≠ 0 ∧ x.mute = false) →
      let g := s.ring 65
      let entry := [w32 (field (wordAt c.w 0) 16 16 + field (wordAt c.w 0) 0 8 * 0x10000 + st * 0x1000000), r0, r1, c.no]
      exec (.commandCompletion c.no) s = .next (settle s (flow (ringCompleted 65 (whenDo (decide (2 ≤ st)) (raise 0x1900 2)
        (count (ctHi 323) 1 (count (ctHi (if st = 0 then 321 else 322)) 1
          ((hostWrites (descAddr g 65 g.h) (wordsBytes entry) { s with cmds := rest }).setRing 65 { g with h := g.h + 1#32 }))))))))

/-- LOAD_TABLE reads its buffer (R377) and, with nothing to wait for, loads its entries into the staging banks and ends with
SUCCESS and the number written, or, after a refused entry, with status 1, the number written and the position and reason of the
first one refused (R163, R164, R381, R383). One that has to wait is started and keeps its words (R414). Choices of the model it
rests on: log entries 64, 156, 145. -/
def Obligations.LoadTableRuns : Prop :=
  ∀ (s : State) (c : Cmd) (buf : List Word), s.awake = true → s.hostUp = true → headCmd s = some c → c.op = 1 →
    let words := buf.take ((wordAt c.w 6).toNat / 4)
    let u := modCmd c.idx (fun _ => { c with started := true, buf := words, bufOk := true })
      (bufferRead c (wordAt c.w 6).toNat (modCmd c.idx (fun x => { x with started := true }) s))
    let l := loadTables c.dom (field (wordAt c.w 1) 0 4) (wordAt c.w 2).toNat words u
    (s.cons.rebaste = false → s.cons.stitch = none → l.2.short = false → l.2.refused = none →
      exec (.loadTable buf true) s = .next (settle s (doneCmd c.idx 0 (w32 l.2.written) 0#32 l.1))) ∧
    (∀ p x, s.cons.rebaste = false → s.cons.stitch = none → l.2.short = false → l.2.refused = some (p, x) →
      exec (.loadTable buf true) s = .next (settle s
        (doneCmd c.idx 1 (w32 l.2.written) (w32 (p % 65536 + x * 65536)) l.1))) ∧
    (s.cons.rebaste = true → exec (.loadTable buf true) s = .next (settle s u))

/-- A STITCH becomes the pending stitch (R416); with one pending it ends BUSY (2), and with the seam HALTED with status 10 (R383,
R418). A FITTING with a buffer large enough joins the pending fittings in a free shadow bank (R424, R426); with two pending it
ends BUSY, with a buffer too small BAD_BUF (6). Their target is none and due at once for NEXT_INDEX; for DT the operand, late and
due at once with status 7 when it has passed, which raises TP_CAUSE.LATE (R93, R95, R99). Choices of the model it rests on: log
entries 52, 107. -/
def Obligations.StitchAndFittingStart : Prop :=
  ∀ (s : State) (c : Cmd), s.awake = true → headCmd s = some c →
    let u := modCmd c.idx (fun x => { x with started := true }) s
    let g := schedTarget c.w s
    (c.op = 2 → s.seam.dev ≠ 3 → s.cons.stitch = none →
      exec .stitch s = .next (settle s (whenDo (decide (g.2.1 = 7)) (raise 0x3040 0x200000) (modCons (fun x => { x with
        stitch := some { cmd := some c.idx, target := g.1, status := g.2.1, ripe := g.2.2 } }) u)))) ∧
    (c.op = 2 → s.seam.dev ≠ 3 → s.cons.stitch.isSome = true → exec .stitch s = .next (settle s (doneCmd c.idx 2 0#32 0#32 u))) ∧
    (c.op = 2 → s.seam.dev = 3 → exec .stitch s = .next (settle s (doneCmd c.idx 10 0#32 0#32 u))) ∧
    (c.op = 3 → s.cons.fits.length < 2 → 87552 ≤ (wordAt c.w 6).toNat →
      exec .fitting s = .next (settle s (whenDo (decide (g.2.1 = 7)) (raise 0x3040 0x200000) (modCons (fun x => { x with fits := x.fits ++
        [{ cmd := c.idx, target := g.1, status := g.2.1, ripe := g.2.2,
           bank := if s.cons.fits.any (fun f => f.bank = 0) then 1 else 0, acceptDt := c.acceptDt,
           tag := field (wordAt c.w 0) 16 16, addr := (wordAt c.w 5).toNat * 0x100000000 + (wordAt c.w 4).toNat }] }) u)))) ∧
    (c.op = 3 → 2 ≤ s.cons.fits.length → exec .fitting s = .next (settle s (doneCmd c.idx 2 0#32 0#32 u))) ∧
    (c.op = 3 → s.cons.fits.length < 2 → (wordAt c.w 6).toNat < 87552 →
      exec .fitting s = .next (settle s (doneCmd c.idx 6 0#32 0#32 u))) ∧
    (field (wordAt c.w 1) 0 2 = 0 → g = (none, 0, true)) ∧
    (field (wordAt c.w 1) 0 2 = 1 →
      let t := Target.dt (mkD (wordAt c.w 3) (wordAt c.w 2)).toNat
      g = if targetLate s t then (some t, 7, true) else (some t, 0, false))

/-- SEAM_TEST that R349 accepts is counted and puts its first seam into TESTING; one that it refuses, as always in HALTED, is
counted as busy and ends with 2. That a command counts once, whatever number of seams it tests, is the model's reading (log entry
62). Choices of the model it rests on: log entries 62. -/
def Obligations.SeamTestStarts : Prop :=
  ∀ (s : State) (c : Cmd), s.awake = true → headCmd s = some c →
    let u := modCmd c.idx (fun x => { x with started := true }) s
    let w := wordAt c.w 1
    let l := testSet s (field w 0 2) (bit w 2)
    (c.op = 4 → testBusy s (bit w 2) l = false →
      exec .seamTest s = .next (settle s (setSeam (l.headD 0) 1 (count (ctSm 9) 1
        (modSeam (fun x => { x with test := l, testRes := 0, readmit := bit w 2, testCmd := c.idx }) u))))) ∧
    (c.op = 4 → testBusy s (bit w 2) l = true →
      exec .seamTest s = .next (settle s (doneCmd c.idx 2 0#32 0#32 (count (ctSm 10) 1 u)))) ∧
    (s.seam.dev = 3 → testBusy s (bit w 2) l = true)

/-- POWER that is refused ends with BUSY; one that selects STORE4 while a bobbin is carved above word 1,048,575 is refused so
(R26). One that is not refused ends with SUCCESS, stages its profile, and enters RUN or DOZE, or begins the entry to NAP or
HIBERNATE (R25, R448, R449). -/
def Obligations.PowerStarts : Prop :=
  ∀ (s : State) (c : Cmd), s.awake = true → headCmd s = some c →
    let u := modCmd c.idx (fun x => { x with started := true }) s
    let w := wordAt c.w 1
    (c.op = 5 → powerBusy s w = true → exec .power s = .next (settle s (doneCmd c.idx 2 0#32 0#32 u))) ∧
    (∀ b, c.op = 5 → bit w 3 = true → bit w 6 = true → b < 512 → bobEn s b = true →
      0x100000 < 64 * field (s.liveReg (carveOff b)) 0 15 + bobDepth s b →
      exec .power s = .next (settle s (doneCmd c.idx 2 0#32 0#32 u))) ∧
    (c.op = 5 → powerBusy s w = false → bit w 3 = true → field w 0 3 = 0 →
      exec .power s = .next (settle s (doneCmd c.idx 0 (w32 s.pw.st) 0#32
        { u with pw := { s.pw with staged := some (bit w 4, bit w 5, bit w 6) } }))) ∧
    (∀ k, c.op = 5 → powerBusy s w = false → bit w 3 = false → field w 0 3 = k → (k = 1 ∨ k = 2) → s.pw.st ≠ k →
      exec .power s = .next (settle s (enterPower k (doneCmd c.idx 0 (w32 k) 0#32 u)))) ∧
    (∀ k, c.op = 5 → powerBusy s w = false → bit w 3 = false → field w 0 3 = k → (k = 3 ∨ k = 4) → s.pw.st ≠ k →
      exec .power s = .next (settle s { doneCmd c.idx 0 (w32 k) 0#32 u with pw := { s.pw with req := some k } }))

/-- CAL_APPLY completes (R462): a user record from the host's buffer or from the valid MRAM slot of the newest generation that
passes the checks of R461 is staged for the next stitch, its source and its SAVE bit with it, and the command ends with SUCCESS
and the number of offsets that are not zero; a record that fails them ends with BAD_BUF (6), offsets out of range with 4.
RING_RESET completes (R382): a ring without outstanding reads is deactivated, its indices and its write-back slot are 0 and the
command ends with SUCCESS; one with reads outstanding is deactivated and drops what it has fetched, and the command ends so at its
last read. Choices of the model it rests on: log entries 65, 37, 156, 157. -/
def Obligations.CalApplyAndRingReset : Prop :=
  ∀ (s : State) (c : Cmd), s.awake = true → headCmd s = some c →
    let u := modCmd c.idx (fun x => { x with started := true }) s
    let w := wordAt c.w 1
    (c.op = 6 → bit w 0 = false → s.hostUp = true →
      let v := whenDo (decide (296 ≤ (wordAt c.w 6).toNat)) (bufferRead c 296) u
      (∀ buf mram r, 296 ≤ (wordAt c.w 6).toNat → 296 ≤ buf.length → userRecord (buf.take 296) = some r → offsetsBad r = false →
        exec (.calApply buf true mram) s = .next (settle s (doneCmd c.idx 0 (w32 r.offs.length) 0#32
          { v with pw := { s.pw with calStaged := some (r, 2, bit w 1) } }))) ∧
      (∀ buf mram r, 296 ≤ (wordAt c.w 6).toNat → 296 ≤ buf.length → userRecord (buf.take 296) = some r → offsetsBad r = true →
        exec (.calApply buf true mram) s = .next (settle s (doneCmd c.idx 4 0#32 0#32 v))) ∧
      (∀ buf mram, userRecord (buf.take 296) = none →
        exec (.calApply buf true mram) s = .next (settle s (doneCmd c.idx 6 0#32 0#32 v)))) ∧
    (c.op = 6 → bit w 0 = true →
      ∀ buf ok mram g r, latestSlot (validSlots (mram : BitVec 8).toNat s.pw.user) = some (g, r) → offsetsBad r = false →
        exec (.calApply buf ok mram) s = .next (settle s (doneCmd c.idx 0 (w32 r.offs.length) 0#32
          { slotFaults mram.toNat s.pw.user u with pw := { s.pw with calStaged := some (r, 3, bit w 1) } }))) ∧
    (c.op = 8 →
      let r := field w 0 6
      let o := ringOff r + 8
      let v := u.setReg o (setField (s.reg o) 8 1 0)
      ((s.ring r).reads = 0 → exec .ringReset s = .next (settle s (doneCmd c.idx 0 0#32 0#32
        (wbIndex r (v.setRing r { owner := (s.ring r).owner }))))) ∧
      ((s.ring r).reads ≠ 0 → exec .ringReset s = .next (settle s
        (v.setRing r { s.ring r with active := false, ht := [], hr := [] })))) ∧
    (∀ (ring : Fin 32) desc pay ok x, desc ≠ [] → hostFetches s = true → (s.ring ring).active = false → (s.ring ring).reads = 1 →
      s.cmds.find? (fun y => decide (y.op = 8 ∧ field (wordAt y.w 1) 0 6 = ring.val ∧ y.done = none) && y.started) = some x →
      exec (.htFetchComplete ring desc pay ok) s = .next (settle s (flow (doneCmd x.idx 0 0#32 0#32
        (wbIndex ring (s.setRing ring { owner := (s.ring ring).owner }))))))

/-- PEER_FENCE with the link down ends with 9 and is counted; with the link up and no write open it ends at once with SUCCESS and
the number of faults since the last one; with writes open it notes them and waits (R408). PORT_SERVICE that takes a port out which
is out ends with SUCCESS; one that takes a port out begins it, and it completes at the port's boundary; one that returns a port
puts it back into service and ends with SUCCESS, as does one that waited to take it out (R277, R287, R290). Choices of the model
it rests on: log entries 125. -/
def Obligations.FenceAndService : Prop :=
  ∀ (s : State) (c : Cmd), s.awake = true → headCmd s = some c →
    let u := modCmd c.idx (fun x => { x with started := true }) s
    let w := wordAt c.w 1
    let t := field w 0 8
    (c.op = 7 → peerUp s = false → exec .peerFence s = .next (settle s (count (ctPb 41) 1 (doneCmd c.idx 9 0#32 0#32 u)))) ∧
    (c.op = 7 → peerUp s = true →
      exec .peerFence s = .next (settle s (fencesCheck (modCmd c.idx (fun x => { x with fence := s.peer.writes.map (·.tag) }) u)))) ∧
    (c.op = 9 → bit w 8 = true → outOfService s t = true → exec .portService s = .next (settle s (doneCmd c.idx 0 0#32 0#32 u))) ∧
    (c.op = 9 → bit w 8 = true → outOfService s t = false →
      exec .portService s = .next (settle s
        (if t < 0x30 then portOut t u else if t < 0x40 then canOut (t - 0x30) u else tsOut (t - 0x40) u))) ∧
    (c.op = 9 → bit w 8 = false → outOfService s t = true →
      exec .portService s = .next (settle s (serviceDone t (doneCmd c.idx 0 0#32 0#32
        (if t < 0x30 then portBack t u else if t < 0x40 then u.setCan (t - 0x30) { s.can (t - 0x30) with oos := false, oosPend := false }
         else u.setTs (t - 0x40) { s.ts (t - 0x40) with oos := false, oosPend := false })))))

/-! ## Asynchronous ports -/

/-- What a stored receive word does (R252, R254, R256): it joins the port queue with the OV that awaited a place and its tag,
raises the error causes that it carries, and shows in AP_RX_LAST; with 64 words waiting it is lost and counted, OV awaits the next
word, and OVERRUN is raised. A character in FULL mode of an enabled port in service, or in SINGLE or HDX_DE mode while the port
does not transmit, is stored so, its bits read through INV_RX and MSB_FIRST (R245, R247); a false start is counted and stores
nothing (R250). In LIN mode a low level of at least BRK_DET bit times is stored as a break, a shorter one as a framing error, and
a responder with AUTO_SYNC measures the character behind a break: more than 14 % off makes the sync byte bad (R269). Choices of
the model it rests on: log entries 95, 20, 96, 131. -/
def Obligations.ReceiveWordStored : Prop :=
  ∀ (s : State) (port : Fin 48),
    (∀ (u : State) (w : Word) (cap : Cap) (bad : Bool),
      let p := u.port port
      let w1 := w ||| w32 (b2n p.ov * 0x2000 + cap.tick % 65536 * 65536)
      let cause := apOff port 0x24
      (p.q.length < 64 → rxPush port w cap u bad =
        ((whenDo (bit w1 12) (raise cause 4) (whenDo (bit w1 9 || bit w1 10 || bit w1 11) (raise cause 2)
          (u.setPort port { p with q := p.q ++ [{ w := withParity w1, cap := cap, syncBad := bad }], ov := false, idle := false }))).setReg
            (apOff port 0x18) w1)) ∧
      (64 ≤ p.q.length → rxPush port w cap u bad =
        raise cause 1 (count (ctAp port 10) 1 (u.setPort port { p with ov := true, idle := false })))) ∧
    (∀ (fs : Bool) (data : BitVec 9) (par stop noisy early : Bool) (sync age : Nat), s.awake = true → s.rb (apOff port 0) 0 = true →
      (s.port port).oos = false →
      let u := modPort port (fun p => { p with rxBusy := false })
        (modPort port (fun p => { p with line := if fs then !(invRx s port) else stop }) s)
      let w := rxWord (s.port port).rxChar (invRx s port) data.toNat par stop noisy early
      let m := linMeasure port sync u
      (fs = true → exec (.characterReceived port fs data par stop noisy early ⟨age, sync⟩) s = .next (settle s
        (raise (apOff port 0x24) 8 (count (ctAp port 11) 1 u)))) ∧
      (fs = false → (linMode s port = false ∨ bit w 12 = false) →
        (lineMode s port = 0 ∨ txActive s port = false ∨ s.rb (apOff port 0) 3 = true) →
        exec (.characterReceived port fs data par stop noisy early ⟨age, sync⟩) s = .next (settle s
          (rxPush port w (captureFine u port age port) m.1 m.2))) ∧
      ((s.port port).linSync = true → linMode s port = true → s.rb (apOff port 0x2C) 0 = false → s.rb (apOff port 0x2C) 2 = true →
        let bad := syncOff (syncBit sync) (bitTime (s.port port).rxRate)
        m = (u.setPort port { u.port port with linSync := false, linBit := if bad then none else some (syncBit sync) }, bad))) ∧
    (∀ bits age, s.awake = true → s.rb (apOff port 0) 0 = true → (s.port port).oos = false → linMode s port = true →
      let brk := decide (s.rf (apOff port 0x2C) 11 5 ≤ bits)
      exec (.linBreak port bits age) s = .next (settle s (rxPush port (if brk then 0x1000#32 else 0x200#32) (captureFine s port age port)
        (modPort port (fun p => { p with line := !(invRx s port), linSync := brk, linBit := if brk then none else p.linBit }) s))))

/-- The framer (R110, R113, R123, R125, R134): with framing OFF a popped character is junk; inside a unit a character without a
flag that ends it goes to the unit's framing, which goes on or ends the unit. A gap ends an idle-gap unit, which becomes a record
of the port's talker with its reserved number; silence of ABORT_BITS ends a unit ABORTED (7), which without MALF is counted as bad
and as junk and makes no record (R105); a LIN frame slot that ends without a response is LIN error 3 (R125). Choices of the model
it rests on: log entries 92, 93, 88. -/
def Obligations.FramerRuns : Prop :=
  ∀ (s : State) (port : Fin 48), s.awake = true →
    let p := s.port port
    (∀ e q, p.q = e :: q → p.unit = none → s.rf (apOff port 0x40) 0 3 = 0 →
      exec (.frameCharacter port) s = .next (settle s (junkN port 1 (portqRead port e (s.setPort port { p with q := q }))))) ∧
    (∀ e q u, p.q = e :: q → p.unit = some u → frmMode u.ctrl ≠ 6 → (rxChar e).bk = false → ((rxChar e).err && bit u.ctrl 8) = false →
      (∀ v, unitChar u (rxChar e).v = .more v →
        exec (.frameCharacter port) s = .next (settle s (unitMore port (flagStatus (rxChar e) v) (portqRead port e (s.setPort port { p with q := q }))))) ∧
      (∀ v st, unitChar u (rxChar e).v = .done v st true →
        exec (.frameCharacter port) s = .next (settle s
          (unitTook port (.done (flagStatus (rxChar e) v) st true) (portqRead port e (s.setPort port { p with q := q })))))) ∧
    (∀ u s1, p.unit = some u → frmMode u.ctrl = 4 → u.st = 0 → u.early = none → u.dead = false →
      addRecord (unitHead port u (unitPay u).length (unitH5 u)) (unitPay u) { status := 0, hits := u.cap.hits, tagMark := unitTag u }
        (count (ctAp port 0) 1 (s.setPort port { p with unit := none })) = (s1, .recorded) → (s1.port port).skip = 0 →
      exec (.idleGapEnd port) s = .next (settle s (s1.setSeq port (u.seq + 1)))) ∧
    (∀ u, p.unit = some u → (frmMode u.ctrl = 1 ∨ frmMode u.ctrl = 2 ∨ frmMode u.ctrl = 3 ∨ frmMode u.ctrl = 5) →
      field u.gap 8 16 ≠ 0 → u.early = none → u.dead = false → u.malf = false →
      exec (.silenceTimeout port) s = .next (settle s (count (ctAp port 9) 1 (countTalker port 0 1 1
        (count (ctAp port 7) 1 (s.setPort port { p with unit := none })))))) ∧
    (∀ u, p.unit = some u → frmMode u.ctrl = 6 → u.linPh = 2 → u.pay = [] →
      exec (.linFrameSlotExpiry port) s = .next (settle s
        ((raise (apOff port 0x24) 0x800 (count (ctAp port 15) 1 (s.setPort port { p with unit := none }))).setReg (apOff port 0x38)
          (w32 (u.linPid.toNat % 64 + 3 * 256)))))

/-- Rates (R263, R264): a write of AP_RATE or AP_CHAR applies to both sides at once while neither holds a character, and waits
while one does; a side at its character point takes the waiting setting, and RATE_APPLIED is raised when no side waits any more; a
write with RATE_NOW with no character in a shifter applies at once. Choices of the model it rests on: log entries 96. -/
def Obligations.RatesApply : Prop :=
  ∀ (s : State) (port : Fin 48) (a : Fin 3) (val : Word),
    (∀ char : Bool,
      let o := apOff port (if char then 4 else 8)
      let v := if char then val else val &&& 0x7FFFFFFF#32
      let stored := if char then v &&& 0x3FF#32 else v &&& 0x7FFFFFF#32
      (∀ rx, agentMayWrite a (rxSeen port rx s) o v = true → (rx = true ∨ txBusy s port = true) →
        exec (.rateWrite a port char val rx) s = .next (settle s (agentDone a o (rxSeen port rx s)
          (modPort port (fun p => { p with pendRx := true, pendTx := true }) ((agentPre a (rxSeen port rx s)).setReg o stored))))) ∧
      (agentMayWrite a (rxSeen port false s) o v = true → txBusy s port = false →
        exec (.rateWrite a port char val false) s = .next (settle s (agentDone a o (rxSeen port false s)
          (rateTake port true true ((agentPre a (rxSeen port false s)).setReg o stored)))))) ∧
    (∀ tx, s.awake = true → (if tx then (s.port port).pendTx else (s.port port).pendRx) = true →
      exec (.rateApply port tx) s = .next (settle s (rateTake port (!tx) tx s))) ∧
    (∀ u : State, let p := u.port port
      rateTake port true true u = whenDo (p.pendRx || p.pendTx) (raise (apOff port 0x24) 0x10) (u.setPort port
        { p with rxChar := u.reg (apOff port 4), rxRate := u.reg (apOff port 8), txChar := u.reg (apOff port 4),
                 txRate := u.reg (apOff port 8), pendRx := false, pendTx := false })) ∧
    (agentMayWrite a (rxSeen port false s) (apOff port 8) (val ||| 0x80000000#32) = true → txBusy s port = false →
      exec (.rateNow a port val false) s = .next (settle s (agentDone a (apOff port 8) (rxSeen port false s)
        (rateTake port true true ((agentPre a (rxSeen port false s)).setReg (apOff port 8) ((val ||| 0x80000000#32) &&& 0x7FFFFFF#32))))))

/-- The transmitter of an enabled port sends the character in its shifter (R245, R247, R258, R259): the ball takes its start,
data, parity and stop levels, and the sentence goes on with the next, or, after its last, is counted as delivered and its
reference ends (R190, R218); a cut-through sentence reads what its next character needs (R211). A read-back that differs up to the
last stop bit in SINGLE or HDX_DE mode is a collision (R266): counted and raised, and, with attempts left, the sentence waits for
its backoff from its first character; on a LIN port in FULL mode it is LIN error 4 (R268). Choices of the model it rests on: log
entries 97, 118. -/
def Obligations.CharacterSent : Prop :=
  ∀ (s : State) (port : Fin 48) (c : Cur) (v k : Nat), s.awake = true → s.rb (apOff port 0) 0 = true → (s.port port).oos = false →
    (s.port port).linTx = [] → (s.eg port).cur = some c → curShift s port c = some (v, k) →
    let p := s.port port
    let c1 := if c.shift.isSome then { c with shift := none } else { c with sent := c.sent + k }
    let gone := setCur port (some c1)
      (emit (.char port v (charLine p.txChar (invTx s port) v) (stopHalves p.txChar) (bitTime p.txRate)) s)
    (c.ref.cut = false → c.backoff = false → c.hit = false → c.shift = none → (v, k) = nextChar p.txChar (c.bytes.drop c.sent)) ∧
    (c.ref.cut = false → c1.sent < c1.bytes.length →
      exec (.transmitCharacter port none) s = .next (settle s (flow gone))) ∧
    (c.ref.cut = false → c.aborted = false → c1.bytes.length ≤ c1.sent →
      exec (.transmitCharacter port none) s = .next (settle s (flow (delivered c.lq c.ref (portEnd port port gone))))) ∧
    (c.ref.cut = true → exec (.transmitCharacter port none) s = .next (settle s (flow (curOver port port (cutLoad port 520 gone))))) ∧
    (∀ i : Fin 12, lineMode s port ≠ 0 → i.val ≤ stopIndex p.txChar → c.tries + 1 < s.rf (apOff port 0x14) 16 4 →
      exec (.transmitCharacter port (some i)) s = .next (settle s (flow
        (setCur port (some { c with tries := c.tries + 1, sent := 0, shift := none, backoff := true, hit := true })
          (modPort port (fun p => { p with de := false, idle := false }) (raise (apOff port 0x24) 0x40 (count (ctAp port 13) 1 s))))))) ∧
    (∀ i : Fin 12, lineMode s port = 0 → linMode s port = true → i.val ≤ stopIndex p.txChar →
      exec (.transmitCharacter port (some i)) s = .next (settle s (flow
        (linError port 0 4 (dropRef c.ref.addr (portEnd port port s))))))

/-- The line's times: after the backoff the sentence starts over from its first character (R266); after IFS of idle line a waiting
sentence starts (R265); DE_LAG after the last sentence the direction enable falls (R262). A write of AP_CTRL (R246): with EN
falling the unit in progress ends ABORTED and the transmitter, LIN or not, idles once the character in its shifter is out; with EN
rising the current sentence resumes or the next one is chosen; with EN unchanged only the register changes. Choices of the model
it rests on: log entries 83. -/
def Obligations.LineTimes : Prop :=
  ∀ (s : State) (port : Fin 48) (de : Fin 16), s.awake = true →
    (∀ (a : Fin 3) (val : Word), agentMayWrite a s (apOff port 0) val = true →
      let o := apOff port 0
      let u := (agentPre a s).setReg o (val &&& 0x7F#32)
      (s.rb o 0 = true → bit val 0 = false →
        exec (.apCtrlEnWrite a port val) s = .next (settle s (agentDone a o s (unitAbort port
          (modPort port (fun p => { p with txTail := txBusy s port, de := p.de && txBusy s port, linTx := p.linTx.take 1 }) u))))) ∧
      (s.rb o 0 = false → bit val 0 = true →
        exec (.apCtrlEnWrite a port val) s = .next (settle s (agentDone a o s (boundary port
          (modPort port (fun p => { p with txTail := false, de := decide (lineMode u port = 2 ∧ (s.eg port).cur.isSome) }) u))))) ∧
      (s.rb o 0 = bit val 0 → exec (.apCtrlEnWrite a port val) s = .next (settle s (agentDone a o s u)))) ∧
    (∀ c, (s.eg port).cur = some c → c.backoff = true → s.rb (apOff port 0) 0 = true →
      exec (.backoffRetry port) s = .next (settle s (modPort port (fun p => { p with de := decide (lineMode s port = 2) })
        (setCur port (some { c with backoff := false, hit := false, sent := 0 }) s)))) ∧
    (lineMode s port ≠ 0 → txActive s port = false → (s.port port).rxBusy = false →
      exec (.ifsIdle port) s = .next (settle s (boundary port (modPort port (fun p => { p with idle := true }) s)))) ∧
    ((s.port de).de = true → (s.eg de).cur = none →
      exec (.deLagEnd de) s = .next (settle s (modPort de (fun p => { p with de := false }) s)))

/-- LIN (R271 to R273): a header for a published identifier is answered from its buffer with the checksum behind the data, and
without a buffer is LIN error 5 and raises LIN_NO_DATA; a commander's slot sends a break and the header of the next enabled slot,
and a bit of the break that is read back otherwise stops it with LIN error 4 (R268). Choices of the model it rests on: log entries
113, 151. -/
def Obligations.LinTraffic : Prop :=
  ∀ (s : State) (port : Fin 48), s.awake = true →
    let p := s.port port
    (∀ u, p.unit = some u → frmMode u.ctrl = 6 → u.linPh = 2 → u.pay = [] → u.linOwn = false → p.oosPend = false →
      let id := u.linPid.toNat % 64
      field (linEntry s port id) 5 2 = 2 →
      (∀ d, mapFind p.buf id = some d →
        exec (.linHeader port) s = .next (settle s (s.setPort port
          { p with unit := some { u with linOwn := true }, linTx := d ++ [linChecksum u.linPid u.linModel d], linTxId := id,
                   linResp := true, linLoaded := false }))) ∧
      (mapFind p.buf id = none →
        exec (.linHeader port) s = .next (settle s (raise (apOff port 0x24) 0x1000
          (linError port id 5 (s.setPort port { p with unit := some { u with linPh := 4 } })))))) ∧
    (∀ i, s.rb (apOff port 0) 0 = true → p.oos = false → linMode s port = true → s.rb (apOff port 0x2C) 0 = true →
      s.rb (apOff port 0x2C) 1 = true → p.unit = none → p.linTx = [] → p.oosPend = false → p.linPos = none → (linSlots s port).head? = some i →
      let id := field (linEntry s port (64 + i)) 0 6
      let b := s.rf (apOff port 0x2C) 4 5
      let len := if b < 13 then 13 else if 26 < b then 26 else b
      let q := { p with linPos := some i, linTx := [0x55#8, linPid id], linTxId := id, linResp := false }
      exec (.linScheduleSlot ⟨port, none⟩) s = .next (settle s (emit (.linBreak port len) (s.setPort port q))) ∧
      (∀ k : Fin 26, k.val < len →
        exec (.linScheduleSlot ⟨port, some k⟩) s = .next (settle s (linError port 0 4 (emit (.linBreak port (k + 1))
          ((s.setPort port q).setPort port { (s.setPort port q).port port with linTx := [] }))))))


/-! ## CAN, 10BASE-T1S and Ethernet -/

/-- A CAN frame on the bus of a controller in service (R126, R282, R283, R286): the controller's own frame is not received; one in
a format not enabled is a protocol exception; one of another node lowers REC, and, refused by the filters, is counted, or,
accepted, becomes a record of the controller's talker with its type code and payload (R52, R54). Choices of the model it rests on:
log entries 99, 17, 20. -/
def Obligations.CanReceives : Prop :=
  ∀ (s : State) (cn : Fin 16) (kind : Fin 4) (ide : Bool) (id : BitVec 29) (dlc : BitVec 4) (sec : Bool) (vcid sdt : Byte) (af : Word)
    (data : List Byte) (age : Nat), canOn s cn = true → (s.can cn).oos = false →
    let x := fun own => exec (.canFrameReceived cn kind ide id dlc sec vcid sdt af data own age) s
    let t := 0x30 + cn.val
    let u := recAfter cn s
    let pay := canPay kind dlc.toNat af data
    let cap := captureFine u t age (96 + cn)
    let q := u.seqOf t
    x true = .next (settle s s) ∧
    (canEnabled s cn kind = false → mapFind s.early t = none →
      x false = .next (settle s (raise (cnOff cn 0x1C) 0x20 (count (ctCn cn 1) 1 s)))) ∧
    (canEnabled s cn kind = true → canAccept u cn kind ide id.toNat age = false → mapFind u.early t = none →
      x false = .next (settle s (count (ctCn cn 1) 1 u))) ∧
    (∀ s1, canEnabled s cn kind = true → canAccept u cn kind ide id.toNat age = true → mapFind u.early t = none →
      (kind.val = 3 → data.length ≤ 2044) →
      addRecord [mkH0 (canFmt kind) cap.prio false false false pay.length, mkH1 t q, w32 cap.dt, w32 (cap.dt / 0x100000000),
        cap.h4, canType kind ide id.toNat sec vcid sdt] pay { hits := cap.hits } u = (s1, .recorded) →
      x false = .next (settle s (count (ctCn cn 0) 1 (s1.setSeq t (q + 1))))) ∧
    ((s.can cn).rcv = 0 → u = s) ∧
    (0 < (s.can cn).rcv → (s.can cn).rcv ≤ 127 → u = canCounts cn (s.can cn).tec ((s.can cn).rcv - 1) s)

/-- A CAN controller transmits (R284 to R286): a frame sent with acknowledgement is counted, lowers TEC and ends its sentence as
delivered; one that lost arbitration is counted, and sent again, or abandoned under ONE_SHOT; an error of a transmission with
attempts left is counted, raises TEC by 8 and the frame is sent again; an error of a reception is counted and raises REC by 1, an
overload is counted (R280); the standard's exceptions and the faults in a flag come with the two last operands (log entry 98). TEC
and REC move the controller to error passive, back to error active and to bus-off. RECOVER starts the recovery of a controller in
bus-off, and at its end the controller is error active. Choices of the model it rests on: log entries 98, 118. -/
def Obligations.CanTransmits : Prop :=
  ∀ (s : State) (cn : Fin 16),
    let cur := (s.eg (48 + cn)).cur
    let cfg := cnOff cn 0x14
    (∀ c, canOn s cn = true → cur = some c → c.frame.isSome = true →
      let v := delivered c.lq c.ref (canRelease (48 + cn) c.bob (setCur (48 + cn) none (count (ctCn cn 3) 1 s)))
      exec (.canFrameSent cn) s = .next (settle s (flow
        (serviceBoundary (48 + cn) (canCounts cn ((v.can cn).tec - 1) (v.can cn).rcv v))))) ∧
    (∀ c, canOn s cn = true → cur = some c → s.rb cfg 8 = true →
      exec (.arbitrationLost cn) s = .next (settle s (canAbandon cn (count (ctCn cn 4) 1 s)))) ∧
    (∀ c, canOn s cn = true → cur = some c → s.rb cfg 8 = false →
      exec (.arbitrationLost cn) s = .next (settle s (canRetry cn (count (ctCn cn 4) 1 s)))) ∧
    (∀ x : Can, (∀ kind, kind ≠ 0 → errSteps x kind true false false = (x.tec + 8, x.rcv) ∧ errSteps x kind false false false = (x.tec, min 255 (x.rcv + 1))) ∧
      errSteps x 0 true false false = (x.tec, x.rcv)) ∧
    (∀ (kind : Fin 6) (flag except : Bool), canOn s cn = true →
      let s0 := if kind.val = 0 then count (ctCn cn 13) 1 s
        else (count (ctCn cn (7 + kind)) 1 s).setCan cn { s.can cn with lastErr := kind }
      let k := errSteps (s0.can cn) kind true flag except
      let r := errSteps (s0.can cn) kind false flag except
      let v := canCounts cn k.1 k.2 (count (ctCn cn 5) 1 s0)
      (kind.val = 0 ∨ mapFind s.early (0x30 + cn.val) = none →
        exec (.canError cn kind false flag except) s = .next (settle s (flow (canCounts cn r.1 r.2 s0)))) ∧
      (∀ c, kind.val ≠ 0 → cur.isSome = true → (v.eg (48 + cn)).cur = some c → v.rb cfg 8 = false →
        (v.rf cfg 0 8 = 0 ∨ c.tries < v.rf cfg 0 8) →
        exec (.canError cn kind true flag except) s = .next (settle s (flow
          (canRetry cn (setCur (48 + cn) (some { c with tries := c.tries + 1 }) v)))))) ∧
    (∀ tec rec, tec < 96 → rec < 96 → (s.can cn).st = 0 →
      canCounts cn tec rec s = s.setCan cn { s.can cn with tec := tec, rcv := rec, st := 0 }) ∧
    (∀ tec rec, tec < 96 → rec < 96 → (s.can cn).st = 1 →
      canCounts cn tec rec s = raise (cnOff cn 0x1C) 8 (s.setCan cn { s.can cn with tec := tec, rcv := rec, st := 0 })) ∧
    (∀ tec rec, 128 ≤ tec → tec ≤ 255 → rec < 96 → 96 ≤ (s.can cn).tec → (s.can cn).st = 0 →
      canCounts cn tec rec s = raise (cnOff cn 0x1C) 2 (count (ctCn cn 15) 1
        (s.setCan cn { s.can cn with tec := tec, rcv := rec, st := 1 }))) ∧
    (∀ tec rec, 255 < tec → rec < 96 → 96 ≤ (s.can cn).tec → (s.can cn).st = 1 → s.rb (cnOff cn 0) 5 = false →
      canCounts cn tec rec s = canAbandon cn (raise (cnOff cn 0x1C) 4 (count (ctCn cn 14) 1
        ((s.setCan cn { s.can cn with tec := 255, rcv := rec, st := 2 }).setCan cn
          { s.can cn with tec := 255, rcv := rec, st := 2, recovering := false })))) ∧
    (∀ a : Fin 3, agentMayWrite a s (cnOff cn 0) (s.reg (cnOff cn 0) ||| 0x40#32) = true → (s.can cn).st = 2 →
      exec (.recover a cn) s = .next (settle s (agentDone a (cnOff cn 0) s
        (((agentPre a s).setReg (cnOff cn 0) ((s.reg (cnOff cn 0) ||| 0x40#32) &&& 0x3BF#32)).setCan cn
          { s.can cn with recovering := true })))) ∧
    (s.awake = true → s.rb (cnOff cn 0) 0 = true → (s.can cn).st = 2 → (s.can cn).recovering = true →
      exec (.busRecovered cn) s = .next (settle s
        (raise (cnOff cn 0x1C) 8 (s.setCan cn { s.can cn with st := 0, tec := 0, rcv := 0, recovering := false }))))

/-- A frame on the medium of a 10BASE-T1S port in service (R127, R290): the port's own is not received; one too short, too long,
with a wrong FCS or with another destination is counted and dropped; any other becomes a record of the port's talker with its type
code; symbol errors are counted and raised (R302). Transmission (R289): a frame that completes is counted and its sentence ends as
delivered; one that the jabber timer cuts is counted, raised and dropped (R302); a collision is counted and raised, the frame
waits for its backoff, after which it is sent again, and is dropped at the sixteenth; without a BEACON a port that is not the
coordinator falls back to CSMA/CD, and returns to PLCA with one. Choices of the model it rests on: log entries 100, 20, 135, 152.
-/
def Obligations.T1sRuns : Prop :=
  ∀ (s : State) (ts : Fin 4) (bytes : List Byte) (symbols age : Nat), tsOn s ts = true → (s.ts ts).oos = false →
    let ep := 64 + ts.val
    let x := fun ok own => exec (.t1sFrameReceived ts bytes ⟨ok, symbols⟩ own age) s
    let t := 0x40 + ts.val
    let b := bytes.take (bytes.length - 4)
    let u := whenDo (decide (symbols ≠ 0)) (fun s => raise (tsOff ts 0x18) 0x10 (count (ctTs ts 10) symbols s)) s
    let takes := macAccept (tsMac u ts) b (u.rb (tsOff ts 0) 2)
    let cap := tsCapture ts age u
    let q := u.seqOf t
    x true true = .next (settle s u) ∧
    (mapFind s.early t = none →
      (∀ ok, bytes.length < 64 → x ok false = .next (settle s (count (ctTs ts 2) 1 u))) ∧
      (∀ ok, 1522 < bytes.length → x ok false = .next (settle s (count (ctTs ts 3) 1 u))) ∧
      (64 ≤ bytes.length → bytes.length ≤ 1522 →
        x false false = .next (settle s (raise (tsOff ts 0x18) 0x10 (count (ctTs ts 1) 1 u))) ∧
        (takes = false → x true false = .next (settle s (count (ctTs ts 4) 1 u))) ∧
        (∀ s1, takes = true →
          addRecord [mkH0 0x20 cap.prio false false false b.length, mkH1 t q, w32 cap.dt, w32 (cap.dt / 0x100000000), cap.h4,
            etherH5 b] b { hits := cap.hits } u = (s1, .recorded) →
          x true false = .next (settle s (count (ctTs ts 0) 1 (s1.setSeq t (q + 1))))))) ∧
    (∀ c, (s.eg ep).cur = some c → c.backoff = false → c.frame.isSome = true →
      exec (.t1sFrameSent ⟨ts, false⟩) s = .next (settle s (flow
        (serviceBoundary ep (delivered c.lq c.ref (setCur ep none (count (ctTs ts 5) 1 s))))))) ∧
    (∀ c, (s.eg ep).cur = some c → c.backoff = false →
      exec (.t1sFrameSent ⟨ts, true⟩) s = .next (settle s (flow
        (serviceBoundary ep (dropRef c.ref.addr (setCur ep none (raise (tsOff ts 0x18) 0x20 (count (ctTs ts 11) 1 s)))))))) ∧
    (∀ c, (s.eg ep).cur = some c → c.backoff = false → plcaActive s ts = false →
      let u := raise (tsOff ts 0x18) 4 (count (ctTs ts 7) 1 s)
      (c.tries < 15 →
        exec (.t1sCollision ts) s = .next (settle s (flow (setCur ep (some { c with tries := c.tries + 1, backoff := true }) u)))) ∧
      (15 ≤ c.tries →
        exec (.t1sCollision ts) s = .next (settle s (flow (serviceBoundary ep (dropRef c.ref.addr (setCur ep none
          (raise (tsOff ts 0x18) 8 (count (ctTs ts 8) 1 u))))))))) ∧
    (∀ c f, (s.eg ep).cur = some c → c.backoff = true → c.frame = some f →
      exec (.t1sBackoffEnd ts) s = .next (settle s (flow (emit f (setCur ep (some { c with backoff := false }) s))))) ∧
    (plcaOn s ts = true → s.rf (tsOff ts 0x0C) 0 8 ≠ 0 → (s.ts ts).lost = false →
      exec (.plcaLost ts) s = .next (settle s
        (raise (tsOff ts 0x18) 1 (count (ctTs ts 9) 1 (s.setTs ts { s.ts ts with lost := true, beacon := false }))))) ∧
    (plcaOn s ts = true → s.rf (tsOff ts 0x0C) 0 8 ≠ 0 → (s.ts ts).beacon = false →
      exec (.plcaBack ts) s = .next (settle s
        (raise (tsOff ts 0x18) 2 (s.setTs ts { s.ts ts with lost := false, beacon := true }))))

/-- A frame on an uplink (R128, R291, R293): one with a wrong FCS or with another destination is counted; one that no stream
takes, or an IPv4 packet with a fault, is counted; one that a raw stream takes becomes a record of that stream's talker; the
payload of one that a datagram or bundle stream takes is split (R129, R131); a PAUSE frame holds the transmitter with PAUSE_RX for
its quanta of 512 bit times; PCS errors are counted and raised (R302). Choices of the model it rests on: log entries 100, 101, 20,
135. -/
def Obligations.UplinkReceives : Prop :=
  ∀ (s : State) (eu : Fin 2) (b : List Byte) (pcs age : Nat), euOn s eu = true → 60 ≤ b.length → b.length ≤ 9018 →
    let v := whenDo (decide (pcs ≠ 0)) (fun s => raise (euOff eu 0x18) 4 (count (ctEu eu 13) pcs s)) s
    let mac := macBytes (v.reg (euOff eu 8)) (v.reg (euOff eu 0x0C))
    let takes := macAccept mac b (v.rb (euOff eu 0) 5)
    let u := count (ctEu eu 1) (b.length + 4) (count (ctEu eu 0) 1 v)
    let x := fun ok => exec (.uplinkFrameReceived eu b ⟨ok, pcs⟩ age) s
    x false = .next (settle s (euBad eu (raise (euOff eu 0x18) 4 (count (ctEu eu 2) 1 v)))) ∧
    (takes = false → x true = .next (settle s (euBad eu (count (ctEu eu 23) 1 v)))) ∧
    (takes = true → isPause mac b = true → v.rb (euOff eu 0) 4 = true →
      x true = .next (settle s ((count (ctEu eu 5) 1 u).setUp eu
        { s.up eu with pauseAt := s.now, pauseEnd := s.now + beNat ((b.drop 16).take 2) * 512 * euBit v eu }))) ∧
    (takes = true → isPause mac b = false → streamOf u eu b (List.range 8) = none →
      x true = .next (settle s (euBad eu (count (ctEu eu 6) 1 u)))) ∧
    (takes = true → isPause mac b = false → streamOf u eu b (List.range 8) = some none →
      x true = .next (settle s (euBad eu (raise (euOff eu 0x18) 0x20 (count (ctEu eu 7) 1 u))))) ∧
    (∀ n, takes = true → isPause mac b = false → streamOf u eu b (List.range 8) = some (some n) →
      let kind := field (streamReg u n 0) 0 2
      let cap := streamCapture n age u
      let t := 0x44 + n
      let q := u.seqOf t
      (∀ s1, kind = 1 → b.length ≤ 2048 → mapFind u.early t = none →
        addRecord [mkH0 0x21 cap.prio false false false b.length, mkH1 t q, w32 cap.dt, w32 (cap.dt / 0x100000000), cap.h4,
          etherH5 b] b { hits := cap.hits } u = (s1, .recorded) →
        x true = .next (settle s (s1.setSeq t (q + 1)))) ∧
      (kind = 2 → x true = .next (settle s (datagramSplit n cap age (udpPay b) u))) ∧
      (kind = 3 → x true = .next (settle s (bundleSplit n cap (udpPay b) u))))

/-- A frame's header span ends (R108): a cut-through talker's unit is given its early header, pinned and merged at once, and
counted as a frame where R108 says so: of a CAN controller, of a 10BASE-T1S port, of an uplink's raw stream. Choices of the model
it rests on: log entries 119, 20. -/
def Obligations.HeaderSpanEnds : Prop :=
  ∀ (s s1 : State) (a : Option Nat) (t : Fin 84) (kind : Fin 4) (ide : Bool) (id : BitVec 29) (len : Nat) (sec : Bool) (vcid sdt : Byte)
    (head : List Byte) (age : Nat), mapFind s.early t = none →
    let x := exec (.headerSpanEnd t kind ide id len sec vcid sdt head age) s
    let hd := fun (fmt : Nat) (cap : Cap) (h5 : Word) => [mkH0 fmt cap.prio false false false 0, mkH1 t (s.seqOf t), w32 cap.dt,
      w32 (cap.dt / 0x100000000), cap.h4, h5]
    let kept := { s1 with early := mapIns s1.early t a }
    (∀ n : Fin 16, t.val = 0x30 + n → canOn s n = true → (s.can n).oos = false → s.rb (cnOff n 0) 7 = true →
      canEnabled s n kind = true → canAccept s n kind ide id.toNat age = true → (kind.val = 3 → len ≤ 2044) →
      let cap := captureFine s t age (96 + n)
      earlyBegin (hd (canFmt kind) cap (canType kind ide id.toNat sec vcid sdt)) [] cap.hits
        (if kind.val = 1 then 1 else if kind.val = 3 then len + 4 else len) false s = (s1, a, .recorded) →
      x = .next (settle s (count (ctCn n 0) 1 kept))) ∧
    (∀ n : Fin 4, t.val = 0x40 + n → tsOn s n = true → (s.ts n).oos = false → s.rb (tsOff n 0) 3 = true →
      macAccept (tsMac s n) head (s.rb (tsOff n 0) 2) = true →
      let cap := tsCapture n age s
      earlyBegin (hd 0x20 cap (etherH5 head)) head cap.hits 0 false s = (s1, a, .recorded) →
      x = .next (settle s (count (ctTs n 0) 1 kept))) ∧
    (∀ n : Fin 16, t.val = 0x44 + n → euOn s (n / 8) = true → bit (streamReg s n 0) 2 = true → rawMatch s n head = true →
      macAccept (macBytes (s.reg (euOff (n / 8) 8)) (s.reg (euOff (n / 8) 0x0C))) head (s.rb (euOff (n / 8) 0) 5) = true →
      streamOf s (n / 8) head (List.range 8) = some (some n.val) →
      let cap := streamCapture n age s
      earlyBegin (hd 0x21 cap (etherH5 head)) head cap.hits 0 false s = (s1, a, .recorded) →
      x = .next (settle s kept))

/-- An uplink without its link (R292): its egress point chooses no sentence; when the link goes down, every closed frame is
discarded and counted, the pins of its sentences are returned, and the fall is counted and raised. -/
def Obligations.UplinkLinkFalls : Prop :=
  ∀ (s : State) (eu : Fin 2) (remote : Bool), s.awake = true →
    let x := s.up eu
    (x.link = false → epReady s (68 + eu) = false) ∧
    (x.link = true →
      let d := raise (euOff eu 0x18) 2 (count (ctEu eu 22) 1 (count (ctEu eu 19) x.closed.length
        (forAll (x.closed.flatMap (·.sents)) (fun e => dropRef e.ref.addr)
          (s.setUp eu { x with link := false, anDone := false, pauseAt := 0, pauseEnd := 0, closed := [] }))))
      exec (.linkDown ⟨eu, remote⟩) s = .next (settle s (flow (d.setUp eu { d.up eu with remote := remote }))))

/-- Uplinks (R291, R295, R301): a link that comes up is raised; a change of SPEED takes the link down; the first closed frame is
sent, counted, and its sentences count as delivered, but none while a PAUSE lasts; a bundle's number goes on as it is sent (R298);
an open frame closes CLOSE_US after its first sentence; a read of EU_TXTS_ID takes the oldest stamp. Choices of the model it rests
on: log entries 101, 20, 100. -/
def Obligations.UplinkSends : Prop :=
  ∀ (s : State) (eu : Fin 2), s.awake = true →
    let x := s.up eu
    let c := s.reg (euOff eu 0)
    (∀ an remote, bit c 0 = true → x.link = false →
      exec (.linkUp eu ⟨an, remote⟩) s = .next (settle s (raise (euOff eu 0x18) 1
        (s.setUp eu { x with link := true, anDone := an && bit c 3 && decide (field c 1 2 = 3), remote := remote })))) ∧
    (∀ (a : Fin 3) (val : Word), agentMayWrite a s (euOff eu 0) val = true →
      let u := (agentPre a s).setReg (euOff eu 0) (val &&& 0x3FFF3F#32)
      exec (.speedChange a eu val) s = .next (settle s (agentDone a (euOff eu 0) s
        (if field val 1 2 = field c 1 2 then u else euDown eu u)))) ∧
    (∀ f rest age, x.link = true → bit c 0 = true → x.closed = f :: rest → f.cut = false →
      let cfg := wordAt f.cfg 0
      let kind := field cfg 0 2
      let v := emit (.ether (4 + eu) f.bytes) (s.setUp eu { x with
        closed := rest,
        bseq := if kind = 3 then mapSet (dflt 0) x.bseq f.stream ((mapGet (dflt 0) x.bseq f.stream + 1) % 0x100000000) else x.bseq })
      (euPaused s eu (s.now - age) = true → exec (.uplinkFrameSent eu age) s = .next (settle s (flow s))) ∧
      (∀ e more, euPaused s eu (s.now - age) = false → f.sents = e :: more →
        exec (.uplinkFrameSent eu age) s = .next (settle s (flow (forAll f.sents (fun e => delivered e.lq e.ref)
          (whenDo (decide (kind = 2)) (count (ctEu eu 16) 1) (whenDo (decide (kind = 3)) (count (ctEu eu 17) 1)
            (count (ctEu eu 15) f.bytes.length (count (ctEu eu 14) 1 (closeDue eu (txStamp eu cfg e.ref age v))))))))))) ∧
    (∀ stream : Fin 16, exec (.frameCloseTimer stream) s = .next (settle s (flow (closeFrame stream s)))) ∧
    (∀ e rest, hostMayRead s (euOff eu 0x24) = true → x.txts = e :: rest →
      let v := w32 (field e.h1 20 12 + field e.h1 0 20 * 0x1000)
      exec (.txtsPop 0 eu) s = .next (settle s (emit (.readData 0 (euOff eu 0x24) (mkD 0#32 v))
        (setLatch 0 (euOff eu 0x28) (w32 e.dt) (setLatch 0 (euOff eu 0x2C) (w32 (e.dt / 0x100000000))
          (s.setUp eu { x with txts := rest }))))))

/-! ## The engines, the seam, checkpoints -/

/-- From the merger to the alignment buffers. A merger that may issue gives its next header the next sentence index, pins it
there, and hands it, under the bank of that index, to its engines, while the release verifier reads the record (R19, R215, R233,
R417). An engine that works takes the header at the front of its input, and pushes its decision into its alignment buffer, or
parks it where it needs a later byte (R158 to R161, R326); a parked decision that finds its bytes at a token goes on in the same
way. In Split a header with no entry for 2 µs restarts its engine (R350). Choices of the model it rests on: log entries 51, 118,
141. -/
def Obligations.HeadersDecided : Prop :=
  ∀ (s : State) (e : Fin 3),
    (∀ a h rest p s1 ws, mayIssue s e = true → (s.mrg e).q = .head a h none :: rest → s.cons.stitch = none → s.pin a = some p →
      readWords p.bob 6 p.pos (s.setMrg e { s.mrg e with q := rest }) = (s1, ws, [true, true, true, true, true, true]) →
      let i := (s1.mrg e).next
      let s2 := beforeIndex e i s1
      let s3 := (s2.setMrg e { s2.mrg e with next := i + 1 }).setPin a { p with idx := i, mrg := e }
      let s4 := stitchIssued (ingressRp p.bob (verifyRecord a (giveItem e (.head { h with idx := i, addr := a } (bankOf s3 e i)) s3)))
      exec (.headerIssue e) s = .next (settle s (flow (admUpdate e (mergeTokens e (s4.mrg e).q.length s4))))) ∧
    (engWorks s e = true → s.awake = true →
      (∀ ok hd bank rest,
        let u := pull e s
        let g := u.eng e
        g.inbox = .head hd bank :: rest → g.align.length < 64 →
        (∀ d dyn, engDecide u g hd bank hd.avail false = some (d, dyn) →
          exec (.decisionEntry e ok) s = .next (settle s (flow (mirrorTo e g.inbox.length
            (pushEntry e { hdr := hd, dec := d, bank := bank, parityOk := ok } (u.setEng e { g with inbox := rest, dyn := dyn })))))) ∧
        (engDecide u g hd bank hd.avail false = none →
          exec (.decisionEntry e ok) s = .next (settle s (flow (mirrorTo e g.inbox.length
            (u.setEng e { g with inbox := rest, parked := g.parked ++ [{ hdr := hd, bank := bank, words := hd.avail }] })))))) ∧
      (∀ ok a w f rest p d dyn,
        let u := pull e (mergeTokens (engMrg s e) (s.mrg (engMrg s e)).q.length s)
        let g := u.eng e
        g.inbox = .token a w f :: rest → g.align.length < 64 → g.parked.find? (fun x => x.hdr.addr = a) = some p →
        engDecide u g p.hdr p.bank w f = some (d, dyn) →
        exec (.parkedResume e ok) s = .next (settle s (flow (mirrorTo e g.inbox.length
          (pushEntry e { hdr := { p.hdr with avail := w, fin := f }, dec := d, bank := p.bank, parityOk := ok }
            (u.setEng e { g with inbox := rest, dyn := dyn, parked := g.parked.filter (fun q => q.hdr.idx ≠ p.hdr.idx) })))))) ∧
      (∀ hd bank rest, s.split = true → seamOpen s = true → restarting s e = false → (s.eng e).inbox = .head hd bank :: rest →
        exec (.splitEngineTimeout e) s = .next (settle s (startRestart 2 e s)))) ∧
    (∀ x u, (s.eng e).join = none → (s.eng e).owed = [] → u = count (ctEng e 0) 1 s →
      pushEntry e x s = u.setEng e { u.eng e with align := (u.eng e).align ++ [x] })

/-- The release of decisions (R14, R330, R331, R333, R350). With three good engines that vote (R338): three equal heads are
released together; where two agree the third is odd by MISMATCH and the decision is released; where none agree there is no
majority and the engines restart from the checkpoint. With two: equal heads are released and different ones restart the engines.
In Split an entry passes when its parity holds, and restarts its engine when not. A lone entry without the others for 2 µs makes
its engine odd by SKEW, and in duplex restarts the engines. Seams that disagree hold release for a round; at its end a seam that
fails its test is fenced, two that agree resume, and a fourth round or a failure without a good seam halts the device (R334, R335,
R346). Choices of the model it rests on: log entries 61, 124, 118, 154. -/
def Obligations.DecisionsReleased : Prop :=
  ∀ (s : State) (e : Fin 3), s.awake = true → seamOpen s = true →
    let good := ballot s
    let x := exec (.seamRelease e) s
    ((∀ i, (s.eng i).join = none) → good = goodEngs s 0) ∧
    (∀ a b c u v w, s.split = false → badHeads s = [] → 3 ≤ good.length → voters s = [(a, u), (b, v), (c, w)] →
      (agrees u v = true → agrees u w = true →
        x = .next (settle s (flow (release 0 u (count (ctSm 0) 1 (popHeads [a, b, c] s)))))) ∧
      (∀ l, agrees u v = true → laneDiff u w = some l →
        x = .next (settle s (flow (oddEngine c 0 l w.hdr.idx (release 0 u (count (ctSm 1) 1 (popHeads [a, b, c] s))))))) ∧
      (agrees u v = false → agrees u w = false → agrees v w = false → x = .next (settle s (flow (startRestart 0 0 s))))) ∧
    (∀ a b u v, s.split = false → badHeads s = [] → good.length < 3 → voters s = [(a, u), (b, v)] →
      (agrees u v = true → x = .next (settle s (flow (release 0 u (count (ctSm 2) 1 (popHeads [a, b] s)))))) ∧
      (agrees u v = false → x = .next (settle s (flow (startRestart 1 0 s))))) ∧
    (∀ u rest, s.split = true → restarting s e = false → (s.eng e).align = u :: rest →
      x = .next (settle s (flow (if u.parityOk then release e u (count (ctSm 3) 1 (popHeads [e.val] s)) else startRestart 2 e s)))) ∧
    (∀ a u, s.split = false → (goodEngs s 0).find? (fun i => decide ((s.eng i).owed ≠ [])) = none → badHeads s = [] → voters s = [(a, u)] →
      exec .entryLateTimer s = .next (settle s (flow (if good.length < 3 then startRestart 1 0 s else oddEngine a 1 0 u.hdr.idx s)))) ∧
    exec .seamDisagree s = .next (settle s (count (ctSm 5) 1 (raise 0x8020 16 { s with seam := { s.seam with dev := 1, round := 1 } }))) ∧
    (∀ t : State, t.awake = true → t.engRun = true → t.seam.dev = 1 → t.seam.sa = 0 → t.seam.sb = 0 →
      (∀ ag, exec (.seamRoundEnd false false ag) t = .next (settle t (flow (halt 5 t)))) ∧
      (∀ ag, exec (.seamRoundEnd false true ag) t = .next (settle t (flow (seamResume (fenceSeam 0 t))))) ∧
      (∀ ag, exec (.seamRoundEnd true false ag) t = .next (settle t (flow (seamResume (fenceSeam 1 t))))) ∧
      exec (.seamRoundEnd true true true) t = .next (settle t (flow (count (ctSm 6) 1 (raise 0x8020 64 (seamResume t))))) ∧
      (t.seam.round < 3 → exec (.seamRoundEnd true true false) t = .next (settle t (flow
        { t with seam := { t.seam with round := t.seam.round + 1 } }))) ∧
      (3 ≤ t.seam.round → exec (.seamRoundEnd true true false) t = .next (settle t (flow (halt 6 t)))))

/-- Faults of engines, and what mends them. A self-reported fault makes a good engine odd (3) and fails a copy to its target
(R336, R339); a scrub counts its pass, and for each block that differs the one engine that it differs in is odd (4), or, without a
majority or in duplex, the engines restart (R347); a parity error on the copy path fails the copy; a copy that ends gives the
target the donor's banks and state and fixes J (R338), and the target votes once the stream has drained. A test of one seam that
passes returns the seam with the other's history, and one that fails fences it (R349). A checkpoint is cut at the next header of
each merger (R342); one that is written badly is counted and given up, one without differing blocks commits, and with single
engines in the minority the writer's blocks come from the majority (R343). A restart that ends badly halts the device with its
reason (R346). An odd engine is fenced and copied afresh while three are good. Choices of the model it rests on: log entries 59,
60, 54, 18, 153, 155. -/
def Obligations.EnginesMended : Prop :=
  ∀ s : State, s.awake = true → s.engRun = true → s.seam.dev ≠ 3 →
    (∀ e : Fin 3, restarting s e = false → s.split = false →
      ((s.eng e).st = 0 → exec (.selfFault e) s = .next (settle s (oddEngine e 3 0 (nextIdx s 0) s))) ∧
      ((s.eng e).st = 2 → exec (.selfFault e) s = .next (settle s (resyncFail e s)))) ∧
    (∀ blocks, s.rf 0x8008 0 16 ≠ 0 → s.seam.restarting = 0 →
      exec (.scrub blocks) s = .next (settle s (forAll blocks scrubBlock
        (count (ctSm 15) 1 (s.setReg 0x8008 (setField (s.reg 0x8008) 16 16 (s.rf 0x8008 16 16 + 1))))))) ∧
    (∀ x : Nat × BitVec 3, s.split = false → s.seam.restarting = 0 →
      let odd := (goodEngs s 0).filter (nbit x.2.toNat)
      (odd = [] → scrubBlock x s = s) ∧
      (odd ≠ [] → (goodEngs s 0).length ≤ 2 → scrubBlock x s = startRestart 1 0 s) ∧
      (∀ e, odd = [e] → 3 ≤ (goodEngs s 0).length → scrubBlock x s = oddEngine e 4 0 (nextIdx s 0) s) ∧
      (2 ≤ odd.length → 3 ≤ (goodEngs s 0).length → scrubBlock x s = startRestart 0 0 s)) ∧
    (∀ t d, [0, 1, 2].find? (fun e => decide ((s.eng e).st = 2)) = some t → lowestGood s = some d →
      exec .copyPathParity s = .next (settle s (resyncFail t s)) ∧
      ((s.eng t).copied = false →
        exec .resyncCopyComplete s = .next (settle s (s.setEng t { s.eng t with
          bank0 := (s.eng d).bank0, bank1 := (s.eng d).bank1, dyn := (s.eng d).dyn, parked := (s.eng d).parked, inbox := [],
          align := [], owed := [], copied := true, join := some (nextIdx s 0) }))) ∧
      ((s.eng t).copied = true → seamOpen s = true → (s.eng d).inbox.length ≤ (s.eng t).inbox.length →
        exec .resyncJoin s = .next (settle s (raise 0x8020 2 (s.setEng t { s.eng t with st := 0, copied := false }))))) ∧
    (s.seam.test = [0] → s.seam.sa = 1 → s.seam.readmit = false →
      let res := s.seam.testRes + 1
      let ends := fun (v : Nat) (u : State) => doneCmd s.seam.testCmd 0 (w32 v) 0#32 (raise 0x8020 0x800
        { u with seam := { u.seam with test := [], readmit := false } })
      exec (.seamTestEnd true) s = .next (settle s (ends (res + 2)
        { s with seam := { s.seam with testRes := res + 2, histA := s.seam.histB, sa := 0 } })) ∧
      exec (.seamTestEnd false) s = .next (settle s (ends res (fenceSeam 0 { s with seam := { s.seam with testRes := res } })))) ∧
    exec .checkpointCut s = .next (settle s (forAll (mergers s) (fun m s => cutSoon m (s.mrg m).next s) s)) ∧
    (∀ m i, mrgFresh s m = true → restarting s m = false → goodEngs s m ≠ [] → cutSoon m i s = cutAt m s) ∧
    (∀ m c blocks, let u := forAll [0, 1, 2] (fun e s => whenDo (engWorks s e) (pull e) s) s
      cutReady u = some (m, c) →
      let good := goodEngs u m
      let odd := fun (x : Nat × BitVec 3) => good.filter (nbit x.2.toNat)
      let w := (good.find? (fun e => (u.eng e).snap.isSome)).getD 0
      exec (.checkpointCommit false blocks) s = .next (settle s (raise 0xE040 2 (count (ctSm 14) 1 (raise 0x8020 0x400
        (forAll (mrgEngs u m) (modEng · (fun g => { g with snap := none })) { u with cuts := mapDel u.cuts m }))))) ∧
      ((∀ x ∈ blocks, odd x = []) → exec (.checkpointCommit true blocks) s = .next (settle s (commitCut m c u))) ∧
      ((∃ x ∈ blocks, odd x ≠ []) → u.split = false → good.length ≤ 2 →
        exec (.checkpointCommit true blocks) s = .next (settle s (startRestart 1 0 u))) ∧
      ((∃ x ∈ blocks, odd x ≠ []) → (∀ x ∈ blocks, (odd x).length < 2) → u.split = false → 3 ≤ good.length →
        exec (.checkpointCommit true blocks) s = .next (settle s
          (whenDo (blocks.any (fun x => decide (odd x = [w]))) (oddEngine w 5 0 c.idx) (commitCut m c (mixSnap w good blocks u)))))) ∧
    (∀ ck, s.seam.restarting ≠ 0 → s.split = false → mapFind s.ckpts 0 = some ck →
      (∀ blocks, let lost := blocks.any (fun x => (liveEngs s).all (nbit x.2.toNat))
      (∀ a b, lost = true → exec (.restartComplete a blocks b) s = .next (settle s (flow (halt 4 s)))) ∧
      (∀ b, lost = false → exec (.restartComplete false blocks b) s = .next (settle s (flow (halt 3 (raise 0xE040 2 s))))) ∧
      (lost = false → exec (.restartComplete true blocks false) s = .next (settle s (flow (halt 2 s)))) ∧
      (lost = false → s.cons.stitch = none → s.seam.restarting = 7 → s.seam.dev = 2 →
        let u := restartMerger 0 blocks ck s
        let v := u.setReg 0x8034 (setField (u.reg 0x8034) 8 24 (min (mapGet (dflt []) s.log 0).length 16777215))
        u.cons.stitch = none → u.seam = s.seam →
        exec (.restartComplete true blocks true) s = .next (settle s (flow { v with seam := { s.seam with restarting := 0, dev := 0 } }))))) ∧
    (∀ e lane idx, 3 ≤ (goodEngs s 0).length → (s.eng e).join = none →
      oddEngine e 0 lane idx s = resyncStart (modEng e (fun g => { g with tries := 0 }) (fence e (reportOdd e 0 lane idx s))))

/-! ## Routing, the store, cells, staged configuration -/

/-- Fan-out, derivation, held releases and sentence boundaries. The derivation unit builds the record of the first decision in
release order that waits for one, then the decision's references are placed (R172, R189); a content that overflows its template is
counted and builds nothing (R173, R186), and an original whose unit ended badly has its deliveries withdrawn (R109). The first due
hold with its record ready leaves the pool, is counted, and places its references (R94, R98); one whose record is still to be
built is marked as fired. At a boundary an egress point that may start a sentence takes the head that R196 chooses: P0 before P1
before the others, of each of the two the lowest sentence index. Choices of the model it rests on: log entries 116, 118, 147. -/
def Obligations.SentencesPlaced : Prop :=
  ∀ s : State, s.awake = true →
    (∀ j, nextDerive s s.fan = some j → j.later = false →
      let b := buildDerived j.mrg j.ent { s with fan := s.fan.erase j }
      exec .derivedRecordBuild s = .next (settle s (flow (fanRun (finishJob j b.2 b.1))))) ∧
    (∀ m e, ((s.pin e.hdr.addr).map (·.bad)).getD false = true → buildDerived m e s = (withdrawSet e s, none)) ∧
    (∀ m e s1 c, ((s.pin e.hdr.addr).map (·.bad)).getD false = false → checkRecord 2 0 e.hdr.addr s = (s1, c) → deriveRecord s1 e c = none →
      buildDerived m e s = ((raise 0x8180 1 (count (ctXc 6) 1 s1)).setReg 0x8188 (w32 (6 * 0x400 + 0x2000)), none)) ∧
    (∀ h rest, stitchFirstDue s = false → fitFirstDue s = false → heldDue s = h :: rest →
      let tk := pinTalker s h.orig
      let u := count (ctHold (if h.stepped then 5 else 0)) 1 (countTalker tk.1 tk.2 7 1 s)
      (h.need = false → exec .heldRelease s = .next (settle s (flow (placeHeld h (dropHeld h u))))) ∧
      (h.need = true → exec .heldRelease s = .next (settle s (flow
        { u with tape := { u.tape with held := u.tape.held.map (fun y =>
            if y.mrg = h.mrg ∧ y.idx = h.idx then { y with fired := true } else y) } })))) ∧
    (∀ (ep : Fin 76) c v, let u := serviceBoundary ep s
      epReady u ep = true → choose (egRefresh ep u) ep = (some c, v) →
      exec (.sentenceBoundary ep) s = .next (settle s (flow (startAt ep c.lq c.bob v)))) ∧
    (∀ (ep : Nat) c, lowestIdx s 0 (candidates s ep) = some c → choose s ep = (some c, s)) ∧
    (∀ (ep : Nat) c, lowestIdx s 0 (candidates s ep) = none → lowestIdx s 1 (candidates s ep) = some c → choose s ep = (some c, s)) ∧
    (∀ (cls : Nat) (l : List Cand) c, lowestIdx s cls l = some c →
      c.ref.cls = cls ∧ c ∈ l ∧ ∀ d ∈ l, d.ref.cls = cls → refIdx s c.ref ≤ refIdx s d.ref)

/-- Bobbins and the store. A notch with a lease unit lapses: it is cleared, LAPSED is set, the space up to the oldest pin is
released, and it is counted and raised (R229, R235). FLUSH of a class L bobbin is refused; of a class S bobbin that is no lane it
moves RP to WP and counts the words lost (R226, R227). The scan reads on in ascending order, a word as it stands or upset, and
round the end of the store with its pass counted: a word with good parity stays; one with bad parity is counted for its bobbin and
raised, and is zeroed where it is not live (R239, R240). A record pinned by references that nobody can name any more is unpinned
(R238). Choices of the model it rests on: log entries 111, 110, 118, 160. -/
def Obligations.StoreKept : Prop :=
  ∀ s : State, s.awake = true →
    (∀ (b : Fin 512), let v := s.bob b
      v.notch.isSome = true → classL s b = true → (field v.lease 16 2 = 1 ∨ field v.lease 16 2 = 2) →
      exec (.leaseLapse b) s = .next (settle s (flow (raise 0x8F00 2 (count (ctBb b 2) 1
        (s.setBob b { v with notch := none, lapsed := true, lp := max v.lp (min v.rp ((oldestPin b s.pins).getD v.rp)) })))))) ∧
    (∀ (a : Fin 3) (b : Fin 512), let o := 0x900C + 0x10 * b.val
      let u := agentPre a s
      let v := s.bob b
      agentMayWrite a s o 1#32 = true →
      (classL s b = true → exec (.flush a b) s = .next (settle s (flow (agentDone a o s (raise 0x8F00 0x10 u))))) ∧
      (classL s b = false → mapFind s.laneLq b = none → v.rp < v.wp →
        exec (.flush a b) s = .next (settle s (flow (agentDone a o s
          (raise 0x8F00 8 (count (ctBb b 2) (v.wp - v.rp) (u.setBob b { v with rp := v.wp, lp := v.wp })))))))) ∧
    (∀ (addr : Fin 2097152) (up : Option (Fin 33)), let top := if s.pw.store4 then 0x100000 else 0x200000
      let u := match up with
        | some i => { s with store := mapSet (dflt 0#33) s.store addr (s.word addr ^^^ BitVec.ofNat 33 (2 ^ i.val)) }
        | none => s
      s.rb 0x8F10 0 = true → s.scan < top → addr.val + 1 < top →
      let x := exec (.backgroundScanRead addr up) s
      (s.scan ≤ addr → x = .next (settle s { scanSpan s.scan addr u with scan := addr + 1 })) ∧
      (addr < s.scan → x = .next (settle s { scanSpan 0 addr (scanPass (scanSpan s.scan (top - 1) u)) with scan := addr + 1 })) ∧
      (s.scan = addr → storeWf s = true →
        (parityOk (u.word addr) = true → x = .next (settle s { u with scan := addr + 1 })) ∧
        (∀ b, parityOk (u.word addr) = false → bobOfAddr u addr 512 = some b →
          let r := (raise 0x8F20 2 (count (ctBb b 3) 1 u)).setReg 0x8F14 (w32 (addr + b2n (wordLive u b addr) * 0x200000))
          x = .next (settle s { (if wordLive u b addr then r else r.setWord addr 0#32) with scan := addr + 1 })))) ∧
    (∀ (addr : Fin 2097152) p, s.pin addr = some p → p.complete = true → p.holds = 0 → p.wait = 0 → p.refs ≠ 0 →
      exec (.pinAged addr) s = .next (settle s (flow (raise 0x8F00 0x20 (unpinCheck addr (s.setPin addr { p with refs := 0 }))))))

/-- Rate cells (R178 to R182): a cell falls due at its instant, keeps that instant until the emitter takes it, and counts a
further one as taken in; the emitter takes the cell with the earliest instant, forms nothing where a required slot is unwritten or
a stale slot is to be dropped, counting it, and otherwise makes a record of the cell's talker with the values, the due instant as
its stamp, and the template's content. Choices of the model it rests on: log entries 116, 108, 118, 109. -/
def Obligations.CellsRun : Prop :=
  ∀ (s : State) (c : Fin 1024), s.awake = true →
    let im := cellImg s c
    let x := s.cell c
    (∀ d, stitchFirstDue s = false → fitFirstDue s = false → heldDue s = [] → cellFalls s c = some d →
      let y := { x with last := some d.2, pendChg := false, news := 0, since := s.now, lastAddr := none,
                        nextDt := x.nextDt.map (fun n => n + 1000 * (wordAt im 1).toNat) }
      (x.due = none → exec (.cellDue c) s = .next (settle s (s.setCell c { y with due := some d }))) ∧
      (∀ e, x.due = some e → exec (.cellDue c) s = .next (settle s
        ((raise 0x8180 8 (count (ctXc 3) 1 (s.setCell c y))).setReg 0x8188 (w32 (c + 3 * 0x400)))))) ∧
    (∀ d, cellEn s c = true → cellTrig s c = 0 → x.nextDt = some d →
      cellFalls s c = if d ≤ s.dt then some (d, s.now - (s.dt - d) * 1000) else none) ∧
    (∀ dt el rest, dueCells s = (c.val, dt, el) :: rest →
      let u := s.setCell c { x with due := none, lastAddr := none }
      let t := 0x400 + c.val
      let q := u.seqOf t
      let ti := img (devBank u) 8 (field (wordAt im 0) 9 9)
      let body := runTemplate ti { vals := (List.range 4).map (fun i => if (x.slot i).wr then some (x.slot i).val else none), bind := mkH1 t q }
      let pay := wordBytes (w32 (field (wordAt ti 0) 0 8)) ++ wordBytes (wordAt ti 1) ++ body
      ((reqSlots im).any (fun i => !(x.slot i).wr) = true →
        exec .cellEmission s = .next (settle s (flow (cellNone c 2 2 u)))) ∧
      (∀ i, reqSlots im = [i] → (x.slot i).wr = true → slotStale im dt (x.slot i) = true → bit (wordAt im 0) 3 = true →
        exec .cellEmission s = .next (settle s (flow (cellNone c 1 2 u)))) ∧
      (∀ i s1, reqSlots im = [i] → (x.slot i).wr = true → slotStale im dt (x.slot i) = false → ti ≠ [] → body.length ≤ 2040 →
        s.now ≤ el + 1000000 →
        addRecord [mkH0 0x40 (field (wordAt im 0) 6 3) false false false (8 + body.length), mkH1 t q, w32 dt, w32 (dt / 0x100000000),
          h4At u (field (wordAt im 0) 4 2) el, w32 (c + field (wordAt im 0) 9 9 * 0x400)] pay { hits := hitsAt u el } u = (s1, .recorded) →
        exec .cellEmission s = .next (settle s (flow (count (2144 + 1024 + c) 1 ((s1.setSeq t (q + 1)).setCell c
          { s1.cell c with vals := some ((List.range 4).map (fun i => if (x.slot i).wr then some (x.slot i).val else none)),
                           lastAddr := some (mkH1 t q).toNat }))))))

/-- The stitch, the re-baste and fittings. A stitch that is free and due takes effect at the next index of each merger (R416): the
banks change places, no stitch is pending, a re-baste is owed and the stitch is counted (R412, R413, R417). The re-baste copies
the live bank into the staging bank, and its end is raised and lets waiting LOAD_TABLEs go (R413). A fitting is captured at its
target into its shadow bank with the next fitting number (R422, R425), and its record, once written to the host, frees the bank
and completes the command (R426, R427). Choices of the model it rests on: log entries 51, 53, 55, 56. -/
def Obligations.StagedChanges : Prop :=
  ∀ s : State, s.awake = true →
    (stitchFree s = true → stitchDue s = true →
      exec .stitchTakesEffect s = .next (settle s (flow
        (stitchAt (fun m => if restarting s m then afterReleased s m else nextIdx s m) s)))) ∧
    (∀ f, s.cons.stitch.isSome = true →
      (stitchAt f s).cons.liveBank = 1 - s.cons.liveBank ∧ (stitchAt f s).cons.stitch = none ∧ (stitchAt f s).cons.rebaste = true ∧
        (stitchAt f s).cons.seq = s.cons.seq + 1#32 ∧ (stitchAt f s).cons.sDt = s.dt ∧ (stitchAt f s).cons.sIdx = f 0) ∧
    (s.cons.rebaste = true → s.cons.rebasteGo = true → s.cons.rebasteRun = false → oldBankWork s = false →
      exec .rebaste s = .next (settle s (modCons (fun c => { c with rebasteRun := true }) (setBanks (stagingBank s) (devBank s) s)))) ∧
    (s.cons.rebasteRun = true →
      let u := raise 0xD030 4 { s with cons := { s.cons with rebaste := false, rebasteGo := false, rebasteRun := false } }
      exec .rebasteDone s = .next (settle s (loadsGo s.cmds u))) ∧
    (∀ (second : Bool) f rest, s.cons.fits.drop (if second then 1 else 0) = f :: rest → stitchFirstDue s = false → fitDue s f = true →
      s.seam.restarting = 0 → f.status = 0 →
      exec (.fittingCapture second) s = .next (settle s { s with cons := { s.cons with
        shadow := mapIns s.cons.shadow f.bank (fitRecord s f), fitSeq := s.cons.fitSeq + 1#32,
        fits := s.cons.fits.map (fun x => if x.bank = f.bank then { x with captured := true, captureDt := s.dt } else x) } })) ∧
    (∀ (bank : Bool) f r, let b := if bank then 1 else 0
      s.cons.fits.find? (fun f => decide (f.bank = b)) = some f → mapFind s.cons.shadow b = some r → f.captured = true → s.hostUp = true →
      exec (.fittingRecordWritten bank) s = .next (settle s (doneCmd f.cmd f.status (w32 f.captureDt) (w32 (f.captureDt / 0x100000000))
        (raise 0xD030 2 (hostWrites f.addr r { s with cons := { s.cons with
          fits := s.cons.fits.filter (fun x => x.bank ≠ b), shadow := mapDel s.cons.shadow b } })))))

/-! ## The tape unit and the check units -/

/-- Device time, the servo and PPS (R70 to R77). A write of TP_STEP_HI steps DT by the signed pair and makes it valid; a write of
TP_FREQ takes the correction, saturated with its cause, and is ignored under a servo source; DT_VALID_SET makes DT valid; a new
source sends the servo to ACQUIRE, and none to FREE; a TP_OFFS sample of an AS source and an edge of PPS_IN, which is captured, go
to the servo, which leaves LOCKED and HOLD as R76 says; without a sample the servo holds. PPS_OUT is driven at its instant and
returns after its width. Choices of the model it rests on: log entries 13, 115, 20. -/
def Obligations.ClockKept : Prop :=
  ∀ (s : State) (a : Fin 3) (v : Word),
    let u := agentPre a s
    (agentMayWrite a s 0x301C v = true →
      exec (.tpStep a v) s = .next (settle s (agentDone a 0x301C s
        (modTape (fun t => { t with dtValid := true }) (stepDt (signed 64 (mkD v (s.reg 0x3018)).toNat) u))))) ∧
    (∀ d : Int, (stepDt d s).tape.ofs = s.tape.ofs + d ∧ (stepDt d s).tape.clk = s.tape.clk ∧ (stepDt d s).rb 0x3040 20 = true ∧
      (stepDt d s).tape.chans = s.tape.chans ∧ (stepDt d s).store = s.store ∧ (stepDt d s).engs = s.engs) ∧
    (agentMayWrite a s 0x3010 v = true →
      (s.rf 0x3020 0 2 = 0 → exec (.tpFreqWrite a v) s = .next (settle s (agentDone a 0x3010 s (setFreq v u)))) ∧
      (s.rf 0x3020 0 2 ≠ 0 → exec (.tpFreqWrite a v) s = .next (settle s (agentDone a 0x3010 s u)))) ∧
    (-0x20C49BA5 ≤ sInt v → sInt v ≤ 0x20C49BA5 → setFreq v s = { s with tape := { s.tape with freq := v } }) ∧
    (0x20C49BA5 < sInt v → setFreq v s = { raise 0x3040 0x80000 s with tape := { s.tape with freq := 0x20C49BA5#32 } }) ∧
    (sInt v < -0x20C49BA5 → setFreq v s = { raise 0x3040 0x80000 s with tape := { s.tape with freq := 0xDF3B645B#32 } }) ∧
    (agentMayWrite a s 0x3000 1#32 = true →
      exec (.dtValidSet a) s = .next (settle s (agentDone a 0x3000 s { u with tape := { s.tape with dtValid := true } }))) ∧
    (agentMayWrite a s 0x3020 v = true →
      let r := u.setReg 0x3020 (v &&& 0xFFFF#32)
      exec (.discSourceWrite a v) s = .next (settle s (agentDone a 0x3020 s
        (if field v 0 2 = 0 then servoTo 0 r else if field v 0 2 ≠ s.rf 0x3020 0 2 then servoTo 1 r else r)))) ∧
    (agentMayWrite a s 0x3024 v = true →
      exec (.tpOffsSample a v) s = .next (settle s (agentDone a 0x3024 s (if 2 ≤ s.rf 0x3020 0 2 then servoSample (sInt v) u else u)))) ∧
    (∀ off : Int,
      (s.tape.servo = 2 → 2 ^ (s.rf 0x3020 5 3) * 1000 < off.natAbs →
        servoSample off s = { raise 0x3040 0x40000 s with tape := { s.tape with servo := 1, lockCnt := 0 } }) ∧
      (s.tape.servo = 3 → servoSample off s = { s with tape := { s.tape with servo := 1, lockCnt := 0 } }) ∧
      (s.tape.servo = 1 → 2 ^ (s.rf 0x3020 5 3) * 1000 < off.natAbs → 2 ^ (s.rf 0x3020 8 4) < off.natAbs →
        servoSample off s = modTape (fun t => { t with lockCnt := 0 }) (stepDt (-off) s))) ∧
    (s.awake = true →
      (∀ age, s.rf 0x3020 0 2 ≠ 1 → let c := capture s (age + trimPs s 124) 25 0 false
        exec (.ppsInEdge age) s = .next (settle s ((s.setReg 0x3028 (w32 c.dt)).setReg 0x302C (w32 (c.dt / 0x100000000))))) ∧
      (s.rf 0x3020 0 2 = 1 → s.tape.servo = 2 →
        exec .servoHold s = .next (settle s
          (raise 0x3040 0x10000 (raise 0x3040 0x40000 (raise 0x3040 0x40000 { s with tape := { s.tape with servo := 3, lockCnt := 0 } }))))) ∧
      (∀ d, s.tape.ppsNext = some d → d ≤ s.dt → s.rb 0x3030 0 = true →
        exec .ppsOutEdge s = .next (settle s (emit (.pin 4 (!s.rb 0x3030 1))
          { s with tape := { s.tape with ppsActive := true, ppsNext := some (d + 1000000000) } }))) ∧
      (s.tape.ppsActive = true →
        exec .ppsOutPulseEnd s = .next (settle s (emit (.pin 4 (s.rb 0x3030 1)) { s with tape := { s.tape with ppsActive := false } }))))

/-- Phase channels (R79 to R88). A zero crossing whose interval is not blanked, and an EXT sample later than the last, whose cycle
count is the nearest that ends in its low 8 bits (R87), are reference events: from LOST the channel acquires; in ACQUIRE an
interval out of range is an INPUT_ERR and starts over, and the sixteenth good one reaches TRACK; in TRACK the loop goes on; in
HOLDOVER a small phase error returns to TRACK. An illegal transition of QE is an INPUT_ERR. Without events TRACK becomes HOLDOVER
at the same rate, and HOLDOVER or ACQUIRE becomes LOST. QE_STILL stops the loop at the counted position. A write of TP_PRn_CFG
that keeps the mode changes the register alone, and one that changes it in TRACK passes through LOST. An EXT sample not later than
the last is an INPUT_ERR. Choices of the model it rests on: log entries 12, 114, 20, 148, 149. -/
def Obligations.PhaseChannels : Prop :=
  ∀ (s : State) (ch : Fin 4),
    let c := s.chan ch
    let cfg := s.reg (prOff ch 0)
    let inErr := fun (t : State) => raise 0x3040 (2 ^ (12 + ch.val)) t
    (∀ (v : State) (e : RefEv), prMode (v.reg (prOff ch 0)) ≠ 2 →
      let d := v.chan ch
      let here := chanPos d e.te
      let dir : Int := if e.step < 0 then -1 else 1
      let u := v.setChan ch (evSettings v ch d)
      let err := fun (b : Nat) => decide (e.pos.any (fun p => decide ((phaseErr here p).natAbs < b)) = true)
      (chanSt d = 4 → (chanEvent ch false e v).1 =
        enterAcquire ch ((here + turn) / turn * turn + prOfs (v.reg (prOff ch 8))) e.te dir true u) ∧
      (chanSt d = 1 → e.bad = true →
        let w := enterAcquire ch (e.pos.getD here) e.te dir true (inErr u)
        (chanEvent ch false e v).1 = carriedPast ch (chanPos d v.now) (chanPos (w.chan ch) v.now) w) ∧
      (chanSt d = 1 → e.bad = false →
        let g := if err 0x400000000000000 then d.good + 1 else 0
        (chanEvent ch false e v).1 =
          if 16 ≤ g then raise 0x3040 (2 ^ (8 + ch.val)) (loopOn ch 2 g e v) else loopOn ch 1 g e v) ∧
      (chanSt d = 2 → (chanEvent ch false e v).1 = loopOn ch 2 d.good e v) ∧
      (chanSt d = 3 → err 0x2000000000000000 = true →
        (chanEvent ch false e v).1 = raise 0x3040 (2 ^ (8 + ch.val)) (loopOn ch 2 d.good e v))) ∧
    (s.awake = true →
      (∀ (b : Bool) age, prMode cfg = 1 → field c.cfg 16 2 = 0 → chanSt c ≠ 0 →
        let te := s.now - (age + trimPs s (112 + 3 * ch.val))
        let e : RefEv := { te := te, pos := some (evPos c te (prOfs (s.reg (prOff ch 8))) turn), step := turn, iv := c.lastEv.map (te - ·),
                           bad := (c.lastEv.map (te - ·)).any (fun i => outside i (1000 * (s.reg (prOff ch 4)).toNat)) }
        exec (.referenceEvent ch (if b then 4 else 0) age) s = .next (settle s (chanEvent ch false e s).1)) ∧
      (∀ age, prMode cfg = 2 → chanSt c ≠ 0 → exec (.referenceEvent ch 3 age) s = .next (settle s (inErr s))) ∧
      (chanSt c = 2 → ¬ (prMode cfg = 2 ∧ bit cfg 7 = true) →
        exec (.holdover ch) s = .next (settle s (raise 0x3040 (2 ^ ch.val) (s.setChan ch
          (c.push { c.segs.head?.getD {} with t := s.now, st := 3, pos := chanPos c s.now }))))) ∧
      ((chanSt c = 1 ∨ chanSt c = 3) →
        exec (.lost ch) s = .next (settle s (raise 0x3040 (2 ^ (4 + ch.val)) (enterLost ch 4 s)))) ∧
      (chanSt c = 2 → prMode cfg = 2 → bit cfg 7 = true →
        exec (.qeStillStop ch) s = .next (settle s (s.setChan ch
          { (c.push { t := s.now, st := 2, pos := qePos s ch c.ofs c.qcnt, rate := 0 }) with freq := 0 })))) ∧
    (∀ (a : Fin 3) (v : Word), agentMayWrite a s (prOff ch 0) v = true →
      let new := v &&& 0x0FFFFFFF#32
      let u := (agentPre a s).setReg (prOff ch 0) new
      (prMode new = prMode cfg → field new 3 1 = field cfg 3 1 → field new 26 2 = field cfg 26 2 →
        exec (.phaseChannelCfgWrite a ch false v) s = .next (settle s (agentDone a (prOff ch 0) s u))) ∧
      (prMode new ≠ prMode cfg → prMode new ≠ 0 → chanSt c = 2 →
        exec (.phaseChannelCfgWrite a ch false v) s = .next (settle s (agentDone a (prOff ch 0) s
          (chanStart ch (raise 0x3040 (2 ^ (4 + ch.val)) (enterLost ch 4 u))))))) ∧
    (∀ v : State, prMode (v.reg (prOff ch 0)) ≠ 2 →
      let here := chanPos (v.chan ch) v.now
      chanStart ch v = enterAcquire ch here v.now 1 false (v.setChan ch
        { (evSettings v ch (v.chan ch)) with qcnt := here / turn * Int.ofNat (prCpr v ch), extDt := none })) ∧
    (∀ (a : Fin 3) (v : Word), agentMayWrite a s (prOff ch 0x1C) v = true → prMode cfg = 4 → chanSt c ≠ 0 →
      let d := (mkD (s.reg (prOff ch 0x24)) (s.reg (prOff ch 0x20))).toNat
      let u := agentPre a s
      let x := exec (.extSampleWrite a ch v) s
      let ends := fun (t : State) => (.next (settle s (agentDone a (prOff ch 0x1C) s t)) : Host.Outcome State Fault Refusal)
      let te := ((Int.ofNat d - s.tape.ofs) * 1000).toNat
      let own := chanPos c te / turn
      let pos := (own + signed 8 (unsigned 8 (Int.ofNat (field v 24 8) - own))) * turn + Int.ofNat (field v 0 24) * 0x10000000000
      let e : RefEv := { te := te, pos := some pos, step := (c.base.map (pos - ·)).getD turn, iv := c.lastEv.map (te - ·),
                         bad := (c.lastEv.map (te - ·)).any (fun i => outside i (1000 * (s.reg (prOff ch 4)).toNat)) }
      (c.extDt = none ∨ (∃ l, c.extDt = some l ∧ l < d) →
        x = ends (chanEvent ch false e (u.setChan ch { c with extDt := some d })).1) ∧
      (∀ l, c.extDt = some l → d ≤ l → x = ends (inErr u)))

/-- Strobes (R100, R101): a write with the strobe disabled drops its next edge; a write of WIDTH of an enabled strobe changes that
register alone; an edge of a DT_PERIOD strobe starts a pulse and moves the next edge on by the period, one of DT_ONESHOT clears
EN, and a pulse that is still active restarts with its cause; after its width the pulse ends. Choices of the model it rests on:
log entries 115, 116. -/
def Obligations.StrobesFire : Prop :=
  ∀ (s : State) (po : Fin 4),
    let cfg := poOff po 0
    let v := s.strobe po
    (∀ (a : Fin 3) (w : Word), agentMayWrite a s cfg w = true → bit w 0 = false →
      exec (.strobeWrite a po 0 w) s = .next (settle s (agentDone a cfg s
        (((agentPre a s).setReg cfg (w &&& 0xFF7F#32)).setStrobe po { v with next := none })))) ∧
    (∀ (a : Fin 3) (w : Word), agentMayWrite a s (poOff po 8) w = true → s.rb cfg 0 = true →
      exec (.strobeWrite a po 2 w) s = .next (settle s (agentDone a (poOff po 8) s
        ((agentPre a s).setReg (poOff po 8) (w &&& 0xFFFFFF#32))))) ∧
    (∀ d, s.awake = true → timedFirst s = false → s.rb cfg 0 = true → v.next = some d → d ≤ s.dt →
      let p := (s.reg (poOff po 0x0C)).toNat
      (poMode s po = 1 → p ≠ 0 → v.active = false →
        exec (.strobeEdge po) s = .next (settle s
          ((emit (.pin po (!s.rb cfg 5)) ((s.setStrobe po { v with next := some (d + p) }).setStrobe po
            { v with next := some (d + p), active := true }))))) ∧
      (poMode s po = 2 → v.active = true →
        exec (.strobeEdge po) s = .next (settle s
          (touch cfg 1 (((emit (.pin po (!s.rb cfg 5)) ((raise 0x3040 0x800000 s).setStrobe po { v with active := true })).setReg cfg
            (setField (s.reg cfg) 0 1 0)).setStrobe po { v with active := true, next := none }))))) ∧
    (s.awake = true → v.active = true →
      exec (.strobePulseEnd po) s = .next (settle s (emit (.pin po (s.rb cfg 5)) (s.setStrobe po { v with active := false }))))

/-- The check units (R306 to R313, R322). START sets the running value from the check's start, with the bound word folded in under
BIND; a data write folds its bytes; FINISH forms the result, and under CMP_EN notes a match or counts and raises a mismatch; CLEAR
empties the context; a write that needs STARTED without it is refused and counted; SELFTEST is BUSY with a context started, else
the unit tests itself, and its end gives PASS or FAIL; a write of CK_CFG replaces the configuration, and opened mode or an opened
parameter is refused outside boot (R314); a write of CK_RUN_LO restores a running value with STARTED set. -/
def Obligations.CheckUnits : Prop :=
  ∀ (s : State) (a : Fin 3) (cu : Fin 16), (s.cu cu).testing = false →
    let u := agentPre a s
    let c := s.ctx cu
    let cmd := cuOff cu 0x40
    let ends := fun (o : Nat) (t : State) => (.next (settle s (agentDone a o s t)) : Host.Outcome State Fault Refusal)
    let refused := raise (cuOff cu 0x50) 2 (count (ctCk (3 * cu + 2)) 1 u)
    let rejected := raise (cuOff cu 0x50) 4 (count (ctCk 59) 1 (count (ctCk (3 * cu + 2)) 1 u))
    (agentMayWrite a s cmd 1#32 = true → exec (.ckStart a cu) s = ends cmd (u.setCtx cu
      { c with run := BitVec.ofNat 64 (if bit c.cfg 4 then c.fold c.start (wordBytes c.bind) else c.start), started := true,
               valid := false, bytes := 0 })) ∧
    (agentMayWrite a s cmd 2#32 = true →
      let r := c.final c.run.toNat
      let t := count (ctCk (3 * cu)) 1 (u.setCtx cu { c with res := BitVec.ofNat 64 r, valid := true, started := false })
      (c.started = false → exec (.ckFinish a cu) s = ends cmd refused) ∧
      (c.started = true → bit c.cfg 5 = false → exec (.ckFinish a cu) s = ends cmd t) ∧
      (c.started = true → bit c.cfg 5 = true → r = maskW c.width c.exp.toNat →
        exec (.ckFinish a cu) s = ends cmd (t.setCu cu { s.cu cu with isMatch := true })) ∧
      (c.started = true → bit c.cfg 5 = true → r ≠ maskW c.width c.exp.toNat →
        exec (.ckFinish a cu) s = ends cmd (raise (cuOff cu 0x50) 1 (count (ctCk (3 * cu + 1)) 1
          (t.setCu cu { s.cu cu with isMatch := false, misCtx := cuSel s cu }))))) ∧
    (agentMayWrite a s cmd 8#32 = true → exec (.ckClear a cu) s = ends cmd (u.setCtx cu {})) ∧
    (agentMayWrite a s cmd 4#32 = true →
      ((∃ i, i < 16 ∧ (mapGet (dflt ({} : CkCtx)) s.cuCtx (16 * cu + i)).started = true) →
        exec (.selftest a cu) s = ends cmd (count (ctCk 62) 1 (u.setCu cu { s.cu cu with result := 3 }))) ∧
      ((∀ i, i < 16 → (mapGet (dflt ({} : CkCtx)) s.cuCtx (16 * cu + i)).started = false) →
        exec (.selftest a cu) s = ends cmd (u.setCu cu { s.cu cu with testing := true }))) ∧
    (∀ t : State, t.awake = true → (t.cu cu).testing = true →
      exec (.selftestDone cu true) t = .next (settle t (raise (cuOff cu 0x50) 8 (count (ctCk 60) 1
        (t.setCu cu { t.cu cu with testing := false, result := 1 })))) ∧
      exec (.selftestDone cu false) t = .next (settle t (raise (cuOff cu 0x50) 0x10 (count (ctCk 61) 1
        (raise (cuOff cu 0x50) 8 (count (ctCk 60) 1 (t.setCu cu { t.cu cu with testing := false, result := 2 }))))))) ∧
    (∀ (w : Fin 3) (v : Word), agentMayWrite a s (cuOff cu (0x34 + 4 * w)) v = true →
      let k := 2 ^ w.val
      (c.started = true → exec (.ckDataWrite a cu w v) s = ends (cuOff cu (0x34 + 4 * w)) (u.setCtx cu
        { c with run := BitVec.ofNat 64 (c.fold c.run.toNat ((wordBytes v).take k)), bytes := min 65535 (c.bytes + k) })) ∧
      (c.started = false → exec (.ckDataWrite a cu w v) s = ends (cuOff cu (0x34 + 4 * w)) refused)) ∧
    (∀ v : Word, agentMayWrite a s (cuOff cu 4) v = true →
      (bit v 0 = false ∨ openOk s = true → exec (.ckCfgWrite a cu v) s = ends (cuOff cu 4) (u.setCtx cu
        { c with cfg := v &&& 0x3FFF#32, started := false, valid := false })) ∧
      (bit v 0 = true → openOk s = false → exec (.ckCfgWrite a cu v) s = ends (cuOff cu 4) rejected)) ∧
    (∀ (w : Fin 6) (v : Word), let o := cuOff cu (8 + 4 * w)
      agentMayWrite a s o v = true →
      (openOk s = false → exec (.ckOpenParamWrite a cu w v) s = ends o rejected) ∧
      (openOk s = true → w.val = 0 →
        exec (.ckOpenParamWrite a cu w v) s = ends o (u.setCtx cu { c with poly := mkD (hiW c.poly) v })) ∧
      (openOk s = true → w.val = 3 →
        exec (.ckOpenParamWrite a cu w v) s = ends o (u.setCtx cu { c with init := mkD v (loW c.init) }))) ∧
    (∀ v : Word, agentMayWrite a s (cuOff cu 0x24) v = true →
      exec (.ckRunRestore a cu v) s = ends (cuOff cu 0x24) (u.setCtx cu
        { c with run := BitVec.ofNat 64 (maskW c.width (mkD c.runHi v).toNat), started := true, valid := false }))

/-! ## The peer link -/

/-- The Fetasen link (R390 to R395). Setting EN takes a link that is DOWN to training; RETRAIN of a link that is up retrains it,
and is counted; training with an equal rank ends DOWN with its cause; with another rank the link is UP, with the sequence numbers
and credits of a new link, or UP_X1 when one lane fails and X1_OK allows it. A flit with a wrong CRC is counted and answered by
NAK; one in sequence is accepted and acknowledged; after the replay time every unacknowledged flit is sent again, and the eighth
replay retrains. A link that goes down loses what it held. A frame becomes a record, or is counted when its trailer does not hold;
the last flit of a sentence acknowledged, the sentence counts as delivered. Choices of the model it rests on: log entries 74, 76,
75. -/
def Obligations.PeerLinkRuns : Prop :=
  ∀ (s : State),
    let p := s.peer
    let ctrl := s.reg 0xC000
    (∀ a : Fin 3, agentMayWrite a s 0xC000 (ctrl ||| 1#32) = true → p.st = 0 → bit ctrl 2 = false →
      exec (.peerLinkEnable a) s = .next (settle s (agentDone a 0xC000 s
        (modPeer (fun x => { x with st := 1 }) ((agentPre a s).setReg 0xC000 ((ctrl ||| 1#32) &&& 3#32)))))) ∧
    (∀ a : Fin 3, agentMayWrite a s 0xC000 (ctrl ||| 4#32) = true → p.st = 2 → bit ctrl 0 = true →
      exec (.retrain a) s = .next (settle s (agentDone a 0xC000 s (count (ctPb 20) 1 (modPeer (fun x => { x with st := 1, retraining := true })
        (linkFlit 3 ((agentPre a s).setReg 0xC000 ((ctrl ||| 4#32) &&& 3#32)))))))) ∧
    (s.awake = true →
      (s.rb 0xC000 0 = true → peerUp s = false → p.retraining = false →
        (∀ fl0 fl1, exec (.peerLinkUp s.rank fl0 fl1) s = .next (settle s (modPeer (fun x => { x with st := 0 }) (raise 0xC008 8 s)))) ∧
        (p.bootWait = false →
          let new := fun (st : Nat) => modPeer (fun x => { x with
            st := st, far := !s.rank, retraining := false, replays := 0, txSeq := 0, rxSeq := 0, nak := false,
            credit := (List.range 10).map (fun k => (k, if k < 8 then 64 else 32)) }) s
          exec (.peerLinkUp (!s.rank) true true) s = .next (settle s (raise 0xC008 1 (linkFlit 1 (new 2)))) ∧
          (s.rb 0xC000 1 = true → exec (.peerLinkUp (!s.rank) true false) s = .next (settle s
            (raise 0xC008 1 (linkFlit 1 (raise 0xC008 4 (count (ctPb 22) 1 (new 3))))))))) ∧
      (peerUp s = true →
        (∀ hdr pay k, exec (.flitReceived false hdr pay k) s = .next (settle s (flow
          (linkFlit 2 (modPeer (fun x => { x with nak := true }) (count (ctPb 18) 1 s)))))) ∧
        (∀ hdr pay (k : Fin 8), field hdr 0 2 ≠ 3 → field hdr 2 10 = (flitHeader hdr s).peer.rxSeq →
          exec (.flitReceived true hdr pay k) s = .next (settle s (flow
            (linkFlit 2 (creditsBack (flitAccepted (field hdr 0 2) k pay (flitCredits hdr (flitHeader hdr s)))))))) ∧
        exec .peerLinkDown s = .next (settle s (linkFalls s))) ∧
      (∀ f rest, peerUp s = true → p.unacked = f :: rest →
        let u := count (ctPb 19) 1 (forAll p.unacked (fun f s => emit (.flit f) s) (modPeer (fun x => { x with replays := p.replays + 1 }) s))
        exec .replayTimer s = .next (settle s (if 8 ≤ p.replays + 1 then linkRetrains u else u))) ∧
      (∀ (k : Fin 8) f rest s1, mapGet (dflt []) p.frames k = f :: rest → frameRecord k f s = (s1, true) →
        exec (.sentenceFrameReceived k) s = .next (settle s (flow
          (creditsBack (modPeer (fun x => { x with frames := mapSet (dflt []) x.frames k rest }) s1))))) ∧
      (∀ (k : Fin 8) lq r q rest, mapGet (dflt []) p.sent k = (lq, r, q) :: rest →
        p.unacked.any (fun f => field f.hdr 2 10 = q) = false →
        exec (.sentenceFrameAcked k) s = .next (settle s (flow (count (ctPb k) 1 (delivered lq r
          (modPeer (fun x => { x with sent := mapSet (dflt []) x.sent k rest }) s))))))) ∧
    (∀ (k : Nat) f, let n := field (wordAt f 0) 6 10
      bit (wordAt f 1) 16 = false → trailerOf ((f.drop 1).take 6) ((f.drop 7).take (n - 7)) ≠ wordAt f n →
      frameRecord k f s = (raise 0xC008 16 (count (ctPb 25) 1 s), true)) ∧
    (linkFalls s).peer.st = 0 ∧ (linkFalls s).peer.unacked = [] ∧ (linkFalls s).peer.inLock = none ∧ (linkFalls s).peer.reads = []

/-- The bridge (R400 to R403, R407). A host write of a window that is not enabled is a BAD_ACCESS; of one that is, a posted or
non-posted request with the next tag, with the link down an entry of the outbound log with LINK_LOST (5), and after a broken lock
one with LOCK_TIMEOUT (4); a read sends a request, and gives zero through a window not enabled. A partner's read is answered with
the register, or with all ones and a count where it is denied; a write that passes is performed and answered, and one that fails
is noticed, logged with its reason and answered. An access without completion in time ends as R403 says; unacknowledged writes are
acknowledged after 1 µs; a notice closes its write; a read of a log's entry takes the oldest. Choices of the model it rests on:
log entries 74, 77, 78, 126. -/
def Obligations.BridgeServes : Prop :=
  ∀ (s : State), s.awake = true →
    (∀ (win : Fin 8) (off : Byte) (data : Word), hostServed s = true → s.boot.done = true → (locked s = true → s.rb 0xF044 12 = true) →
      off.toNat % 4 = 0 →
      let x := exec (.bridgeWrite win off data true) s
      let p := s.peer
      let far := farOff s win off.toNat
      let req := fun (posted : Bool) => sendReq [reqWord 2 p.wtag win posted true, w32 far, data]
        (modPeer (fun y => { y with wtag := (p.wtag + 1) % 1024,
                                    writes := p.writes ++ [{ tag := p.wtag, win := win, addr := far, posted := posted }] }) s)
      (bit (winCfg s win) 0 = false → x = .next (settle s (raise 0x1928 4 (count (ctHi 335) 1 s)))) ∧
      (bit (winCfg s win) 0 = true → bit (winCfg s win) 1 = false → bridgeBusy s = false → p.lockFault.contains win.val = true →
        x = .next (settle s (logOut { tag := p.wtag, reason := 4, win := win, addr := far } (modPeer (fun y => { y with
          wtag := (p.wtag + 1) % 1024, lockFault := p.lockFault.filter (· ≠ win.val) }) s)))) ∧
      (bit (winCfg s win) 0 = true → bridgeBusy s = false → p.lockFault.contains win.val = false →
        (peerUp s = false → x = .next (settle s (logOut { tag := p.wtag, reason := 5, win := win, addr := far }
          (modPeer (fun y => { y with wtag := (p.wtag + 1) % 1024 }) s)))) ∧
        (peerUp s = true → reqRoom s = true → bit (winCfg s win) 1 = true → lockState s win ≠ 2 → p.writes.length < 256 →
          x = .next (settle s (count (ctPb 27) 1 (req true)))) ∧
        (peerUp s = true → bit (winCfg s win) 1 = false → npRoom 1 s = true →
          x = .next (settle s (count (ctPb 28) 1 (req false))))) ∧
      (let y := exec (.bridgeRead win off) s
       let o := 0xC800 + 0x100 * win.val + off.toNat
       (bit (winCfg s win) 0 = false → y = .next (settle s (emit (.readData 0 o 0#64) s))) ∧
       (bit (winCfg s win) 0 = true → bridgeBusy s = false → peerUp s = true → npRoom 1 s = true →
         y = .next (settle s (count (ctPb 29) 1 (sendReq [reqWord 1 p.rtag win false true, w32 far]
           (modPeer (fun z => { z with rtag := (p.rtag + 1) % 1024, reads := p.reads ++ [(p.rtag, o)] }) s))))))) ∧
    (∀ (off : BitVec 16) (data : Word) (full : Bool) (tag : BitVec 10) (win : Fin 8) (posted : Bool), peerUp s = true →
      (∀ w, s.peer.inLock = some w → w = win.val) →
      let u := count (ctPb 30) 1 s
      let o := off.toNat
      let t := tag.toNat
      let x := fun wr => exec (.inboundRequest wr off data full tag win posted) s
      (o / 0x1000 ≠ 0xC → s.peer.bootWait = false →
        x false = .next (settle s (sendCpl [cplWord 1 t 0, readReg u 1 o] (readEffect 1 o u)))) ∧
      (o / 0x1000 = 0xC → o ≠ 0xC004 → o ≠ 0xC404 →
        x false = .next (settle s (sendCpl [cplWord 1 t 15, 0xFFFFFFFF#32] (count (ctPb 31) 1 u)))) ∧
      (o / 0x1000 ≠ 0xC → inboundError o full u = 0 → (regInfo o).isSome = true →
        x true = .next (settle s (inboundAnswer o t 0 posted (writeReg o data u)))) ∧
      (∀ e, inboundError o full u = e → e ≠ 0 → e ≠ 2 →
        x true = .next (settle s (inboundAnswer o t e posted
          (sendCpl [cplWord 6 t e, w32 o] (logIn { tag := t, reason := e, win := 0, addr := o } (count (ctPb 31) 1 u))))))) ∧
    (∀ (tag : BitVec 10) r, s.peer.reads.find? (fun r => r.1 = tag.toNat) = some r →
      exec (.bridgeTimeout tag true) s = .next (settle s (readFails tag.toNat r.2 true s))) ∧
    (∀ (tag : BitVec 10) w, s.peer.writes.find? (fun w => w.tag = tag.toNat && !w.posted) = some w →
      exec (.bridgeTimeout tag false) s = .next (settle s (fencesCheck (closeWrite tag.toNat
        (logOut { tag := tag.toNat, reason := 7, win := w.win, addr := w.addr } s))))) ∧
    (s.peer.inUnacked ≠ 0 → peerUp s = true →
      exec .writeAckTimer s = .next (settle s (sendCpl [cplWord 3 ((s.peer.inTag + 1023) % 1024) 0]
        (modPeer (fun p => { p with inUnacked := 0 }) s)))) ∧
    (∀ (tag : BitVec 10) (reason : BitVec 4) (off : BitVec 16) w, s.peer.writes.find? (fun w => w.tag = tag.toNat) = some w →
      exec (.faultNotice tag reason off) s = .next (settle s (fencesCheck (closeWrite tag.toNat
        (logOut { tag := tag.toNat, reason := reason.toNat, win := w.win, addr := off.toNat } s))))) ∧
    (∀ e rest, hostMayRead s 0xC084 = true → s.peer.olog = e :: rest →
      exec (.faultLogPop 0 false) s = .next (settle s (emit (.readData 0 0xC084 (mkD 0#32 (readReg s 0 0xC084)))
        (setLatch 0 0xC088 (w32 (e.addr % 65536)) (modPeer (fun p => { p with olog := rest }) s))))) ∧
    (∀ e rest, hostMayRead s 0xC094 = true → s.peer.ilog = e :: rest →
      exec (.faultLogPop 0 true) s = .next (settle s (emit (.readData 0 0xC094 (mkD 0#32 (readReg s 0 0xC094)))
        (setLatch 0 0xC098 (w32 (e.addr % 65536)) (modPeer (fun p => { p with ilog := rest }) s)))))

/-- Locks (R404 to R406). ACQUIRE of a lockable window with no other lock asks the partner and is PENDING; with another lock it is
BUSY (5), with the link down LINK_DOWN (6); RELEASE frees the window and tells the partner; a request or a release that finds no
credit waits for one (R392). A request of the partner is refused while this device's own is pending and its rank is the lower, and
granted otherwise. A grant is HELD and counted; a refusal is counted and waits for its backoff, after which the request is sent
again, and the last attempt is CONFLICT. A lock held for 2 µs is broken by its target. Choices of the model it rests on: log
entries 74, 78, 79. -/
def Obligations.LocksHeld : Prop :=
  ∀ (s : State) (win : Fin 8),
    let o := 0xC044 + 8 * win.val
    let p := s.peer
    (∀ a : Fin 3, agentMayWrite a s o 1#32 = true →
      let u := agentPre a s
      let ends := fun (t : State) => (.next (settle s (agentDone a o s t)) : Host.Outcome State Fault Refusal)
      (p.lockWin = none → bit (winCfg s win) 2 = true → peerUp s = true → npRoom 1 u = true →
        exec (.acquire a win) s = ends (sendReq [reqWord 3 0 win false true] (setLock win 1 (modPeer (fun x => { x with
          lockWin := some win.val, lockTry := mapDel p.lockTry win, lockWait := false }) u)))) ∧
      (p.lockWin = none → bit (winCfg s win) 2 = true → peerUp s = true → npRoom 1 u = false →
        exec (.acquire a win) s = ends (setLock win 1 (modPeer (fun x => { x with
          lockWin := some win.val, lockTry := mapDel p.lockTry win, lockWait := true }) u))) ∧
      (p.lockWin = none → bit (winCfg s win) 2 = true → peerUp s = false → exec (.acquire a win) s = ends (setLock win 6 u)) ∧
      (∀ w, p.lockWin = some w → w ≠ win.val → exec (.acquire a win) s = ends (setLock win 5 u))) ∧
    (∀ a : Fin 3, agentMayWrite a s o 2#32 = true → p.lockWin = some win.val →
      let u := setLock win 0 (modPeer (fun x => { x with lockWin := none, lockWait := false }) (agentPre a s))
      exec (.release a win) s = .next (settle s (agentDone a o s
        (if p.lockWait then u
         else if reqRoom s then sendReq [reqWord 4 0 win false true] u
         else modPeer (fun x => { x with releaseDue := some win.val }) u)))) ∧
    (s.awake = true →
      (peerUp s = true →
        ((∃ w, p.lockWin = some w ∧ lockState s w = 1) → s.rank = false →
          exec (.lockRequestReceived win) s = .next (settle s (sendCpl [cplWord 5 0 0] s))) ∧
        (s.rank = true ∨ p.lockWin = none →
          exec (.lockRequestReceived win) s = .next (settle s (sendCpl [cplWord 4 0 0] (modPeer (fun x => { x with inLock := some win.val }) s))))) ∧
      (p.lockWin = some win.val →
        let n := mapGet (dflt 0) p.lockTry win + 1
        let t := count (ctPb 37) 1 (modPeer (fun x => { x with lockTry := mapSet (dflt 0) p.lockTry win n }) s)
        (lockState s win = 1 → p.lockWait = false →
          exec (.lockGrantReceived true) s = .next (settle s (count (ctPb 36) 1 (setLock win 2 s))) ∧
          (n < s.rf 0xC010 8 4 →
            exec (.lockGrantReceived false) s = .next (settle s (modPeer (fun x => { x with lockWait := true }) t))) ∧
          (s.rf 0xC010 8 4 ≤ n →
            exec (.lockGrantReceived false) s = .next (settle s (raise 0xC008 256 (count (ctPb 38) 1 (setLock win 3
              (modPeer (fun x => { x with lockWin := none }) t))))))) ∧
        (p.lockWait = true → npRoom 1 s = true →
          exec .lockRetry s = .next (settle s (sendReq [reqWord 3 0 win false true] (modPeer (fun x => { x with lockWait := false }) s)))) ∧
        (lockState s win = 2 →
          exec (.lockTimeout true) s = .next (settle s (raise 0xC008 512 (count (ctPb 39) 1 (setLock win 4
            (modPeer (fun x => { x with lockWin := none, lockFault := x.lockFault.filter (· ≠ win.val) ++ [win.val] }) s))))))) ∧
      exec (.lockTimeout false) s = .next (settle s (modPeer (fun x => { x with inLock := none }) s)))

/-! ## Power, resets, monitors, the test access port -/

/-- Wake and the power states (R274, R275, R450 to R454). An armed port's falling edge, the chosen edge of WAKE_IN, a write of
PW_HOST_WAKE and the wake time are wake events where their enables and the state allow; an event is noted with its source and
cause, returns DOZE to RUN, and starts the return from NAP and HIBERNATE, where PWR_REQ rises. NAP is entered once every medium is
idle, HIBERNATE once nothing is in flight, each after the characters in the shifters are finished (R276): the image and the
persistent counters are written and PWR_REQ and CLKREQ_N are released. PWR_GOOD resumes from a good image, and boots cold with a
count from a bad one; without it in time the device stays in HIBERNATE. Choices of the model it rests on: log entries 40, 41, 44,
45, 115, 161. -/
def Obligations.PowerMoves : Prop :=
  ∀ s : State,
    (∀ n : Fin 48, wakeAllowed s (decide (n.val < 8)) = true → s.rb (apOff n 0x20) 0 = true → s.pw.st = 2 →
      exec (.portWakeEdge n) s = .next (settle s (wakeEvent 1 n (raise (apOff n 0x24) 0x200 (raise (apOff n 0x20) 2
        (modPort n (fun p => { p with line := invRx s n }) s)))))) ∧
    (∀ r, wakeAllowed s true = true → s.rb 0x2004 2 = true → s.rb 0x2004 3 = r →
      exec (.wakeInEdge r) s = .next (settle s (wakeEvent 2 0 s))) ∧
    (∀ a : Fin 3, agentMayWrite a s 0x2010 1#32 = true → s.rb 0x2004 4 = true → wakeAllowed s false = true →
      exec (.hostWake a) s = .next (settle s (agentDone a 0x2010 s (wakeEvent 3 0 (agentPre a s))))) ∧
    (hostServed s = true → s.pw.st = 3 → s.rb 0x2004 4 = true → wakeAllowed s false = true →
      exec (.hostWake 0) s = .next (settle s (wakeEvent 3 0 s))) ∧
    (wakeAllowed s false = true → s.rb 0x2004 5 = true → s.tape.wakeDone = false →
      (mkD (s.reg 0x200C) (s.reg 0x2008)).toNat ≤ s.dt →
      exec .timerWake s = .next (settle s (wakeEvent 4 0 { s with tape := { s.tape with wakeDone := true } }))) ∧
    (∀ src port, s.pw.req = none →
      let u := raise 0x2020 2 { s with pw := { s.pw with lastWake := src, wakePort := if src = 1 then port else s.pw.wakePort } }
      (s.pw.st = 2 → s.rf 0x2004 0 2 ≠ 2 → wakeEvent src port s = raise 0x2020 1 { u with pw := { u.pw with st := 1, req := none } }) ∧
      (s.pw.st = 3 → s.pw.waking = false → wakeEvent src port s = { u with pw := { u.pw with waking := true } }) ∧
      (s.pw.st = 4 → s.pw.waking = false →
        wakeEvent src port s = emit (.pin 5 true) { u with pw := { u.pw with waking := true, pwrReq := true } })) ∧
    (s.awake = true → s.pw.req = some 3 → (∀ i, i < 22 → (s.eg (48 + i)).cur = none) →
      exec .napEntry s = .next (settle s (napEnter s))) ∧
    (napEnter s).pw.st = 3 ∧
    (s.awake = true → s.pw.req = some 4 → hibReady s = true → exec .hibernateEntry s = .next (settle s (hibEnter s))) ∧
    (s.pw.latched = none → (hibEnter s).pw.st = 4 ∧ (hibEnter s).pw.hib = some (hibImage (persStore (pcount 1 (finishChars s)))) ∧
      (hibEnter s).pw.pwrReq = false ∧ (hibEnter s).store = [] ∧ (hibEnter s).engs = [] ∧
      (hibEnter s).out = .pin 6 true :: .pin 5 false :: (finishChars s).out) ∧
    (∀ bist seams mram im, s.pw.st = 4 → s.pw.waking = true → s.pw.hib = some im →
      exec (.pwrGood true bist seams mram) s = .next (settle s (hibResume mram.toNat im s)) ∧
      exec (.pwrGood false bist seams mram) s = .next (settle s (pcount 3 (modPw (fun p => { p with hibFail := true })
        (bootUp s.boot.source s.rank s.pw.vio33 bist.toNat seams.toNat mram.toNat s))))) ∧
    (s.pw.st = 4 → s.pw.waking = true → exec .pmicTimeout s = .next (settle s (emit (.pin 5 false)
      { s with pw := { s.pw with waking := false, osc := false, pwrReq := false, pmicMiss := true } })))

/-- Resets, monitors, MRAM writes and the test access port (R457, R458, R464, R465, R475 to R481, R487). RESET_N, TEST_EN and a
brownout hold the device in reset, which loses everything but MRAM, the straps and what stands outside the core; loss of VAON
loses the always-on domain as well, and VAON in range raises PWR_REQ. The persistent counters and slow checkpoints go to the next
slot of their area with the next generation. The hottest sensor is held against the armed thresholds, and each supply that leaves
its window is counted. The controller of the test access port moves by TMS, shifts and updates as IEEE 1149.1 gives it, and TRST_N
resets it. Choices of the model it rests on: log entries 57, 48, 7, 47, 39, 73. -/
def Obligations.ResetsAndMonitors : Prop :=
  ∀ s : State,
    exec .resetNLow s = .next (settle s (toReset s)) ∧
    ((toReset s).inReset = true ∧ (toReset s).store = [] ∧ (toReset s).regs = [] ∧ (toReset s).engs = [] ∧ (toReset s).ctr = [] ∧
      (toReset s).pw.hib = s.pw.hib ∧ (toReset s).pw.pers = s.pw.pers ∧ (toReset s).pw.slow = s.pw.slow ∧ (toReset s).pw.user = s.pw.user ∧
      (toReset s).tap = s.tap ∧ (toReset s).pending = s.pending) ∧
    exec (.testEnAssert true) s = .next (settle s { toReset s with testEn := true }) ∧
    exec (.testEnAssert false) s = .next (settle s { s with testEn := false }) ∧
    (s.inReset = false → s.testEn = false → s.pw.st ≠ 4 →
      exec .brownout s = .next (settle s (modPw (fun p => { p with brown := true }) (toReset s)))) ∧
    exec .vaonLoss s = .next (settle s
      { toReset s with tap := {}, pw := { slow := s.pw.slow, user := s.pw.user, pers := s.pw.pers, hib := s.pw.hib, pwrReq := false } }) ∧
    (s.pw.pwrReq = false → exec .vaonInRange s = .next (settle s (emit (.pin 5 true) { s with pw := { s.pw with pwrReq := true } }))) ∧
    (s.awake = true →
      (∀ k g, nextSlot s.pw.pers = (k, g) →
        exec .persistWrite s = .next (settle s { s with pw := { s.pw with pers := mapIns s.pw.pers k (g, s.pw.pcnt) } })) ∧
      (∀ k g, nextSlot s.pw.slow = (k, g) → s.rf 0x2028 0 16 ≠ 0 →
        exec .slowCheckpoint s = .next (settle s { s with pw := { s.pw with slow := mapIns s.pw.slow k (g, slowNow s) } })) ∧
      (∀ t0 t1 t2 t3 : BitVec 12,
        let v := fun i => ([t0, t1, t2, t3].getD i 0#12).toInt
        let k := (List.range 4).foldl (fun k i => if v k < v i then i else k) 0
        let w := therm s.pw.warnArmed (signed 12 (s.rf 0xE014 0 12)) (v k)
        let c := therm s.pw.critArmed (signed 12 (s.rf 0xE014 16 12)) (v k)
        exec (.thermalSample t0 t1 t2 t3) s = .next (settle s
          (whenDo c.1 (fun s => raise 0xE020 2 (pcount 6 s)) (whenDo w.1 (fun s => raise 0xE020 1 (pcount 5 s))
            { s with pw := { s.pw with
                tj := unsigned 12 (v k), sensor := k, warnArmed := w.2, critArmed := c.2,
                pcnt := mapSet (dflt 0#64) s.pw.pcnt 7 (BitVec.ofNat 64 (max (mapGet (dflt 0#64) s.pw.pcnt 7).toNat (v k).toNat)) } })))) ∧
      (∀ out : BitVec 9,
        let new := (bitsOf 9 out.toNat).filter (fun i => !nbit s.pw.supplyOut i)
        exec (.supplyCheck out) s = .next (settle s (whenDo (decide (new ≠ [])) (raise 0xE020 4)
          (forAll new (fun _ => pcount 8) { s with pw := { s.pw with supplyOut := out.toNat } }))))) ∧
    (s.pw.st ≠ 4 →
      let t := s.tap
      (∀ tms tdi, t.st ≠ 3 → t.st ≠ 4 → t.st ≠ 10 → t.st ≠ 11 →
        exec (.tapTckEdge true tms tdi) s = .next (settle s
          { s with tap := { t with st := tapNext t.st tms, ir := if tapNext t.st tms = 0 then 1 else t.ir } })) ∧
      (∀ tms tdi, t.st = 4 → exec (.tapTckEdge true tms tdi) s = .next (settle s
        { s with tap := { t with dr := shiftIn (drBits t.ir) t.dr tdi, st := if tms then 5 else 4 } })) ∧
      (∀ tms tdi, t.st = 3 → t.ir = 1 → exec (.tapTckEdge true tms tdi) s = .next (settle s
        { s with tap := { t with dr := idcode, st := if tms then 5 else 4 } })) ∧
      (∀ tms tdi, t.st = 15 → exec (.tapTckEdge false tms tdi) s = .next (settle s { s with tap := { t with ir := t.irShift, tdo := none } })) ∧
      exec .trstNLow s = .next (settle s { s with tap := { t with st := 0, ir := 1, tdo := none } }))
end

