-- ==== Sys2Proof/Laws/Maps.lean ====
section
/-!
SUPPORT. The laws of the finite maps of State: a lookup after a write, and the canonical form that every write keeps.
-/
set_option Elab.async false
namespace Sys2Proof.Machine

variable {α : Type}

/-! ## Lookup after a write -/

@[simp] theorem mapFind_mapIns (m : SMap α) (a b : Nat) (v : α) :
    mapFind (mapIns m a v) b = if b = a then some v else mapFind m b := by
  induction m with
  | nil => simp [mapIns, mapFind]
  | cons e t ih =>
    obtain ⟨k, w⟩ := e
    simp only [mapIns]
    split
    · simp [mapFind]
    · split
      · subst_vars; simp only [mapFind]; split <;> simp_all
      · simp only [mapFind, ih]
        by_cases hb : b = k
        · subst hb; simp_all [eq_comm]
        · simp [hb]

@[simp] theorem mapFind_mapDel (m : SMap α) (a b : Nat) :
    mapFind (mapDel m a) b = if b = a then none else mapFind m b := by
  induction m with
  | nil => simp [mapDel, mapFind]
  | cons e t ih =>
    obtain ⟨k, w⟩ := e
    simp only [mapDel]
    split
    · subst_vars; rw [ih]; simp only [mapFind]; split <;> simp_all
    · simp only [mapFind, ih]
      by_cases hb : b = k
      · subst hb; simp_all [eq_comm]
      · simp [hb]

@[simp] theorem mapGet_mapIns (d : Nat → α) (m : SMap α) (a b : Nat) (v : α) :
    mapGet d (mapIns m a v) b = if b = a then v else mapGet d m b := by
  simp only [mapGet, mapFind_mapIns]; split <;> simp

@[simp] theorem mapGet_mapSet [DecidableEq α] (d : Nat → α) (m : SMap α) (a b : Nat) (v : α) :
    mapGet d (mapSet d m a v) b = if b = a then v else mapGet d m b := by
  unfold mapSet
  split
  · simp only [mapGet, mapFind_mapDel]; split <;> simp_all
  · simp

@[simp] theorem mapGet_nil (d : Nat → α) (a : Nat) : mapGet d [] a = d a := rfl

/-! ## The canonical form -/

/-- Every key of a map exceeds a bound. -/
def keysAbove (k : Nat) (m : SMap α) : Prop := ∀ e ∈ m, k < e.1

theorem mapSorted_cons (k : Nat) (v : α) (t : SMap α) :
    mapSorted ((k, v) :: t) = true ↔ keysAbove k t ∧ mapSorted t = true := by
  induction t generalizing k v with
  | nil => simp [mapSorted, keysAbove]
  | cons e t ih =>
    obtain ⟨k', v'⟩ := e
    simp only [mapSorted, Bool.and_eq_true, decide_eq_true_eq, keysAbove, List.mem_cons, forall_eq_or_imp]
    constructor
    · rintro ⟨h, hs⟩
      refine ⟨⟨h, fun e he => ?_⟩, hs⟩
      exact Nat.lt_trans h (((ih k' v').mp hs).1 e he)
    · rintro ⟨⟨h, _⟩, hs⟩
      exact ⟨h, hs⟩

theorem mem_mapIns {m : SMap α} {a : Nat} {v : α} {e : Nat × α} (h : e ∈ mapIns m a v) : e = (a, v) ∨ e ∈ m := by
  induction m with
  | nil => simpa [mapIns] using h
  | cons x t ih =>
    obtain ⟨k, w⟩ := x
    simp only [mapIns] at h
    split at h
    · simpa using h
    · split at h
      · rcases List.mem_cons.mp h with h | h
        · exact .inl h
        · exact .inr (List.mem_cons_of_mem _ h)
      · rcases List.mem_cons.mp h with h | h
        · exact .inr (h ▸ List.mem_cons_self)
        · rcases ih h with h | h
          · exact .inl h
          · exact .inr (List.mem_cons_of_mem _ h)

theorem mem_mapDel {m : SMap α} {a : Nat} {e : Nat × α} (h : e ∈ mapDel m a) : e ∈ m := by
  induction m with
  | nil => simp [mapDel] at h
  | cons x t ih =>
    obtain ⟨k, w⟩ := x
    simp only [mapDel] at h
    split at h
    · exact List.mem_cons_of_mem _ (ih h)
    · rcases List.mem_cons.mp h with h | h
      · exact h ▸ List.mem_cons_self
      · exact List.mem_cons_of_mem _ (ih h)

theorem mapSorted_mapIns (m : SMap α) (a : Nat) (v : α) (h : mapSorted m = true) : mapSorted (mapIns m a v) = true := by
  induction m with
  | nil => rfl
  | cons x t ih =>
    obtain ⟨k, w⟩ := x
    obtain ⟨hk, ht⟩ := (mapSorted_cons k w t).mp h
    simp only [mapIns]
    split
    next hlt =>
      refine (mapSorted_cons a v _).mpr ⟨fun e he => ?_, h⟩
      rcases List.mem_cons.mp he with he | he
      · exact he ▸ hlt
      · exact Nat.lt_trans hlt (hk e he)
    next hlt =>
      split
      next heq => subst heq; exact (mapSorted_cons _ v t).mpr ⟨hk, ht⟩
      next hne =>
        refine (mapSorted_cons k w _).mpr ⟨fun e he => ?_, ih ht⟩
        rcases mem_mapIns he with rfl | he
        · show k < a; omega
        · exact hk e he

theorem mapSorted_mapDel (m : SMap α) (a : Nat) (h : mapSorted m = true) : mapSorted (mapDel m a) = true := by
  induction m with
  | nil => rfl
  | cons x t ih =>
    obtain ⟨k, w⟩ := x
    obtain ⟨hk, ht⟩ := (mapSorted_cons k w t).mp h
    simp only [mapDel]
    split
    · exact ih ht
    · exact (mapSorted_cons k w _).mpr ⟨fun e he => hk e (mem_mapDel he), ih ht⟩

/-- A write through the default keeps the canonical form. -/
theorem mapWf_mapSet [DecidableEq α] (d : Nat → α) (m : SMap α) (a : Nat) (v : α) (h : mapWf d m = true) :
    mapWf d (mapSet d m a v) = true := by
  simp only [mapWf, Bool.and_eq_true, List.all_eq_true, decide_eq_true_eq] at h ⊢
  unfold mapSet
  split
  next => exact ⟨mapSorted_mapDel m a h.1, fun e he => h.2 e (mem_mapDel he)⟩
  next hv =>
    refine ⟨mapSorted_mapIns m a v h.1, fun e he => ?_⟩
    rcases mem_mapIns he with rfl | he
    · exact hv
    · exact h.2 e he

end Sys2Proof.Machine
end

