-- ==== Sys2Proof/Laws/State.lean ====
section
/-!
SUPPORT. What each update of State leaves unchanged and what a read after it gives: one lemma per field and accessor, true by
unfolding. A script outside the package wrote the repetitive part from the list of State's fields.
-/
set_option Elab.async false
namespace Sys2Proof.Machine

/-! ## Reads after writes -/

@[simp] theorem State.reg_setReg (s : State) (o p : Nat) (v : Word) :
    (s.setReg o v).reg p = if p = o then v else s.reg p := mapGet_mapSet ..
@[simp] theorem State.liveReg_setLive (s : State) (o p : Nat) (v : Word) :
    (s.setLive o v).liveReg p = if p = o then v else s.liveReg p := mapGet_mapSet ..
@[simp] theorem State.reg_raise (s : State) (o m p : Nat) :
    (raise o m s).reg p = if p = o then s.reg o ||| w32 m else s.reg p := mapGet_mapSet ..
@[simp] theorem State.counter_count (s : State) (i n j : Nat) :
    (count i n s).counter j = if j = i then s.counter i + BitVec.ofNat 64 n else s.counter j := mapGet_mapSet ..
@[simp] theorem State.latchOf_setLatch (s : State) (a o b p : Nat) (v : Word) :
    (setLatch a o v s).latchOf b p = if b * 0x20000 + p = a * 0x20000 + o then v else s.latchOf b p := mapGet_mapSet ..
@[simp] theorem State.bob_setBob (s : State) (b c : Nat) (v : Bob) :
    (s.setBob b v).bob c = if c = b then v else s.bob c := mapGet_mapSet ..
@[simp] theorem State.pin_setPin (s : State) (a b : Nat) (v : Pin) :
    (s.setPin a v).pin b = if b = a then some v else s.pin b := mapFind_mapIns ..
@[simp] theorem State.eng_setEng (s : State) (a b : Nat) (v : Eng) :
    (s.setEng a v).eng b = if b = a then v else s.eng b := mapGet_mapSet ..
@[simp] theorem State.mrg_setMrg (s : State) (a b : Nat) (v : Merger) :
    (s.setMrg a v).mrg b = if b = a then v else s.mrg b := mapGet_mapSet ..
@[simp] theorem State.eg_setEg (s : State) (a b : Nat) (v : Egress) :
    (s.setEg a v).eg b = if b = a then v else s.eg b := mapGet_mapSet ..
@[simp] theorem State.port_setPort (s : State) (a b : Nat) (v : Port) :
    (s.setPort a v).port b = if b = a then v else s.port b := mapGet_mapSet ..
@[simp] theorem State.port_modPort (s : State) (a b : Nat) (f : Port → Port) :
    (modPort a f s).port b = if b = a then f (s.port a) else s.port b := mapGet_mapSet ..
@[simp] theorem State.can_setCan (s : State) (a b : Nat) (v : Can) :
    (s.setCan a v).can b = if b = a then v else s.can b := mapGet_mapSet ..
@[simp] theorem State.ts_setTs (s : State) (a b : Nat) (v : T1s) :
    (s.setTs a v).ts b = if b = a then v else s.ts b := mapGet_mapSet ..
@[simp] theorem State.up_setUp (s : State) (a b : Nat) (v : Uplink) :
    (s.setUp a v).up b = if b = a then v else s.up b := mapGet_mapSet ..
@[simp] theorem State.ring_setRing (s : State) (a b : Nat) (v : Ring) :
    (s.setRing a v).ring b = if b = a then v else s.ring b := mapGet_mapSet ..
@[simp] theorem State.cell_setCell (s : State) (a b : Nat) (v : CellSt) :
    (s.setCell a v).cell b = if b = a then v else s.cell b := mapGet_mapSet ..
@[simp] theorem State.seqOf_setSeq (s : State) (a n b : Nat) :
    (s.setSeq a n).seqOf b = if b = a then n % 0x100000 else s.seqOf b := mapGet_mapSet ..
@[simp] theorem State.word_setWord (s : State) (a b : Nat) (w : Word) :
    (s.setWord a w).word b = if b % 0x200000 = a % 0x200000 then withParity w else s.word b := mapGet_mapSet ..
@[simp] theorem State.cu_setCu (s : State) (a b : Nat) (v : CkUnit) :
    (s.setCu a v).cu b = if b = a then v else s.cu b := mapGet_mapSet ..
@[simp] theorem State.chan_setChan (s : State) (a b : Nat) (v : Chan) :
    (s.setChan a v).chan b = if b = a then v else s.chan b := mapGet_mapSet ..
@[simp] theorem State.strobe_setStrobe (s : State) (a b : Nat) (v : Strobe) :
    (s.setStrobe a v).strobe b = if b = a then v else s.strobe b := mapGet_mapSet ..
@[simp] theorem modSeam_seam (s : State) (f : Seam → Seam) : (modSeam f s).seam = f s.seam := (rfl)
@[simp] theorem modCons_cons (s : State) (f : Cons → Cons) : (modCons f s).cons = f s.cons := (rfl)
@[simp] theorem modBoot_boot (s : State) (f : Boot → Boot) : (modBoot f s).boot = f s.boot := (rfl)
@[simp] theorem modPeer_peer (s : State) (f : Peer → Peer) : (modPeer f s).peer = f s.peer := (rfl)
@[simp] theorem modPw_pw (s : State) (f : Power → Power) : (modPw f s).pw = f s.pw := (rfl)
@[simp] theorem modTape_tape (s : State) (f : Tape → Tape) : (modTape f s).tape = f s.tape := (rfl)

/-! ## setReg -/

@[simp] theorem setReg_pending (s : State) (o : Nat) (v : Word) : (s.setReg o v).pending = s.pending := (rfl)
@[simp] theorem setReg_inReset (s : State) (o : Nat) (v : Word) : (s.setReg o v).inReset = s.inReset := (rfl)
@[simp] theorem setReg_testEn (s : State) (o : Nat) (v : Word) : (s.setReg o v).testEn = s.testEn := (rfl)
@[simp] theorem setReg_perst (s : State) (o : Nat) (v : Word) : (s.setReg o v).perst = s.perst := (rfl)
@[simp] theorem setReg_bme (s : State) (o : Nat) (v : Word) : (s.setReg o v).bme = s.bme := (rfl)
@[simp] theorem setReg_d3hot (s : State) (o : Nat) (v : Word) : (s.setReg o v).d3hot = s.d3hot := (rfl)
@[simp] theorem setReg_rank (s : State) (o : Nat) (v : Word) : (s.setReg o v).rank = s.rank := (rfl)
@[simp] theorem setReg_irq (s : State) (o : Nat) (v : Word) : (s.setReg o v).irq = s.irq := (rfl)
@[simp] theorem setReg_live (s : State) (o : Nat) (v : Word) : (s.setReg o v).live = s.live := (rfl)
@[simp] theorem setReg_latch (s : State) (o : Nat) (v : Word) : (s.setReg o v).latch = s.latch := (rfl)
@[simp] theorem setReg_ctr (s : State) (o : Nat) (v : Word) : (s.setReg o v).ctr = s.ctr := (rfl)
@[simp] theorem setReg_out (s : State) (o : Nat) (v : Word) : (s.setReg o v).out = s.out := (rfl)
@[simp] theorem setReg_freeCtr (s : State) (o : Nat) (v : Word) : (s.setReg o v).freeCtr = s.freeCtr := (rfl)
@[simp] theorem setReg_early (s : State) (o : Nat) (v : Word) : (s.setReg o v).early = s.early := (rfl)
@[simp] theorem setReg_store (s : State) (o : Nat) (v : Word) : (s.setReg o v).store = s.store := (rfl)
@[simp] theorem setReg_bobs (s : State) (o : Nat) (v : Word) : (s.setReg o v).bobs = s.bobs := (rfl)
@[simp] theorem setReg_pins (s : State) (o : Nat) (v : Word) : (s.setReg o v).pins = s.pins := (rfl)
@[simp] theorem setReg_seqs (s : State) (o : Nat) (v : Word) : (s.setReg o v).seqs = s.seqs := (rfl)
@[simp] theorem setReg_engs (s : State) (o : Nat) (v : Word) : (s.setReg o v).engs = s.engs := (rfl)
@[simp] theorem setReg_mrgs (s : State) (o : Nat) (v : Word) : (s.setReg o v).mrgs = s.mrgs := (rfl)
@[simp] theorem setReg_log (s : State) (o : Nat) (v : Word) : (s.setReg o v).log = s.log := (rfl)
@[simp] theorem setReg_ckpts (s : State) (o : Nat) (v : Word) : (s.setReg o v).ckpts = s.ckpts := (rfl)
@[simp] theorem setReg_cuts (s : State) (o : Nat) (v : Word) : (s.setReg o v).cuts = s.cuts := (rfl)
@[simp] theorem setReg_fan (s : State) (o : Nat) (v : Word) : (s.setReg o v).fan = s.fan := (rfl)
@[simp] theorem setReg_seam (s : State) (o : Nat) (v : Word) : (s.setReg o v).seam = s.seam := (rfl)
@[simp] theorem setReg_tape (s : State) (o : Nat) (v : Word) : (s.setReg o v).tape = s.tape := (rfl)
@[simp] theorem setReg_cells (s : State) (o : Nat) (v : Word) : (s.setReg o v).cells = s.cells := (rfl)
@[simp] theorem setReg_cons (s : State) (o : Nat) (v : Word) : (s.setReg o v).cons = s.cons := (rfl)
@[simp] theorem setReg_egress (s : State) (o : Nat) (v : Word) : (s.setReg o v).egress = s.egress := (rfl)
@[simp] theorem setReg_laneLq (s : State) (o : Nat) (v : Word) : (s.setReg o v).laneLq = s.laneLq := (rfl)
@[simp] theorem setReg_builds (s : State) (o : Nat) (v : Word) : (s.setReg o v).builds = s.builds := (rfl)
@[simp] theorem setReg_ports (s : State) (o : Nat) (v : Word) : (s.setReg o v).ports = s.ports := (rfl)
@[simp] theorem setReg_cans (s : State) (o : Nat) (v : Word) : (s.setReg o v).cans = s.cans := (rfl)
@[simp] theorem setReg_t1s (s : State) (o : Nat) (v : Word) : (s.setReg o v).t1s = s.t1s := (rfl)
@[simp] theorem setReg_ups (s : State) (o : Nat) (v : Word) : (s.setReg o v).ups = s.ups := (rfl)
@[simp] theorem setReg_rings (s : State) (o : Nat) (v : Word) : (s.setReg o v).rings = s.rings := (rfl)
@[simp] theorem setReg_blocked (s : State) (o : Nat) (v : Word) : (s.setReg o v).blocked = s.blocked := (rfl)
@[simp] theorem setReg_genOffered (s : State) (o : Nat) (v : Word) : (s.setReg o v).genOffered = s.genOffered := (rfl)
@[simp] theorem setReg_wbWritten (s : State) (o : Nat) (v : Word) : (s.setReg o v).wbWritten = s.wbWritten := (rfl)
@[simp] theorem setReg_cmds (s : State) (o : Nat) (v : Word) : (s.setReg o v).cmds = s.cmds := (rfl)
@[simp] theorem setReg_cuCtx (s : State) (o : Nat) (v : Word) : (s.setReg o v).cuCtx = s.cuCtx := (rfl)
@[simp] theorem setReg_cus (s : State) (o : Nat) (v : Word) : (s.setReg o v).cus = s.cus := (rfl)
@[simp] theorem setReg_peer (s : State) (o : Nat) (v : Word) : (s.setReg o v).peer = s.peer := (rfl)
@[simp] theorem setReg_boot (s : State) (o : Nat) (v : Word) : (s.setReg o v).boot = s.boot := (rfl)
@[simp] theorem setReg_pw (s : State) (o : Nat) (v : Word) : (s.setReg o v).pw = s.pw := (rfl)
@[simp] theorem setReg_tap (s : State) (o : Nat) (v : Word) : (s.setReg o v).tap = s.tap := (rfl)
@[simp] theorem setReg_at_liveReg (s : State) (o : Nat) (v : Word) (o' : Nat) : (s.setReg o v).liveReg o' = s.liveReg o' := (rfl)
@[simp] theorem setReg_at_counter (s : State) (o : Nat) (v : Word) (j : Nat) : (s.setReg o v).counter j = s.counter j := (rfl)
@[simp] theorem setReg_at_bob (s : State) (o : Nat) (v : Word) (b : Nat) : (s.setReg o v).bob b = s.bob b := (rfl)
@[simp] theorem setReg_at_pin (s : State) (o : Nat) (v : Word) (a : Nat) : (s.setReg o v).pin a = s.pin a := (rfl)
@[simp] theorem setReg_at_mrg (s : State) (o : Nat) (v : Word) (m : Nat) : (s.setReg o v).mrg m = s.mrg m := (rfl)
@[simp] theorem setReg_at_eg (s : State) (o : Nat) (v : Word) (p : Nat) : (s.setReg o v).eg p = s.eg p := (rfl)
@[simp] theorem setReg_at_port (s : State) (o : Nat) (v : Word) (p : Nat) : (s.setReg o v).port p = s.port p := (rfl)
@[simp] theorem setReg_at_ring (s : State) (o : Nat) (v : Word) (r : Nat) : (s.setReg o v).ring r = s.ring r := (rfl)
@[simp] theorem setReg_at_upQ (s : State) (o : Nat) (v : Word) : (s.setReg o v).up? = s.up? := (rfl)
@[simp] theorem setReg_at_awake (s : State) (o : Nat) (v : Word) : (s.setReg o v).awake = s.awake := (rfl)

/-! ## setLive -/

@[simp] theorem setLive_pending (s : State) (o : Nat) (v : Word) : (s.setLive o v).pending = s.pending := (rfl)
@[simp] theorem setLive_inReset (s : State) (o : Nat) (v : Word) : (s.setLive o v).inReset = s.inReset := (rfl)
@[simp] theorem setLive_testEn (s : State) (o : Nat) (v : Word) : (s.setLive o v).testEn = s.testEn := (rfl)
@[simp] theorem setLive_perst (s : State) (o : Nat) (v : Word) : (s.setLive o v).perst = s.perst := (rfl)
@[simp] theorem setLive_bme (s : State) (o : Nat) (v : Word) : (s.setLive o v).bme = s.bme := (rfl)
@[simp] theorem setLive_d3hot (s : State) (o : Nat) (v : Word) : (s.setLive o v).d3hot = s.d3hot := (rfl)
@[simp] theorem setLive_rank (s : State) (o : Nat) (v : Word) : (s.setLive o v).rank = s.rank := (rfl)
@[simp] theorem setLive_irq (s : State) (o : Nat) (v : Word) : (s.setLive o v).irq = s.irq := (rfl)
@[simp] theorem setLive_regs (s : State) (o : Nat) (v : Word) : (s.setLive o v).regs = s.regs := (rfl)
@[simp] theorem setLive_latch (s : State) (o : Nat) (v : Word) : (s.setLive o v).latch = s.latch := (rfl)
@[simp] theorem setLive_ctr (s : State) (o : Nat) (v : Word) : (s.setLive o v).ctr = s.ctr := (rfl)
@[simp] theorem setLive_out (s : State) (o : Nat) (v : Word) : (s.setLive o v).out = s.out := (rfl)
@[simp] theorem setLive_freeCtr (s : State) (o : Nat) (v : Word) : (s.setLive o v).freeCtr = s.freeCtr := (rfl)
@[simp] theorem setLive_early (s : State) (o : Nat) (v : Word) : (s.setLive o v).early = s.early := (rfl)
@[simp] theorem setLive_store (s : State) (o : Nat) (v : Word) : (s.setLive o v).store = s.store := (rfl)
@[simp] theorem setLive_bobs (s : State) (o : Nat) (v : Word) : (s.setLive o v).bobs = s.bobs := (rfl)
@[simp] theorem setLive_pins (s : State) (o : Nat) (v : Word) : (s.setLive o v).pins = s.pins := (rfl)
@[simp] theorem setLive_seqs (s : State) (o : Nat) (v : Word) : (s.setLive o v).seqs = s.seqs := (rfl)
@[simp] theorem setLive_engs (s : State) (o : Nat) (v : Word) : (s.setLive o v).engs = s.engs := (rfl)
@[simp] theorem setLive_mrgs (s : State) (o : Nat) (v : Word) : (s.setLive o v).mrgs = s.mrgs := (rfl)
@[simp] theorem setLive_log (s : State) (o : Nat) (v : Word) : (s.setLive o v).log = s.log := (rfl)
@[simp] theorem setLive_ckpts (s : State) (o : Nat) (v : Word) : (s.setLive o v).ckpts = s.ckpts := (rfl)
@[simp] theorem setLive_cuts (s : State) (o : Nat) (v : Word) : (s.setLive o v).cuts = s.cuts := (rfl)
@[simp] theorem setLive_fan (s : State) (o : Nat) (v : Word) : (s.setLive o v).fan = s.fan := (rfl)
@[simp] theorem setLive_seam (s : State) (o : Nat) (v : Word) : (s.setLive o v).seam = s.seam := (rfl)
@[simp] theorem setLive_tape (s : State) (o : Nat) (v : Word) : (s.setLive o v).tape = s.tape := (rfl)
@[simp] theorem setLive_cells (s : State) (o : Nat) (v : Word) : (s.setLive o v).cells = s.cells := (rfl)
@[simp] theorem setLive_cons (s : State) (o : Nat) (v : Word) : (s.setLive o v).cons = s.cons := (rfl)
@[simp] theorem setLive_egress (s : State) (o : Nat) (v : Word) : (s.setLive o v).egress = s.egress := (rfl)
@[simp] theorem setLive_laneLq (s : State) (o : Nat) (v : Word) : (s.setLive o v).laneLq = s.laneLq := (rfl)
@[simp] theorem setLive_builds (s : State) (o : Nat) (v : Word) : (s.setLive o v).builds = s.builds := (rfl)
@[simp] theorem setLive_ports (s : State) (o : Nat) (v : Word) : (s.setLive o v).ports = s.ports := (rfl)
@[simp] theorem setLive_cans (s : State) (o : Nat) (v : Word) : (s.setLive o v).cans = s.cans := (rfl)
@[simp] theorem setLive_t1s (s : State) (o : Nat) (v : Word) : (s.setLive o v).t1s = s.t1s := (rfl)
@[simp] theorem setLive_ups (s : State) (o : Nat) (v : Word) : (s.setLive o v).ups = s.ups := (rfl)
@[simp] theorem setLive_rings (s : State) (o : Nat) (v : Word) : (s.setLive o v).rings = s.rings := (rfl)
@[simp] theorem setLive_blocked (s : State) (o : Nat) (v : Word) : (s.setLive o v).blocked = s.blocked := (rfl)
@[simp] theorem setLive_genOffered (s : State) (o : Nat) (v : Word) : (s.setLive o v).genOffered = s.genOffered := (rfl)
@[simp] theorem setLive_wbWritten (s : State) (o : Nat) (v : Word) : (s.setLive o v).wbWritten = s.wbWritten := (rfl)
@[simp] theorem setLive_cmds (s : State) (o : Nat) (v : Word) : (s.setLive o v).cmds = s.cmds := (rfl)
@[simp] theorem setLive_cuCtx (s : State) (o : Nat) (v : Word) : (s.setLive o v).cuCtx = s.cuCtx := (rfl)
@[simp] theorem setLive_cus (s : State) (o : Nat) (v : Word) : (s.setLive o v).cus = s.cus := (rfl)
@[simp] theorem setLive_peer (s : State) (o : Nat) (v : Word) : (s.setLive o v).peer = s.peer := (rfl)
@[simp] theorem setLive_boot (s : State) (o : Nat) (v : Word) : (s.setLive o v).boot = s.boot := (rfl)
@[simp] theorem setLive_pw (s : State) (o : Nat) (v : Word) : (s.setLive o v).pw = s.pw := (rfl)
@[simp] theorem setLive_tap (s : State) (o : Nat) (v : Word) : (s.setLive o v).tap = s.tap := (rfl)
@[simp] theorem setLive_at_reg (s : State) (o : Nat) (v : Word) (o' : Nat) : (s.setLive o v).reg o' = s.reg o' := (rfl)
@[simp] theorem setLive_at_counter (s : State) (o : Nat) (v : Word) (j : Nat) : (s.setLive o v).counter j = s.counter j := (rfl)
@[simp] theorem setLive_at_rb (s : State) (o : Nat) (v : Word) (o' i : Nat) : (s.setLive o v).rb o' i = s.rb o' i := (rfl)
@[simp] theorem setLive_at_rf (s : State) (o : Nat) (v : Word) (o' lo n : Nat) : (s.setLive o v).rf o' lo n = s.rf o' lo n := (rfl)
@[simp] theorem setLive_at_bob (s : State) (o : Nat) (v : Word) (b : Nat) : (s.setLive o v).bob b = s.bob b := (rfl)
@[simp] theorem setLive_at_pin (s : State) (o : Nat) (v : Word) (a : Nat) : (s.setLive o v).pin a = s.pin a := (rfl)
@[simp] theorem setLive_at_mrg (s : State) (o : Nat) (v : Word) (m : Nat) : (s.setLive o v).mrg m = s.mrg m := (rfl)
@[simp] theorem setLive_at_eg (s : State) (o : Nat) (v : Word) (p : Nat) : (s.setLive o v).eg p = s.eg p := (rfl)
@[simp] theorem setLive_at_port (s : State) (o : Nat) (v : Word) (p : Nat) : (s.setLive o v).port p = s.port p := (rfl)
@[simp] theorem setLive_at_ring (s : State) (o : Nat) (v : Word) (r : Nat) : (s.setLive o v).ring r = s.ring r := (rfl)
@[simp] theorem setLive_at_upQ (s : State) (o : Nat) (v : Word) : (s.setLive o v).up? = s.up? := (rfl)
@[simp] theorem setLive_at_awake (s : State) (o : Nat) (v : Word) : (s.setLive o v).awake = s.awake := (rfl)

/-! ## raise -/

@[simp] theorem raise_pending (s : State) (o m : Nat) : (raise o m s).pending = s.pending := (rfl)
@[simp] theorem raise_inReset (s : State) (o m : Nat) : (raise o m s).inReset = s.inReset := (rfl)
@[simp] theorem raise_testEn (s : State) (o m : Nat) : (raise o m s).testEn = s.testEn := (rfl)
@[simp] theorem raise_perst (s : State) (o m : Nat) : (raise o m s).perst = s.perst := (rfl)
@[simp] theorem raise_bme (s : State) (o m : Nat) : (raise o m s).bme = s.bme := (rfl)
@[simp] theorem raise_d3hot (s : State) (o m : Nat) : (raise o m s).d3hot = s.d3hot := (rfl)
@[simp] theorem raise_rank (s : State) (o m : Nat) : (raise o m s).rank = s.rank := (rfl)
@[simp] theorem raise_irq (s : State) (o m : Nat) : (raise o m s).irq = s.irq := (rfl)
@[simp] theorem raise_live (s : State) (o m : Nat) : (raise o m s).live = s.live := (rfl)
@[simp] theorem raise_latch (s : State) (o m : Nat) : (raise o m s).latch = s.latch := (rfl)
@[simp] theorem raise_ctr (s : State) (o m : Nat) : (raise o m s).ctr = s.ctr := (rfl)
@[simp] theorem raise_out (s : State) (o m : Nat) : (raise o m s).out = s.out := (rfl)
@[simp] theorem raise_freeCtr (s : State) (o m : Nat) : (raise o m s).freeCtr = s.freeCtr := (rfl)
@[simp] theorem raise_early (s : State) (o m : Nat) : (raise o m s).early = s.early := (rfl)
@[simp] theorem raise_store (s : State) (o m : Nat) : (raise o m s).store = s.store := (rfl)
@[simp] theorem raise_bobs (s : State) (o m : Nat) : (raise o m s).bobs = s.bobs := (rfl)
@[simp] theorem raise_pins (s : State) (o m : Nat) : (raise o m s).pins = s.pins := (rfl)
@[simp] theorem raise_seqs (s : State) (o m : Nat) : (raise o m s).seqs = s.seqs := (rfl)
@[simp] theorem raise_engs (s : State) (o m : Nat) : (raise o m s).engs = s.engs := (rfl)
@[simp] theorem raise_mrgs (s : State) (o m : Nat) : (raise o m s).mrgs = s.mrgs := (rfl)
@[simp] theorem raise_log (s : State) (o m : Nat) : (raise o m s).log = s.log := (rfl)
@[simp] theorem raise_ckpts (s : State) (o m : Nat) : (raise o m s).ckpts = s.ckpts := (rfl)
@[simp] theorem raise_cuts (s : State) (o m : Nat) : (raise o m s).cuts = s.cuts := (rfl)
@[simp] theorem raise_fan (s : State) (o m : Nat) : (raise o m s).fan = s.fan := (rfl)
@[simp] theorem raise_seam (s : State) (o m : Nat) : (raise o m s).seam = s.seam := (rfl)
@[simp] theorem raise_tape (s : State) (o m : Nat) : (raise o m s).tape = s.tape := (rfl)
@[simp] theorem raise_cells (s : State) (o m : Nat) : (raise o m s).cells = s.cells := (rfl)
@[simp] theorem raise_cons (s : State) (o m : Nat) : (raise o m s).cons = s.cons := (rfl)
@[simp] theorem raise_egress (s : State) (o m : Nat) : (raise o m s).egress = s.egress := (rfl)
@[simp] theorem raise_laneLq (s : State) (o m : Nat) : (raise o m s).laneLq = s.laneLq := (rfl)
@[simp] theorem raise_builds (s : State) (o m : Nat) : (raise o m s).builds = s.builds := (rfl)
@[simp] theorem raise_ports (s : State) (o m : Nat) : (raise o m s).ports = s.ports := (rfl)
@[simp] theorem raise_cans (s : State) (o m : Nat) : (raise o m s).cans = s.cans := (rfl)
@[simp] theorem raise_t1s (s : State) (o m : Nat) : (raise o m s).t1s = s.t1s := (rfl)
@[simp] theorem raise_ups (s : State) (o m : Nat) : (raise o m s).ups = s.ups := (rfl)
@[simp] theorem raise_rings (s : State) (o m : Nat) : (raise o m s).rings = s.rings := (rfl)
@[simp] theorem raise_blocked (s : State) (o m : Nat) : (raise o m s).blocked = s.blocked := (rfl)
@[simp] theorem raise_genOffered (s : State) (o m : Nat) : (raise o m s).genOffered = s.genOffered := (rfl)
@[simp] theorem raise_wbWritten (s : State) (o m : Nat) : (raise o m s).wbWritten = s.wbWritten := (rfl)
@[simp] theorem raise_cmds (s : State) (o m : Nat) : (raise o m s).cmds = s.cmds := (rfl)
@[simp] theorem raise_cuCtx (s : State) (o m : Nat) : (raise o m s).cuCtx = s.cuCtx := (rfl)
@[simp] theorem raise_cus (s : State) (o m : Nat) : (raise o m s).cus = s.cus := (rfl)
@[simp] theorem raise_peer (s : State) (o m : Nat) : (raise o m s).peer = s.peer := (rfl)
@[simp] theorem raise_boot (s : State) (o m : Nat) : (raise o m s).boot = s.boot := (rfl)
@[simp] theorem raise_pw (s : State) (o m : Nat) : (raise o m s).pw = s.pw := (rfl)
@[simp] theorem raise_tap (s : State) (o m : Nat) : (raise o m s).tap = s.tap := (rfl)
@[simp] theorem raise_at_liveReg (s : State) (o m : Nat) (o' : Nat) : (raise o m s).liveReg o' = s.liveReg o' := (rfl)
@[simp] theorem raise_at_counter (s : State) (o m : Nat) (j : Nat) : (raise o m s).counter j = s.counter j := (rfl)
@[simp] theorem raise_at_bob (s : State) (o m : Nat) (b : Nat) : (raise o m s).bob b = s.bob b := (rfl)
@[simp] theorem raise_at_pin (s : State) (o m : Nat) (a : Nat) : (raise o m s).pin a = s.pin a := (rfl)
@[simp] theorem raise_at_mrg (s : State) (o m : Nat) (m' : Nat) : (raise o m s).mrg m' = s.mrg m' := (rfl)
@[simp] theorem raise_at_eg (s : State) (o m : Nat) (p : Nat) : (raise o m s).eg p = s.eg p := (rfl)
@[simp] theorem raise_at_port (s : State) (o m : Nat) (p : Nat) : (raise o m s).port p = s.port p := (rfl)
@[simp] theorem raise_at_ring (s : State) (o m : Nat) (r : Nat) : (raise o m s).ring r = s.ring r := (rfl)
@[simp] theorem raise_at_upQ (s : State) (o m : Nat) : (raise o m s).up? = s.up? := (rfl)
@[simp] theorem raise_at_awake (s : State) (o m : Nat) : (raise o m s).awake = s.awake := (rfl)

/-! ## count -/

@[simp] theorem count_pending (s : State) (i n : Nat) : (count i n s).pending = s.pending := (rfl)
@[simp] theorem count_inReset (s : State) (i n : Nat) : (count i n s).inReset = s.inReset := (rfl)
@[simp] theorem count_testEn (s : State) (i n : Nat) : (count i n s).testEn = s.testEn := (rfl)
@[simp] theorem count_perst (s : State) (i n : Nat) : (count i n s).perst = s.perst := (rfl)
@[simp] theorem count_bme (s : State) (i n : Nat) : (count i n s).bme = s.bme := (rfl)
@[simp] theorem count_d3hot (s : State) (i n : Nat) : (count i n s).d3hot = s.d3hot := (rfl)
@[simp] theorem count_rank (s : State) (i n : Nat) : (count i n s).rank = s.rank := (rfl)
@[simp] theorem count_irq (s : State) (i n : Nat) : (count i n s).irq = s.irq := (rfl)
@[simp] theorem count_regs (s : State) (i n : Nat) : (count i n s).regs = s.regs := (rfl)
@[simp] theorem count_live (s : State) (i n : Nat) : (count i n s).live = s.live := (rfl)
@[simp] theorem count_latch (s : State) (i n : Nat) : (count i n s).latch = s.latch := (rfl)
@[simp] theorem count_out (s : State) (i n : Nat) : (count i n s).out = s.out := (rfl)
@[simp] theorem count_freeCtr (s : State) (i n : Nat) : (count i n s).freeCtr = s.freeCtr := (rfl)
@[simp] theorem count_early (s : State) (i n : Nat) : (count i n s).early = s.early := (rfl)
@[simp] theorem count_store (s : State) (i n : Nat) : (count i n s).store = s.store := (rfl)
@[simp] theorem count_bobs (s : State) (i n : Nat) : (count i n s).bobs = s.bobs := (rfl)
@[simp] theorem count_pins (s : State) (i n : Nat) : (count i n s).pins = s.pins := (rfl)
@[simp] theorem count_seqs (s : State) (i n : Nat) : (count i n s).seqs = s.seqs := (rfl)
@[simp] theorem count_engs (s : State) (i n : Nat) : (count i n s).engs = s.engs := (rfl)
@[simp] theorem count_mrgs (s : State) (i n : Nat) : (count i n s).mrgs = s.mrgs := (rfl)
@[simp] theorem count_log (s : State) (i n : Nat) : (count i n s).log = s.log := (rfl)
@[simp] theorem count_ckpts (s : State) (i n : Nat) : (count i n s).ckpts = s.ckpts := (rfl)
@[simp] theorem count_cuts (s : State) (i n : Nat) : (count i n s).cuts = s.cuts := (rfl)
@[simp] theorem count_fan (s : State) (i n : Nat) : (count i n s).fan = s.fan := (rfl)
@[simp] theorem count_seam (s : State) (i n : Nat) : (count i n s).seam = s.seam := (rfl)
@[simp] theorem count_tape (s : State) (i n : Nat) : (count i n s).tape = s.tape := (rfl)
@[simp] theorem count_cells (s : State) (i n : Nat) : (count i n s).cells = s.cells := (rfl)
@[simp] theorem count_cons (s : State) (i n : Nat) : (count i n s).cons = s.cons := (rfl)
@[simp] theorem count_egress (s : State) (i n : Nat) : (count i n s).egress = s.egress := (rfl)
@[simp] theorem count_laneLq (s : State) (i n : Nat) : (count i n s).laneLq = s.laneLq := (rfl)
@[simp] theorem count_builds (s : State) (i n : Nat) : (count i n s).builds = s.builds := (rfl)
@[simp] theorem count_ports (s : State) (i n : Nat) : (count i n s).ports = s.ports := (rfl)
@[simp] theorem count_cans (s : State) (i n : Nat) : (count i n s).cans = s.cans := (rfl)
@[simp] theorem count_t1s (s : State) (i n : Nat) : (count i n s).t1s = s.t1s := (rfl)
@[simp] theorem count_ups (s : State) (i n : Nat) : (count i n s).ups = s.ups := (rfl)
@[simp] theorem count_rings (s : State) (i n : Nat) : (count i n s).rings = s.rings := (rfl)
@[simp] theorem count_blocked (s : State) (i n : Nat) : (count i n s).blocked = s.blocked := (rfl)
@[simp] theorem count_genOffered (s : State) (i n : Nat) : (count i n s).genOffered = s.genOffered := (rfl)
@[simp] theorem count_wbWritten (s : State) (i n : Nat) : (count i n s).wbWritten = s.wbWritten := (rfl)
@[simp] theorem count_cmds (s : State) (i n : Nat) : (count i n s).cmds = s.cmds := (rfl)
@[simp] theorem count_cuCtx (s : State) (i n : Nat) : (count i n s).cuCtx = s.cuCtx := (rfl)
@[simp] theorem count_cus (s : State) (i n : Nat) : (count i n s).cus = s.cus := (rfl)
@[simp] theorem count_peer (s : State) (i n : Nat) : (count i n s).peer = s.peer := (rfl)
@[simp] theorem count_boot (s : State) (i n : Nat) : (count i n s).boot = s.boot := (rfl)
@[simp] theorem count_pw (s : State) (i n : Nat) : (count i n s).pw = s.pw := (rfl)
@[simp] theorem count_tap (s : State) (i n : Nat) : (count i n s).tap = s.tap := (rfl)
@[simp] theorem count_at_reg (s : State) (i n : Nat) (o : Nat) : (count i n s).reg o = s.reg o := (rfl)
@[simp] theorem count_at_liveReg (s : State) (i n : Nat) (o : Nat) : (count i n s).liveReg o = s.liveReg o := (rfl)
@[simp] theorem count_at_rb (s : State) (i n : Nat) (o i' : Nat) : (count i n s).rb o i' = s.rb o i' := (rfl)
@[simp] theorem count_at_rf (s : State) (i n : Nat) (o lo n' : Nat) : (count i n s).rf o lo n' = s.rf o lo n' := (rfl)
@[simp] theorem count_at_bob (s : State) (i n : Nat) (b : Nat) : (count i n s).bob b = s.bob b := (rfl)
@[simp] theorem count_at_pin (s : State) (i n : Nat) (a : Nat) : (count i n s).pin a = s.pin a := (rfl)
@[simp] theorem count_at_mrg (s : State) (i n : Nat) (m : Nat) : (count i n s).mrg m = s.mrg m := (rfl)
@[simp] theorem count_at_eg (s : State) (i n : Nat) (p : Nat) : (count i n s).eg p = s.eg p := (rfl)
@[simp] theorem count_at_port (s : State) (i n : Nat) (p : Nat) : (count i n s).port p = s.port p := (rfl)
@[simp] theorem count_at_ring (s : State) (i n : Nat) (r : Nat) : (count i n s).ring r = s.ring r := (rfl)
@[simp] theorem count_at_upQ (s : State) (i n : Nat) : (count i n s).up? = s.up? := (rfl)
@[simp] theorem count_at_awake (s : State) (i n : Nat) : (count i n s).awake = s.awake := (rfl)

/-! ## setLatch -/

@[simp] theorem setLatch_pending (s : State) (a o : Nat) (v : Word) : (setLatch a o v s).pending = s.pending := (rfl)
@[simp] theorem setLatch_inReset (s : State) (a o : Nat) (v : Word) : (setLatch a o v s).inReset = s.inReset := (rfl)
@[simp] theorem setLatch_testEn (s : State) (a o : Nat) (v : Word) : (setLatch a o v s).testEn = s.testEn := (rfl)
@[simp] theorem setLatch_perst (s : State) (a o : Nat) (v : Word) : (setLatch a o v s).perst = s.perst := (rfl)
@[simp] theorem setLatch_bme (s : State) (a o : Nat) (v : Word) : (setLatch a o v s).bme = s.bme := (rfl)
@[simp] theorem setLatch_d3hot (s : State) (a o : Nat) (v : Word) : (setLatch a o v s).d3hot = s.d3hot := (rfl)
@[simp] theorem setLatch_rank (s : State) (a o : Nat) (v : Word) : (setLatch a o v s).rank = s.rank := (rfl)
@[simp] theorem setLatch_irq (s : State) (a o : Nat) (v : Word) : (setLatch a o v s).irq = s.irq := (rfl)
@[simp] theorem setLatch_regs (s : State) (a o : Nat) (v : Word) : (setLatch a o v s).regs = s.regs := (rfl)
@[simp] theorem setLatch_live (s : State) (a o : Nat) (v : Word) : (setLatch a o v s).live = s.live := (rfl)
@[simp] theorem setLatch_ctr (s : State) (a o : Nat) (v : Word) : (setLatch a o v s).ctr = s.ctr := (rfl)
@[simp] theorem setLatch_out (s : State) (a o : Nat) (v : Word) : (setLatch a o v s).out = s.out := (rfl)
@[simp] theorem setLatch_freeCtr (s : State) (a o : Nat) (v : Word) : (setLatch a o v s).freeCtr = s.freeCtr := (rfl)
@[simp] theorem setLatch_early (s : State) (a o : Nat) (v : Word) : (setLatch a o v s).early = s.early := (rfl)
@[simp] theorem setLatch_store (s : State) (a o : Nat) (v : Word) : (setLatch a o v s).store = s.store := (rfl)
@[simp] theorem setLatch_bobs (s : State) (a o : Nat) (v : Word) : (setLatch a o v s).bobs = s.bobs := (rfl)
@[simp] theorem setLatch_pins (s : State) (a o : Nat) (v : Word) : (setLatch a o v s).pins = s.pins := (rfl)
@[simp] theorem setLatch_seqs (s : State) (a o : Nat) (v : Word) : (setLatch a o v s).seqs = s.seqs := (rfl)
@[simp] theorem setLatch_engs (s : State) (a o : Nat) (v : Word) : (setLatch a o v s).engs = s.engs := (rfl)
@[simp] theorem setLatch_mrgs (s : State) (a o : Nat) (v : Word) : (setLatch a o v s).mrgs = s.mrgs := (rfl)
@[simp] theorem setLatch_log (s : State) (a o : Nat) (v : Word) : (setLatch a o v s).log = s.log := (rfl)
@[simp] theorem setLatch_ckpts (s : State) (a o : Nat) (v : Word) : (setLatch a o v s).ckpts = s.ckpts := (rfl)
@[simp] theorem setLatch_cuts (s : State) (a o : Nat) (v : Word) : (setLatch a o v s).cuts = s.cuts := (rfl)
@[simp] theorem setLatch_fan (s : State) (a o : Nat) (v : Word) : (setLatch a o v s).fan = s.fan := (rfl)
@[simp] theorem setLatch_seam (s : State) (a o : Nat) (v : Word) : (setLatch a o v s).seam = s.seam := (rfl)
@[simp] theorem setLatch_tape (s : State) (a o : Nat) (v : Word) : (setLatch a o v s).tape = s.tape := (rfl)
@[simp] theorem setLatch_cells (s : State) (a o : Nat) (v : Word) : (setLatch a o v s).cells = s.cells := (rfl)
@[simp] theorem setLatch_cons (s : State) (a o : Nat) (v : Word) : (setLatch a o v s).cons = s.cons := (rfl)
@[simp] theorem setLatch_egress (s : State) (a o : Nat) (v : Word) : (setLatch a o v s).egress = s.egress := (rfl)
@[simp] theorem setLatch_laneLq (s : State) (a o : Nat) (v : Word) : (setLatch a o v s).laneLq = s.laneLq := (rfl)
@[simp] theorem setLatch_builds (s : State) (a o : Nat) (v : Word) : (setLatch a o v s).builds = s.builds := (rfl)
@[simp] theorem setLatch_ports (s : State) (a o : Nat) (v : Word) : (setLatch a o v s).ports = s.ports := (rfl)
@[simp] theorem setLatch_cans (s : State) (a o : Nat) (v : Word) : (setLatch a o v s).cans = s.cans := (rfl)
@[simp] theorem setLatch_t1s (s : State) (a o : Nat) (v : Word) : (setLatch a o v s).t1s = s.t1s := (rfl)
@[simp] theorem setLatch_ups (s : State) (a o : Nat) (v : Word) : (setLatch a o v s).ups = s.ups := (rfl)
@[simp] theorem setLatch_rings (s : State) (a o : Nat) (v : Word) : (setLatch a o v s).rings = s.rings := (rfl)
@[simp] theorem setLatch_blocked (s : State) (a o : Nat) (v : Word) : (setLatch a o v s).blocked = s.blocked := (rfl)
@[simp] theorem setLatch_genOffered (s : State) (a o : Nat) (v : Word) : (setLatch a o v s).genOffered = s.genOffered := (rfl)
@[simp] theorem setLatch_wbWritten (s : State) (a o : Nat) (v : Word) : (setLatch a o v s).wbWritten = s.wbWritten := (rfl)
@[simp] theorem setLatch_cmds (s : State) (a o : Nat) (v : Word) : (setLatch a o v s).cmds = s.cmds := (rfl)
@[simp] theorem setLatch_cuCtx (s : State) (a o : Nat) (v : Word) : (setLatch a o v s).cuCtx = s.cuCtx := (rfl)
@[simp] theorem setLatch_cus (s : State) (a o : Nat) (v : Word) : (setLatch a o v s).cus = s.cus := (rfl)
@[simp] theorem setLatch_peer (s : State) (a o : Nat) (v : Word) : (setLatch a o v s).peer = s.peer := (rfl)
@[simp] theorem setLatch_boot (s : State) (a o : Nat) (v : Word) : (setLatch a o v s).boot = s.boot := (rfl)
@[simp] theorem setLatch_pw (s : State) (a o : Nat) (v : Word) : (setLatch a o v s).pw = s.pw := (rfl)
@[simp] theorem setLatch_tap (s : State) (a o : Nat) (v : Word) : (setLatch a o v s).tap = s.tap := (rfl)
@[simp] theorem setLatch_at_reg (s : State) (a o : Nat) (v : Word) (o' : Nat) : (setLatch a o v s).reg o' = s.reg o' := (rfl)
@[simp] theorem setLatch_at_liveReg (s : State) (a o : Nat) (v : Word) (o' : Nat) : (setLatch a o v s).liveReg o' = s.liveReg o' := (rfl)
@[simp] theorem setLatch_at_counter (s : State) (a o : Nat) (v : Word) (j : Nat) : (setLatch a o v s).counter j = s.counter j := (rfl)
@[simp] theorem setLatch_at_rb (s : State) (a o : Nat) (v : Word) (o' i : Nat) : (setLatch a o v s).rb o' i = s.rb o' i := (rfl)
@[simp] theorem setLatch_at_rf (s : State) (a o : Nat) (v : Word) (o' lo n : Nat) : (setLatch a o v s).rf o' lo n = s.rf o' lo n := (rfl)
@[simp] theorem setLatch_at_bob (s : State) (a o : Nat) (v : Word) (b : Nat) : (setLatch a o v s).bob b = s.bob b := (rfl)
@[simp] theorem setLatch_at_pin (s : State) (a o : Nat) (v : Word) (a' : Nat) : (setLatch a o v s).pin a' = s.pin a' := (rfl)
@[simp] theorem setLatch_at_mrg (s : State) (a o : Nat) (v : Word) (m : Nat) : (setLatch a o v s).mrg m = s.mrg m := (rfl)
@[simp] theorem setLatch_at_eg (s : State) (a o : Nat) (v : Word) (p : Nat) : (setLatch a o v s).eg p = s.eg p := (rfl)
@[simp] theorem setLatch_at_port (s : State) (a o : Nat) (v : Word) (p : Nat) : (setLatch a o v s).port p = s.port p := (rfl)
@[simp] theorem setLatch_at_ring (s : State) (a o : Nat) (v : Word) (r : Nat) : (setLatch a o v s).ring r = s.ring r := (rfl)
@[simp] theorem setLatch_at_upQ (s : State) (a o : Nat) (v : Word) : (setLatch a o v s).up? = s.up? := (rfl)
@[simp] theorem setLatch_at_awake (s : State) (a o : Nat) (v : Word) : (setLatch a o v s).awake = s.awake := (rfl)

/-! ## setBob -/

@[simp] theorem setBob_pending (s : State) (b : Nat) (v : Bob) : (s.setBob b v).pending = s.pending := (rfl)
@[simp] theorem setBob_inReset (s : State) (b : Nat) (v : Bob) : (s.setBob b v).inReset = s.inReset := (rfl)
@[simp] theorem setBob_testEn (s : State) (b : Nat) (v : Bob) : (s.setBob b v).testEn = s.testEn := (rfl)
@[simp] theorem setBob_perst (s : State) (b : Nat) (v : Bob) : (s.setBob b v).perst = s.perst := (rfl)
@[simp] theorem setBob_bme (s : State) (b : Nat) (v : Bob) : (s.setBob b v).bme = s.bme := (rfl)
@[simp] theorem setBob_d3hot (s : State) (b : Nat) (v : Bob) : (s.setBob b v).d3hot = s.d3hot := (rfl)
@[simp] theorem setBob_rank (s : State) (b : Nat) (v : Bob) : (s.setBob b v).rank = s.rank := (rfl)
@[simp] theorem setBob_irq (s : State) (b : Nat) (v : Bob) : (s.setBob b v).irq = s.irq := (rfl)
@[simp] theorem setBob_regs (s : State) (b : Nat) (v : Bob) : (s.setBob b v).regs = s.regs := (rfl)
@[simp] theorem setBob_live (s : State) (b : Nat) (v : Bob) : (s.setBob b v).live = s.live := (rfl)
@[simp] theorem setBob_latch (s : State) (b : Nat) (v : Bob) : (s.setBob b v).latch = s.latch := (rfl)
@[simp] theorem setBob_ctr (s : State) (b : Nat) (v : Bob) : (s.setBob b v).ctr = s.ctr := (rfl)
@[simp] theorem setBob_out (s : State) (b : Nat) (v : Bob) : (s.setBob b v).out = s.out := (rfl)
@[simp] theorem setBob_freeCtr (s : State) (b : Nat) (v : Bob) : (s.setBob b v).freeCtr = s.freeCtr := (rfl)
@[simp] theorem setBob_early (s : State) (b : Nat) (v : Bob) : (s.setBob b v).early = s.early := (rfl)
@[simp] theorem setBob_store (s : State) (b : Nat) (v : Bob) : (s.setBob b v).store = s.store := (rfl)
@[simp] theorem setBob_pins (s : State) (b : Nat) (v : Bob) : (s.setBob b v).pins = s.pins := (rfl)
@[simp] theorem setBob_seqs (s : State) (b : Nat) (v : Bob) : (s.setBob b v).seqs = s.seqs := (rfl)
@[simp] theorem setBob_engs (s : State) (b : Nat) (v : Bob) : (s.setBob b v).engs = s.engs := (rfl)
@[simp] theorem setBob_mrgs (s : State) (b : Nat) (v : Bob) : (s.setBob b v).mrgs = s.mrgs := (rfl)
@[simp] theorem setBob_log (s : State) (b : Nat) (v : Bob) : (s.setBob b v).log = s.log := (rfl)
@[simp] theorem setBob_ckpts (s : State) (b : Nat) (v : Bob) : (s.setBob b v).ckpts = s.ckpts := (rfl)
@[simp] theorem setBob_cuts (s : State) (b : Nat) (v : Bob) : (s.setBob b v).cuts = s.cuts := (rfl)
@[simp] theorem setBob_fan (s : State) (b : Nat) (v : Bob) : (s.setBob b v).fan = s.fan := (rfl)
@[simp] theorem setBob_seam (s : State) (b : Nat) (v : Bob) : (s.setBob b v).seam = s.seam := (rfl)
@[simp] theorem setBob_tape (s : State) (b : Nat) (v : Bob) : (s.setBob b v).tape = s.tape := (rfl)
@[simp] theorem setBob_cells (s : State) (b : Nat) (v : Bob) : (s.setBob b v).cells = s.cells := (rfl)
@[simp] theorem setBob_cons (s : State) (b : Nat) (v : Bob) : (s.setBob b v).cons = s.cons := (rfl)
@[simp] theorem setBob_egress (s : State) (b : Nat) (v : Bob) : (s.setBob b v).egress = s.egress := (rfl)
@[simp] theorem setBob_laneLq (s : State) (b : Nat) (v : Bob) : (s.setBob b v).laneLq = s.laneLq := (rfl)
@[simp] theorem setBob_builds (s : State) (b : Nat) (v : Bob) : (s.setBob b v).builds = s.builds := (rfl)
@[simp] theorem setBob_ports (s : State) (b : Nat) (v : Bob) : (s.setBob b v).ports = s.ports := (rfl)
@[simp] theorem setBob_cans (s : State) (b : Nat) (v : Bob) : (s.setBob b v).cans = s.cans := (rfl)
@[simp] theorem setBob_t1s (s : State) (b : Nat) (v : Bob) : (s.setBob b v).t1s = s.t1s := (rfl)
@[simp] theorem setBob_ups (s : State) (b : Nat) (v : Bob) : (s.setBob b v).ups = s.ups := (rfl)
@[simp] theorem setBob_rings (s : State) (b : Nat) (v : Bob) : (s.setBob b v).rings = s.rings := (rfl)
@[simp] theorem setBob_blocked (s : State) (b : Nat) (v : Bob) : (s.setBob b v).blocked = s.blocked := (rfl)
@[simp] theorem setBob_genOffered (s : State) (b : Nat) (v : Bob) : (s.setBob b v).genOffered = s.genOffered := (rfl)
@[simp] theorem setBob_wbWritten (s : State) (b : Nat) (v : Bob) : (s.setBob b v).wbWritten = s.wbWritten := (rfl)
@[simp] theorem setBob_cmds (s : State) (b : Nat) (v : Bob) : (s.setBob b v).cmds = s.cmds := (rfl)
@[simp] theorem setBob_cuCtx (s : State) (b : Nat) (v : Bob) : (s.setBob b v).cuCtx = s.cuCtx := (rfl)
@[simp] theorem setBob_cus (s : State) (b : Nat) (v : Bob) : (s.setBob b v).cus = s.cus := (rfl)
@[simp] theorem setBob_peer (s : State) (b : Nat) (v : Bob) : (s.setBob b v).peer = s.peer := (rfl)
@[simp] theorem setBob_boot (s : State) (b : Nat) (v : Bob) : (s.setBob b v).boot = s.boot := (rfl)
@[simp] theorem setBob_pw (s : State) (b : Nat) (v : Bob) : (s.setBob b v).pw = s.pw := (rfl)
@[simp] theorem setBob_tap (s : State) (b : Nat) (v : Bob) : (s.setBob b v).tap = s.tap := (rfl)
@[simp] theorem setBob_at_reg (s : State) (b : Nat) (v : Bob) (o : Nat) : (s.setBob b v).reg o = s.reg o := (rfl)
@[simp] theorem setBob_at_liveReg (s : State) (b : Nat) (v : Bob) (o : Nat) : (s.setBob b v).liveReg o = s.liveReg o := (rfl)
@[simp] theorem setBob_at_counter (s : State) (b : Nat) (v : Bob) (j : Nat) : (s.setBob b v).counter j = s.counter j := (rfl)
@[simp] theorem setBob_at_rb (s : State) (b : Nat) (v : Bob) (o i : Nat) : (s.setBob b v).rb o i = s.rb o i := (rfl)
@[simp] theorem setBob_at_rf (s : State) (b : Nat) (v : Bob) (o lo n : Nat) : (s.setBob b v).rf o lo n = s.rf o lo n := (rfl)
@[simp] theorem setBob_at_pin (s : State) (b : Nat) (v : Bob) (a : Nat) : (s.setBob b v).pin a = s.pin a := (rfl)
@[simp] theorem setBob_at_mrg (s : State) (b : Nat) (v : Bob) (m : Nat) : (s.setBob b v).mrg m = s.mrg m := (rfl)
@[simp] theorem setBob_at_eg (s : State) (b : Nat) (v : Bob) (p : Nat) : (s.setBob b v).eg p = s.eg p := (rfl)
@[simp] theorem setBob_at_port (s : State) (b : Nat) (v : Bob) (p : Nat) : (s.setBob b v).port p = s.port p := (rfl)
@[simp] theorem setBob_at_ring (s : State) (b : Nat) (v : Bob) (r : Nat) : (s.setBob b v).ring r = s.ring r := (rfl)
@[simp] theorem setBob_at_upQ (s : State) (b : Nat) (v : Bob) : (s.setBob b v).up? = s.up? := (rfl)
@[simp] theorem setBob_at_awake (s : State) (b : Nat) (v : Bob) : (s.setBob b v).awake = s.awake := (rfl)

/-! ## setPin -/

@[simp] theorem setPin_pending (s : State) (a : Nat) (v : Pin) : (s.setPin a v).pending = s.pending := (rfl)
@[simp] theorem setPin_inReset (s : State) (a : Nat) (v : Pin) : (s.setPin a v).inReset = s.inReset := (rfl)
@[simp] theorem setPin_testEn (s : State) (a : Nat) (v : Pin) : (s.setPin a v).testEn = s.testEn := (rfl)
@[simp] theorem setPin_perst (s : State) (a : Nat) (v : Pin) : (s.setPin a v).perst = s.perst := (rfl)
@[simp] theorem setPin_bme (s : State) (a : Nat) (v : Pin) : (s.setPin a v).bme = s.bme := (rfl)
@[simp] theorem setPin_d3hot (s : State) (a : Nat) (v : Pin) : (s.setPin a v).d3hot = s.d3hot := (rfl)
@[simp] theorem setPin_rank (s : State) (a : Nat) (v : Pin) : (s.setPin a v).rank = s.rank := (rfl)
@[simp] theorem setPin_irq (s : State) (a : Nat) (v : Pin) : (s.setPin a v).irq = s.irq := (rfl)
@[simp] theorem setPin_regs (s : State) (a : Nat) (v : Pin) : (s.setPin a v).regs = s.regs := (rfl)
@[simp] theorem setPin_live (s : State) (a : Nat) (v : Pin) : (s.setPin a v).live = s.live := (rfl)
@[simp] theorem setPin_latch (s : State) (a : Nat) (v : Pin) : (s.setPin a v).latch = s.latch := (rfl)
@[simp] theorem setPin_ctr (s : State) (a : Nat) (v : Pin) : (s.setPin a v).ctr = s.ctr := (rfl)
@[simp] theorem setPin_out (s : State) (a : Nat) (v : Pin) : (s.setPin a v).out = s.out := (rfl)
@[simp] theorem setPin_freeCtr (s : State) (a : Nat) (v : Pin) : (s.setPin a v).freeCtr = s.freeCtr := (rfl)
@[simp] theorem setPin_early (s : State) (a : Nat) (v : Pin) : (s.setPin a v).early = s.early := (rfl)
@[simp] theorem setPin_store (s : State) (a : Nat) (v : Pin) : (s.setPin a v).store = s.store := (rfl)
@[simp] theorem setPin_bobs (s : State) (a : Nat) (v : Pin) : (s.setPin a v).bobs = s.bobs := (rfl)
@[simp] theorem setPin_seqs (s : State) (a : Nat) (v : Pin) : (s.setPin a v).seqs = s.seqs := (rfl)
@[simp] theorem setPin_engs (s : State) (a : Nat) (v : Pin) : (s.setPin a v).engs = s.engs := (rfl)
@[simp] theorem setPin_mrgs (s : State) (a : Nat) (v : Pin) : (s.setPin a v).mrgs = s.mrgs := (rfl)
@[simp] theorem setPin_log (s : State) (a : Nat) (v : Pin) : (s.setPin a v).log = s.log := (rfl)
@[simp] theorem setPin_ckpts (s : State) (a : Nat) (v : Pin) : (s.setPin a v).ckpts = s.ckpts := (rfl)
@[simp] theorem setPin_cuts (s : State) (a : Nat) (v : Pin) : (s.setPin a v).cuts = s.cuts := (rfl)
@[simp] theorem setPin_fan (s : State) (a : Nat) (v : Pin) : (s.setPin a v).fan = s.fan := (rfl)
@[simp] theorem setPin_seam (s : State) (a : Nat) (v : Pin) : (s.setPin a v).seam = s.seam := (rfl)
@[simp] theorem setPin_tape (s : State) (a : Nat) (v : Pin) : (s.setPin a v).tape = s.tape := (rfl)
@[simp] theorem setPin_cells (s : State) (a : Nat) (v : Pin) : (s.setPin a v).cells = s.cells := (rfl)
@[simp] theorem setPin_cons (s : State) (a : Nat) (v : Pin) : (s.setPin a v).cons = s.cons := (rfl)
@[simp] theorem setPin_egress (s : State) (a : Nat) (v : Pin) : (s.setPin a v).egress = s.egress := (rfl)
@[simp] theorem setPin_laneLq (s : State) (a : Nat) (v : Pin) : (s.setPin a v).laneLq = s.laneLq := (rfl)
@[simp] theorem setPin_builds (s : State) (a : Nat) (v : Pin) : (s.setPin a v).builds = s.builds := (rfl)
@[simp] theorem setPin_ports (s : State) (a : Nat) (v : Pin) : (s.setPin a v).ports = s.ports := (rfl)
@[simp] theorem setPin_cans (s : State) (a : Nat) (v : Pin) : (s.setPin a v).cans = s.cans := (rfl)
@[simp] theorem setPin_t1s (s : State) (a : Nat) (v : Pin) : (s.setPin a v).t1s = s.t1s := (rfl)
@[simp] theorem setPin_ups (s : State) (a : Nat) (v : Pin) : (s.setPin a v).ups = s.ups := (rfl)
@[simp] theorem setPin_rings (s : State) (a : Nat) (v : Pin) : (s.setPin a v).rings = s.rings := (rfl)
@[simp] theorem setPin_blocked (s : State) (a : Nat) (v : Pin) : (s.setPin a v).blocked = s.blocked := (rfl)
@[simp] theorem setPin_genOffered (s : State) (a : Nat) (v : Pin) : (s.setPin a v).genOffered = s.genOffered := (rfl)
@[simp] theorem setPin_wbWritten (s : State) (a : Nat) (v : Pin) : (s.setPin a v).wbWritten = s.wbWritten := (rfl)
@[simp] theorem setPin_cmds (s : State) (a : Nat) (v : Pin) : (s.setPin a v).cmds = s.cmds := (rfl)
@[simp] theorem setPin_cuCtx (s : State) (a : Nat) (v : Pin) : (s.setPin a v).cuCtx = s.cuCtx := (rfl)
@[simp] theorem setPin_cus (s : State) (a : Nat) (v : Pin) : (s.setPin a v).cus = s.cus := (rfl)
@[simp] theorem setPin_peer (s : State) (a : Nat) (v : Pin) : (s.setPin a v).peer = s.peer := (rfl)
@[simp] theorem setPin_boot (s : State) (a : Nat) (v : Pin) : (s.setPin a v).boot = s.boot := (rfl)
@[simp] theorem setPin_pw (s : State) (a : Nat) (v : Pin) : (s.setPin a v).pw = s.pw := (rfl)
@[simp] theorem setPin_tap (s : State) (a : Nat) (v : Pin) : (s.setPin a v).tap = s.tap := (rfl)
@[simp] theorem setPin_at_reg (s : State) (a : Nat) (v : Pin) (o : Nat) : (s.setPin a v).reg o = s.reg o := (rfl)
@[simp] theorem setPin_at_liveReg (s : State) (a : Nat) (v : Pin) (o : Nat) : (s.setPin a v).liveReg o = s.liveReg o := (rfl)
@[simp] theorem setPin_at_counter (s : State) (a : Nat) (v : Pin) (j : Nat) : (s.setPin a v).counter j = s.counter j := (rfl)
@[simp] theorem setPin_at_rb (s : State) (a : Nat) (v : Pin) (o i : Nat) : (s.setPin a v).rb o i = s.rb o i := (rfl)
@[simp] theorem setPin_at_rf (s : State) (a : Nat) (v : Pin) (o lo n : Nat) : (s.setPin a v).rf o lo n = s.rf o lo n := (rfl)
@[simp] theorem setPin_at_bob (s : State) (a : Nat) (v : Pin) (b : Nat) : (s.setPin a v).bob b = s.bob b := (rfl)
@[simp] theorem setPin_at_mrg (s : State) (a : Nat) (v : Pin) (m : Nat) : (s.setPin a v).mrg m = s.mrg m := (rfl)
@[simp] theorem setPin_at_eg (s : State) (a : Nat) (v : Pin) (p : Nat) : (s.setPin a v).eg p = s.eg p := (rfl)
@[simp] theorem setPin_at_port (s : State) (a : Nat) (v : Pin) (p : Nat) : (s.setPin a v).port p = s.port p := (rfl)
@[simp] theorem setPin_at_ring (s : State) (a : Nat) (v : Pin) (r : Nat) : (s.setPin a v).ring r = s.ring r := (rfl)
@[simp] theorem setPin_at_upQ (s : State) (a : Nat) (v : Pin) : (s.setPin a v).up? = s.up? := (rfl)
@[simp] theorem setPin_at_awake (s : State) (a : Nat) (v : Pin) : (s.setPin a v).awake = s.awake := (rfl)

/-! ## setEng -/

@[simp] theorem setEng_pending (s : State) (e : Nat) (v : Eng) : (s.setEng e v).pending = s.pending := (rfl)
@[simp] theorem setEng_inReset (s : State) (e : Nat) (v : Eng) : (s.setEng e v).inReset = s.inReset := (rfl)
@[simp] theorem setEng_testEn (s : State) (e : Nat) (v : Eng) : (s.setEng e v).testEn = s.testEn := (rfl)
@[simp] theorem setEng_perst (s : State) (e : Nat) (v : Eng) : (s.setEng e v).perst = s.perst := (rfl)
@[simp] theorem setEng_bme (s : State) (e : Nat) (v : Eng) : (s.setEng e v).bme = s.bme := (rfl)
@[simp] theorem setEng_d3hot (s : State) (e : Nat) (v : Eng) : (s.setEng e v).d3hot = s.d3hot := (rfl)
@[simp] theorem setEng_rank (s : State) (e : Nat) (v : Eng) : (s.setEng e v).rank = s.rank := (rfl)
@[simp] theorem setEng_irq (s : State) (e : Nat) (v : Eng) : (s.setEng e v).irq = s.irq := (rfl)
@[simp] theorem setEng_regs (s : State) (e : Nat) (v : Eng) : (s.setEng e v).regs = s.regs := (rfl)
@[simp] theorem setEng_live (s : State) (e : Nat) (v : Eng) : (s.setEng e v).live = s.live := (rfl)
@[simp] theorem setEng_latch (s : State) (e : Nat) (v : Eng) : (s.setEng e v).latch = s.latch := (rfl)
@[simp] theorem setEng_ctr (s : State) (e : Nat) (v : Eng) : (s.setEng e v).ctr = s.ctr := (rfl)
@[simp] theorem setEng_out (s : State) (e : Nat) (v : Eng) : (s.setEng e v).out = s.out := (rfl)
@[simp] theorem setEng_freeCtr (s : State) (e : Nat) (v : Eng) : (s.setEng e v).freeCtr = s.freeCtr := (rfl)
@[simp] theorem setEng_early (s : State) (e : Nat) (v : Eng) : (s.setEng e v).early = s.early := (rfl)
@[simp] theorem setEng_store (s : State) (e : Nat) (v : Eng) : (s.setEng e v).store = s.store := (rfl)
@[simp] theorem setEng_bobs (s : State) (e : Nat) (v : Eng) : (s.setEng e v).bobs = s.bobs := (rfl)
@[simp] theorem setEng_pins (s : State) (e : Nat) (v : Eng) : (s.setEng e v).pins = s.pins := (rfl)
@[simp] theorem setEng_seqs (s : State) (e : Nat) (v : Eng) : (s.setEng e v).seqs = s.seqs := (rfl)
@[simp] theorem setEng_mrgs (s : State) (e : Nat) (v : Eng) : (s.setEng e v).mrgs = s.mrgs := (rfl)
@[simp] theorem setEng_log (s : State) (e : Nat) (v : Eng) : (s.setEng e v).log = s.log := (rfl)
@[simp] theorem setEng_ckpts (s : State) (e : Nat) (v : Eng) : (s.setEng e v).ckpts = s.ckpts := (rfl)
@[simp] theorem setEng_cuts (s : State) (e : Nat) (v : Eng) : (s.setEng e v).cuts = s.cuts := (rfl)
@[simp] theorem setEng_fan (s : State) (e : Nat) (v : Eng) : (s.setEng e v).fan = s.fan := (rfl)
@[simp] theorem setEng_seam (s : State) (e : Nat) (v : Eng) : (s.setEng e v).seam = s.seam := (rfl)
@[simp] theorem setEng_tape (s : State) (e : Nat) (v : Eng) : (s.setEng e v).tape = s.tape := (rfl)
@[simp] theorem setEng_cells (s : State) (e : Nat) (v : Eng) : (s.setEng e v).cells = s.cells := (rfl)
@[simp] theorem setEng_cons (s : State) (e : Nat) (v : Eng) : (s.setEng e v).cons = s.cons := (rfl)
@[simp] theorem setEng_egress (s : State) (e : Nat) (v : Eng) : (s.setEng e v).egress = s.egress := (rfl)
@[simp] theorem setEng_laneLq (s : State) (e : Nat) (v : Eng) : (s.setEng e v).laneLq = s.laneLq := (rfl)
@[simp] theorem setEng_builds (s : State) (e : Nat) (v : Eng) : (s.setEng e v).builds = s.builds := (rfl)
@[simp] theorem setEng_ports (s : State) (e : Nat) (v : Eng) : (s.setEng e v).ports = s.ports := (rfl)
@[simp] theorem setEng_cans (s : State) (e : Nat) (v : Eng) : (s.setEng e v).cans = s.cans := (rfl)
@[simp] theorem setEng_t1s (s : State) (e : Nat) (v : Eng) : (s.setEng e v).t1s = s.t1s := (rfl)
@[simp] theorem setEng_ups (s : State) (e : Nat) (v : Eng) : (s.setEng e v).ups = s.ups := (rfl)
@[simp] theorem setEng_rings (s : State) (e : Nat) (v : Eng) : (s.setEng e v).rings = s.rings := (rfl)
@[simp] theorem setEng_blocked (s : State) (e : Nat) (v : Eng) : (s.setEng e v).blocked = s.blocked := (rfl)
@[simp] theorem setEng_genOffered (s : State) (e : Nat) (v : Eng) : (s.setEng e v).genOffered = s.genOffered := (rfl)
@[simp] theorem setEng_wbWritten (s : State) (e : Nat) (v : Eng) : (s.setEng e v).wbWritten = s.wbWritten := (rfl)
@[simp] theorem setEng_cmds (s : State) (e : Nat) (v : Eng) : (s.setEng e v).cmds = s.cmds := (rfl)
@[simp] theorem setEng_cuCtx (s : State) (e : Nat) (v : Eng) : (s.setEng e v).cuCtx = s.cuCtx := (rfl)
@[simp] theorem setEng_cus (s : State) (e : Nat) (v : Eng) : (s.setEng e v).cus = s.cus := (rfl)
@[simp] theorem setEng_peer (s : State) (e : Nat) (v : Eng) : (s.setEng e v).peer = s.peer := (rfl)
@[simp] theorem setEng_boot (s : State) (e : Nat) (v : Eng) : (s.setEng e v).boot = s.boot := (rfl)
@[simp] theorem setEng_pw (s : State) (e : Nat) (v : Eng) : (s.setEng e v).pw = s.pw := (rfl)
@[simp] theorem setEng_tap (s : State) (e : Nat) (v : Eng) : (s.setEng e v).tap = s.tap := (rfl)
@[simp] theorem setEng_at_reg (s : State) (e : Nat) (v : Eng) (o : Nat) : (s.setEng e v).reg o = s.reg o := (rfl)
@[simp] theorem setEng_at_liveReg (s : State) (e : Nat) (v : Eng) (o : Nat) : (s.setEng e v).liveReg o = s.liveReg o := (rfl)
@[simp] theorem setEng_at_counter (s : State) (e : Nat) (v : Eng) (j : Nat) : (s.setEng e v).counter j = s.counter j := (rfl)
@[simp] theorem setEng_at_rb (s : State) (e : Nat) (v : Eng) (o i : Nat) : (s.setEng e v).rb o i = s.rb o i := (rfl)
@[simp] theorem setEng_at_rf (s : State) (e : Nat) (v : Eng) (o lo n : Nat) : (s.setEng e v).rf o lo n = s.rf o lo n := (rfl)
@[simp] theorem setEng_at_bob (s : State) (e : Nat) (v : Eng) (b : Nat) : (s.setEng e v).bob b = s.bob b := (rfl)
@[simp] theorem setEng_at_pin (s : State) (e : Nat) (v : Eng) (a : Nat) : (s.setEng e v).pin a = s.pin a := (rfl)
@[simp] theorem setEng_at_mrg (s : State) (e : Nat) (v : Eng) (m : Nat) : (s.setEng e v).mrg m = s.mrg m := (rfl)
@[simp] theorem setEng_at_eg (s : State) (e : Nat) (v : Eng) (p : Nat) : (s.setEng e v).eg p = s.eg p := (rfl)
@[simp] theorem setEng_at_port (s : State) (e : Nat) (v : Eng) (p : Nat) : (s.setEng e v).port p = s.port p := (rfl)
@[simp] theorem setEng_at_ring (s : State) (e : Nat) (v : Eng) (r : Nat) : (s.setEng e v).ring r = s.ring r := (rfl)
@[simp] theorem setEng_at_upQ (s : State) (e : Nat) (v : Eng) : (s.setEng e v).up? = s.up? := (rfl)
@[simp] theorem setEng_at_awake (s : State) (e : Nat) (v : Eng) : (s.setEng e v).awake = s.awake := (rfl)

/-! ## setMrg -/

@[simp] theorem setMrg_pending (s : State) (m : Nat) (v : Merger) : (s.setMrg m v).pending = s.pending := (rfl)
@[simp] theorem setMrg_inReset (s : State) (m : Nat) (v : Merger) : (s.setMrg m v).inReset = s.inReset := (rfl)
@[simp] theorem setMrg_testEn (s : State) (m : Nat) (v : Merger) : (s.setMrg m v).testEn = s.testEn := (rfl)
@[simp] theorem setMrg_perst (s : State) (m : Nat) (v : Merger) : (s.setMrg m v).perst = s.perst := (rfl)
@[simp] theorem setMrg_bme (s : State) (m : Nat) (v : Merger) : (s.setMrg m v).bme = s.bme := (rfl)
@[simp] theorem setMrg_d3hot (s : State) (m : Nat) (v : Merger) : (s.setMrg m v).d3hot = s.d3hot := (rfl)
@[simp] theorem setMrg_rank (s : State) (m : Nat) (v : Merger) : (s.setMrg m v).rank = s.rank := (rfl)
@[simp] theorem setMrg_irq (s : State) (m : Nat) (v : Merger) : (s.setMrg m v).irq = s.irq := (rfl)
@[simp] theorem setMrg_regs (s : State) (m : Nat) (v : Merger) : (s.setMrg m v).regs = s.regs := (rfl)
@[simp] theorem setMrg_live (s : State) (m : Nat) (v : Merger) : (s.setMrg m v).live = s.live := (rfl)
@[simp] theorem setMrg_latch (s : State) (m : Nat) (v : Merger) : (s.setMrg m v).latch = s.latch := (rfl)
@[simp] theorem setMrg_ctr (s : State) (m : Nat) (v : Merger) : (s.setMrg m v).ctr = s.ctr := (rfl)
@[simp] theorem setMrg_out (s : State) (m : Nat) (v : Merger) : (s.setMrg m v).out = s.out := (rfl)
@[simp] theorem setMrg_freeCtr (s : State) (m : Nat) (v : Merger) : (s.setMrg m v).freeCtr = s.freeCtr := (rfl)
@[simp] theorem setMrg_early (s : State) (m : Nat) (v : Merger) : (s.setMrg m v).early = s.early := (rfl)
@[simp] theorem setMrg_store (s : State) (m : Nat) (v : Merger) : (s.setMrg m v).store = s.store := (rfl)
@[simp] theorem setMrg_bobs (s : State) (m : Nat) (v : Merger) : (s.setMrg m v).bobs = s.bobs := (rfl)
@[simp] theorem setMrg_pins (s : State) (m : Nat) (v : Merger) : (s.setMrg m v).pins = s.pins := (rfl)
@[simp] theorem setMrg_seqs (s : State) (m : Nat) (v : Merger) : (s.setMrg m v).seqs = s.seqs := (rfl)
@[simp] theorem setMrg_engs (s : State) (m : Nat) (v : Merger) : (s.setMrg m v).engs = s.engs := (rfl)
@[simp] theorem setMrg_log (s : State) (m : Nat) (v : Merger) : (s.setMrg m v).log = s.log := (rfl)
@[simp] theorem setMrg_ckpts (s : State) (m : Nat) (v : Merger) : (s.setMrg m v).ckpts = s.ckpts := (rfl)
@[simp] theorem setMrg_cuts (s : State) (m : Nat) (v : Merger) : (s.setMrg m v).cuts = s.cuts := (rfl)
@[simp] theorem setMrg_fan (s : State) (m : Nat) (v : Merger) : (s.setMrg m v).fan = s.fan := (rfl)
@[simp] theorem setMrg_seam (s : State) (m : Nat) (v : Merger) : (s.setMrg m v).seam = s.seam := (rfl)
@[simp] theorem setMrg_tape (s : State) (m : Nat) (v : Merger) : (s.setMrg m v).tape = s.tape := (rfl)
@[simp] theorem setMrg_cells (s : State) (m : Nat) (v : Merger) : (s.setMrg m v).cells = s.cells := (rfl)
@[simp] theorem setMrg_cons (s : State) (m : Nat) (v : Merger) : (s.setMrg m v).cons = s.cons := (rfl)
@[simp] theorem setMrg_egress (s : State) (m : Nat) (v : Merger) : (s.setMrg m v).egress = s.egress := (rfl)
@[simp] theorem setMrg_laneLq (s : State) (m : Nat) (v : Merger) : (s.setMrg m v).laneLq = s.laneLq := (rfl)
@[simp] theorem setMrg_builds (s : State) (m : Nat) (v : Merger) : (s.setMrg m v).builds = s.builds := (rfl)
@[simp] theorem setMrg_ports (s : State) (m : Nat) (v : Merger) : (s.setMrg m v).ports = s.ports := (rfl)
@[simp] theorem setMrg_cans (s : State) (m : Nat) (v : Merger) : (s.setMrg m v).cans = s.cans := (rfl)
@[simp] theorem setMrg_t1s (s : State) (m : Nat) (v : Merger) : (s.setMrg m v).t1s = s.t1s := (rfl)
@[simp] theorem setMrg_ups (s : State) (m : Nat) (v : Merger) : (s.setMrg m v).ups = s.ups := (rfl)
@[simp] theorem setMrg_rings (s : State) (m : Nat) (v : Merger) : (s.setMrg m v).rings = s.rings := (rfl)
@[simp] theorem setMrg_blocked (s : State) (m : Nat) (v : Merger) : (s.setMrg m v).blocked = s.blocked := (rfl)
@[simp] theorem setMrg_genOffered (s : State) (m : Nat) (v : Merger) : (s.setMrg m v).genOffered = s.genOffered := (rfl)
@[simp] theorem setMrg_wbWritten (s : State) (m : Nat) (v : Merger) : (s.setMrg m v).wbWritten = s.wbWritten := (rfl)
@[simp] theorem setMrg_cmds (s : State) (m : Nat) (v : Merger) : (s.setMrg m v).cmds = s.cmds := (rfl)
@[simp] theorem setMrg_cuCtx (s : State) (m : Nat) (v : Merger) : (s.setMrg m v).cuCtx = s.cuCtx := (rfl)
@[simp] theorem setMrg_cus (s : State) (m : Nat) (v : Merger) : (s.setMrg m v).cus = s.cus := (rfl)
@[simp] theorem setMrg_peer (s : State) (m : Nat) (v : Merger) : (s.setMrg m v).peer = s.peer := (rfl)
@[simp] theorem setMrg_boot (s : State) (m : Nat) (v : Merger) : (s.setMrg m v).boot = s.boot := (rfl)
@[simp] theorem setMrg_pw (s : State) (m : Nat) (v : Merger) : (s.setMrg m v).pw = s.pw := (rfl)
@[simp] theorem setMrg_tap (s : State) (m : Nat) (v : Merger) : (s.setMrg m v).tap = s.tap := (rfl)
@[simp] theorem setMrg_at_reg (s : State) (m : Nat) (v : Merger) (o : Nat) : (s.setMrg m v).reg o = s.reg o := (rfl)
@[simp] theorem setMrg_at_liveReg (s : State) (m : Nat) (v : Merger) (o : Nat) : (s.setMrg m v).liveReg o = s.liveReg o := (rfl)
@[simp] theorem setMrg_at_counter (s : State) (m : Nat) (v : Merger) (j : Nat) : (s.setMrg m v).counter j = s.counter j := (rfl)
@[simp] theorem setMrg_at_rb (s : State) (m : Nat) (v : Merger) (o i : Nat) : (s.setMrg m v).rb o i = s.rb o i := (rfl)
@[simp] theorem setMrg_at_rf (s : State) (m : Nat) (v : Merger) (o lo n : Nat) : (s.setMrg m v).rf o lo n = s.rf o lo n := (rfl)
@[simp] theorem setMrg_at_bob (s : State) (m : Nat) (v : Merger) (b : Nat) : (s.setMrg m v).bob b = s.bob b := (rfl)
@[simp] theorem setMrg_at_pin (s : State) (m : Nat) (v : Merger) (a : Nat) : (s.setMrg m v).pin a = s.pin a := (rfl)
@[simp] theorem setMrg_at_eg (s : State) (m : Nat) (v : Merger) (p : Nat) : (s.setMrg m v).eg p = s.eg p := (rfl)
@[simp] theorem setMrg_at_port (s : State) (m : Nat) (v : Merger) (p : Nat) : (s.setMrg m v).port p = s.port p := (rfl)
@[simp] theorem setMrg_at_ring (s : State) (m : Nat) (v : Merger) (r : Nat) : (s.setMrg m v).ring r = s.ring r := (rfl)
@[simp] theorem setMrg_at_upQ (s : State) (m : Nat) (v : Merger) : (s.setMrg m v).up? = s.up? := (rfl)
@[simp] theorem setMrg_at_awake (s : State) (m : Nat) (v : Merger) : (s.setMrg m v).awake = s.awake := (rfl)

/-! ## setEg -/

@[simp] theorem setEg_pending (s : State) (p : Nat) (v : Egress) : (s.setEg p v).pending = s.pending := (rfl)
@[simp] theorem setEg_inReset (s : State) (p : Nat) (v : Egress) : (s.setEg p v).inReset = s.inReset := (rfl)
@[simp] theorem setEg_testEn (s : State) (p : Nat) (v : Egress) : (s.setEg p v).testEn = s.testEn := (rfl)
@[simp] theorem setEg_perst (s : State) (p : Nat) (v : Egress) : (s.setEg p v).perst = s.perst := (rfl)
@[simp] theorem setEg_bme (s : State) (p : Nat) (v : Egress) : (s.setEg p v).bme = s.bme := (rfl)
@[simp] theorem setEg_d3hot (s : State) (p : Nat) (v : Egress) : (s.setEg p v).d3hot = s.d3hot := (rfl)
@[simp] theorem setEg_rank (s : State) (p : Nat) (v : Egress) : (s.setEg p v).rank = s.rank := (rfl)
@[simp] theorem setEg_irq (s : State) (p : Nat) (v : Egress) : (s.setEg p v).irq = s.irq := (rfl)
@[simp] theorem setEg_regs (s : State) (p : Nat) (v : Egress) : (s.setEg p v).regs = s.regs := (rfl)
@[simp] theorem setEg_live (s : State) (p : Nat) (v : Egress) : (s.setEg p v).live = s.live := (rfl)
@[simp] theorem setEg_latch (s : State) (p : Nat) (v : Egress) : (s.setEg p v).latch = s.latch := (rfl)
@[simp] theorem setEg_ctr (s : State) (p : Nat) (v : Egress) : (s.setEg p v).ctr = s.ctr := (rfl)
@[simp] theorem setEg_out (s : State) (p : Nat) (v : Egress) : (s.setEg p v).out = s.out := (rfl)
@[simp] theorem setEg_freeCtr (s : State) (p : Nat) (v : Egress) : (s.setEg p v).freeCtr = s.freeCtr := (rfl)
@[simp] theorem setEg_early (s : State) (p : Nat) (v : Egress) : (s.setEg p v).early = s.early := (rfl)
@[simp] theorem setEg_store (s : State) (p : Nat) (v : Egress) : (s.setEg p v).store = s.store := (rfl)
@[simp] theorem setEg_bobs (s : State) (p : Nat) (v : Egress) : (s.setEg p v).bobs = s.bobs := (rfl)
@[simp] theorem setEg_pins (s : State) (p : Nat) (v : Egress) : (s.setEg p v).pins = s.pins := (rfl)
@[simp] theorem setEg_seqs (s : State) (p : Nat) (v : Egress) : (s.setEg p v).seqs = s.seqs := (rfl)
@[simp] theorem setEg_engs (s : State) (p : Nat) (v : Egress) : (s.setEg p v).engs = s.engs := (rfl)
@[simp] theorem setEg_mrgs (s : State) (p : Nat) (v : Egress) : (s.setEg p v).mrgs = s.mrgs := (rfl)
@[simp] theorem setEg_log (s : State) (p : Nat) (v : Egress) : (s.setEg p v).log = s.log := (rfl)
@[simp] theorem setEg_ckpts (s : State) (p : Nat) (v : Egress) : (s.setEg p v).ckpts = s.ckpts := (rfl)
@[simp] theorem setEg_cuts (s : State) (p : Nat) (v : Egress) : (s.setEg p v).cuts = s.cuts := (rfl)
@[simp] theorem setEg_fan (s : State) (p : Nat) (v : Egress) : (s.setEg p v).fan = s.fan := (rfl)
@[simp] theorem setEg_seam (s : State) (p : Nat) (v : Egress) : (s.setEg p v).seam = s.seam := (rfl)
@[simp] theorem setEg_tape (s : State) (p : Nat) (v : Egress) : (s.setEg p v).tape = s.tape := (rfl)
@[simp] theorem setEg_cells (s : State) (p : Nat) (v : Egress) : (s.setEg p v).cells = s.cells := (rfl)
@[simp] theorem setEg_cons (s : State) (p : Nat) (v : Egress) : (s.setEg p v).cons = s.cons := (rfl)
@[simp] theorem setEg_laneLq (s : State) (p : Nat) (v : Egress) : (s.setEg p v).laneLq = s.laneLq := (rfl)
@[simp] theorem setEg_builds (s : State) (p : Nat) (v : Egress) : (s.setEg p v).builds = s.builds := (rfl)
@[simp] theorem setEg_ports (s : State) (p : Nat) (v : Egress) : (s.setEg p v).ports = s.ports := (rfl)
@[simp] theorem setEg_cans (s : State) (p : Nat) (v : Egress) : (s.setEg p v).cans = s.cans := (rfl)
@[simp] theorem setEg_t1s (s : State) (p : Nat) (v : Egress) : (s.setEg p v).t1s = s.t1s := (rfl)
@[simp] theorem setEg_ups (s : State) (p : Nat) (v : Egress) : (s.setEg p v).ups = s.ups := (rfl)
@[simp] theorem setEg_rings (s : State) (p : Nat) (v : Egress) : (s.setEg p v).rings = s.rings := (rfl)
@[simp] theorem setEg_blocked (s : State) (p : Nat) (v : Egress) : (s.setEg p v).blocked = s.blocked := (rfl)
@[simp] theorem setEg_genOffered (s : State) (p : Nat) (v : Egress) : (s.setEg p v).genOffered = s.genOffered := (rfl)
@[simp] theorem setEg_wbWritten (s : State) (p : Nat) (v : Egress) : (s.setEg p v).wbWritten = s.wbWritten := (rfl)
@[simp] theorem setEg_cmds (s : State) (p : Nat) (v : Egress) : (s.setEg p v).cmds = s.cmds := (rfl)
@[simp] theorem setEg_cuCtx (s : State) (p : Nat) (v : Egress) : (s.setEg p v).cuCtx = s.cuCtx := (rfl)
@[simp] theorem setEg_cus (s : State) (p : Nat) (v : Egress) : (s.setEg p v).cus = s.cus := (rfl)
@[simp] theorem setEg_peer (s : State) (p : Nat) (v : Egress) : (s.setEg p v).peer = s.peer := (rfl)
@[simp] theorem setEg_boot (s : State) (p : Nat) (v : Egress) : (s.setEg p v).boot = s.boot := (rfl)
@[simp] theorem setEg_pw (s : State) (p : Nat) (v : Egress) : (s.setEg p v).pw = s.pw := (rfl)
@[simp] theorem setEg_tap (s : State) (p : Nat) (v : Egress) : (s.setEg p v).tap = s.tap := (rfl)
@[simp] theorem setEg_at_reg (s : State) (p : Nat) (v : Egress) (o : Nat) : (s.setEg p v).reg o = s.reg o := (rfl)
@[simp] theorem setEg_at_liveReg (s : State) (p : Nat) (v : Egress) (o : Nat) : (s.setEg p v).liveReg o = s.liveReg o := (rfl)
@[simp] theorem setEg_at_counter (s : State) (p : Nat) (v : Egress) (j : Nat) : (s.setEg p v).counter j = s.counter j := (rfl)
@[simp] theorem setEg_at_rb (s : State) (p : Nat) (v : Egress) (o i : Nat) : (s.setEg p v).rb o i = s.rb o i := (rfl)
@[simp] theorem setEg_at_rf (s : State) (p : Nat) (v : Egress) (o lo n : Nat) : (s.setEg p v).rf o lo n = s.rf o lo n := (rfl)
@[simp] theorem setEg_at_bob (s : State) (p : Nat) (v : Egress) (b : Nat) : (s.setEg p v).bob b = s.bob b := (rfl)
@[simp] theorem setEg_at_pin (s : State) (p : Nat) (v : Egress) (a : Nat) : (s.setEg p v).pin a = s.pin a := (rfl)
@[simp] theorem setEg_at_mrg (s : State) (p : Nat) (v : Egress) (m : Nat) : (s.setEg p v).mrg m = s.mrg m := (rfl)
@[simp] theorem setEg_at_port (s : State) (p : Nat) (v : Egress) (p' : Nat) : (s.setEg p v).port p' = s.port p' := (rfl)
@[simp] theorem setEg_at_ring (s : State) (p : Nat) (v : Egress) (r : Nat) : (s.setEg p v).ring r = s.ring r := (rfl)
@[simp] theorem setEg_at_upQ (s : State) (p : Nat) (v : Egress) : (s.setEg p v).up? = s.up? := (rfl)
@[simp] theorem setEg_at_awake (s : State) (p : Nat) (v : Egress) : (s.setEg p v).awake = s.awake := (rfl)

/-! ## setPort -/

@[simp] theorem setPort_pending (s : State) (p : Nat) (v : Port) : (s.setPort p v).pending = s.pending := (rfl)
@[simp] theorem setPort_inReset (s : State) (p : Nat) (v : Port) : (s.setPort p v).inReset = s.inReset := (rfl)
@[simp] theorem setPort_testEn (s : State) (p : Nat) (v : Port) : (s.setPort p v).testEn = s.testEn := (rfl)
@[simp] theorem setPort_perst (s : State) (p : Nat) (v : Port) : (s.setPort p v).perst = s.perst := (rfl)
@[simp] theorem setPort_bme (s : State) (p : Nat) (v : Port) : (s.setPort p v).bme = s.bme := (rfl)
@[simp] theorem setPort_d3hot (s : State) (p : Nat) (v : Port) : (s.setPort p v).d3hot = s.d3hot := (rfl)
@[simp] theorem setPort_rank (s : State) (p : Nat) (v : Port) : (s.setPort p v).rank = s.rank := (rfl)
@[simp] theorem setPort_irq (s : State) (p : Nat) (v : Port) : (s.setPort p v).irq = s.irq := (rfl)
@[simp] theorem setPort_regs (s : State) (p : Nat) (v : Port) : (s.setPort p v).regs = s.regs := (rfl)
@[simp] theorem setPort_live (s : State) (p : Nat) (v : Port) : (s.setPort p v).live = s.live := (rfl)
@[simp] theorem setPort_latch (s : State) (p : Nat) (v : Port) : (s.setPort p v).latch = s.latch := (rfl)
@[simp] theorem setPort_ctr (s : State) (p : Nat) (v : Port) : (s.setPort p v).ctr = s.ctr := (rfl)
@[simp] theorem setPort_out (s : State) (p : Nat) (v : Port) : (s.setPort p v).out = s.out := (rfl)
@[simp] theorem setPort_freeCtr (s : State) (p : Nat) (v : Port) : (s.setPort p v).freeCtr = s.freeCtr := (rfl)
@[simp] theorem setPort_early (s : State) (p : Nat) (v : Port) : (s.setPort p v).early = s.early := (rfl)
@[simp] theorem setPort_store (s : State) (p : Nat) (v : Port) : (s.setPort p v).store = s.store := (rfl)
@[simp] theorem setPort_bobs (s : State) (p : Nat) (v : Port) : (s.setPort p v).bobs = s.bobs := (rfl)
@[simp] theorem setPort_pins (s : State) (p : Nat) (v : Port) : (s.setPort p v).pins = s.pins := (rfl)
@[simp] theorem setPort_seqs (s : State) (p : Nat) (v : Port) : (s.setPort p v).seqs = s.seqs := (rfl)
@[simp] theorem setPort_engs (s : State) (p : Nat) (v : Port) : (s.setPort p v).engs = s.engs := (rfl)
@[simp] theorem setPort_mrgs (s : State) (p : Nat) (v : Port) : (s.setPort p v).mrgs = s.mrgs := (rfl)
@[simp] theorem setPort_log (s : State) (p : Nat) (v : Port) : (s.setPort p v).log = s.log := (rfl)
@[simp] theorem setPort_ckpts (s : State) (p : Nat) (v : Port) : (s.setPort p v).ckpts = s.ckpts := (rfl)
@[simp] theorem setPort_cuts (s : State) (p : Nat) (v : Port) : (s.setPort p v).cuts = s.cuts := (rfl)
@[simp] theorem setPort_fan (s : State) (p : Nat) (v : Port) : (s.setPort p v).fan = s.fan := (rfl)
@[simp] theorem setPort_seam (s : State) (p : Nat) (v : Port) : (s.setPort p v).seam = s.seam := (rfl)
@[simp] theorem setPort_tape (s : State) (p : Nat) (v : Port) : (s.setPort p v).tape = s.tape := (rfl)
@[simp] theorem setPort_cells (s : State) (p : Nat) (v : Port) : (s.setPort p v).cells = s.cells := (rfl)
@[simp] theorem setPort_cons (s : State) (p : Nat) (v : Port) : (s.setPort p v).cons = s.cons := (rfl)
@[simp] theorem setPort_egress (s : State) (p : Nat) (v : Port) : (s.setPort p v).egress = s.egress := (rfl)
@[simp] theorem setPort_laneLq (s : State) (p : Nat) (v : Port) : (s.setPort p v).laneLq = s.laneLq := (rfl)
@[simp] theorem setPort_builds (s : State) (p : Nat) (v : Port) : (s.setPort p v).builds = s.builds := (rfl)
@[simp] theorem setPort_cans (s : State) (p : Nat) (v : Port) : (s.setPort p v).cans = s.cans := (rfl)
@[simp] theorem setPort_t1s (s : State) (p : Nat) (v : Port) : (s.setPort p v).t1s = s.t1s := (rfl)
@[simp] theorem setPort_ups (s : State) (p : Nat) (v : Port) : (s.setPort p v).ups = s.ups := (rfl)
@[simp] theorem setPort_rings (s : State) (p : Nat) (v : Port) : (s.setPort p v).rings = s.rings := (rfl)
@[simp] theorem setPort_blocked (s : State) (p : Nat) (v : Port) : (s.setPort p v).blocked = s.blocked := (rfl)
@[simp] theorem setPort_genOffered (s : State) (p : Nat) (v : Port) : (s.setPort p v).genOffered = s.genOffered := (rfl)
@[simp] theorem setPort_wbWritten (s : State) (p : Nat) (v : Port) : (s.setPort p v).wbWritten = s.wbWritten := (rfl)
@[simp] theorem setPort_cmds (s : State) (p : Nat) (v : Port) : (s.setPort p v).cmds = s.cmds := (rfl)
@[simp] theorem setPort_cuCtx (s : State) (p : Nat) (v : Port) : (s.setPort p v).cuCtx = s.cuCtx := (rfl)
@[simp] theorem setPort_cus (s : State) (p : Nat) (v : Port) : (s.setPort p v).cus = s.cus := (rfl)
@[simp] theorem setPort_peer (s : State) (p : Nat) (v : Port) : (s.setPort p v).peer = s.peer := (rfl)
@[simp] theorem setPort_boot (s : State) (p : Nat) (v : Port) : (s.setPort p v).boot = s.boot := (rfl)
@[simp] theorem setPort_pw (s : State) (p : Nat) (v : Port) : (s.setPort p v).pw = s.pw := (rfl)
@[simp] theorem setPort_tap (s : State) (p : Nat) (v : Port) : (s.setPort p v).tap = s.tap := (rfl)
@[simp] theorem setPort_at_reg (s : State) (p : Nat) (v : Port) (o : Nat) : (s.setPort p v).reg o = s.reg o := (rfl)
@[simp] theorem setPort_at_liveReg (s : State) (p : Nat) (v : Port) (o : Nat) : (s.setPort p v).liveReg o = s.liveReg o := (rfl)
@[simp] theorem setPort_at_counter (s : State) (p : Nat) (v : Port) (j : Nat) : (s.setPort p v).counter j = s.counter j := (rfl)
@[simp] theorem setPort_at_rb (s : State) (p : Nat) (v : Port) (o i : Nat) : (s.setPort p v).rb o i = s.rb o i := (rfl)
@[simp] theorem setPort_at_rf (s : State) (p : Nat) (v : Port) (o lo n : Nat) : (s.setPort p v).rf o lo n = s.rf o lo n := (rfl)
@[simp] theorem setPort_at_bob (s : State) (p : Nat) (v : Port) (b : Nat) : (s.setPort p v).bob b = s.bob b := (rfl)
@[simp] theorem setPort_at_pin (s : State) (p : Nat) (v : Port) (a : Nat) : (s.setPort p v).pin a = s.pin a := (rfl)
@[simp] theorem setPort_at_mrg (s : State) (p : Nat) (v : Port) (m : Nat) : (s.setPort p v).mrg m = s.mrg m := (rfl)
@[simp] theorem setPort_at_eg (s : State) (p : Nat) (v : Port) (p' : Nat) : (s.setPort p v).eg p' = s.eg p' := (rfl)
@[simp] theorem setPort_at_ring (s : State) (p : Nat) (v : Port) (r : Nat) : (s.setPort p v).ring r = s.ring r := (rfl)
@[simp] theorem setPort_at_upQ (s : State) (p : Nat) (v : Port) : (s.setPort p v).up? = s.up? := (rfl)
@[simp] theorem setPort_at_awake (s : State) (p : Nat) (v : Port) : (s.setPort p v).awake = s.awake := (rfl)

/-! ## setCan -/

@[simp] theorem setCan_pending (s : State) (n : Nat) (v : Can) : (s.setCan n v).pending = s.pending := (rfl)
@[simp] theorem setCan_inReset (s : State) (n : Nat) (v : Can) : (s.setCan n v).inReset = s.inReset := (rfl)
@[simp] theorem setCan_testEn (s : State) (n : Nat) (v : Can) : (s.setCan n v).testEn = s.testEn := (rfl)
@[simp] theorem setCan_perst (s : State) (n : Nat) (v : Can) : (s.setCan n v).perst = s.perst := (rfl)
@[simp] theorem setCan_bme (s : State) (n : Nat) (v : Can) : (s.setCan n v).bme = s.bme := (rfl)
@[simp] theorem setCan_d3hot (s : State) (n : Nat) (v : Can) : (s.setCan n v).d3hot = s.d3hot := (rfl)
@[simp] theorem setCan_rank (s : State) (n : Nat) (v : Can) : (s.setCan n v).rank = s.rank := (rfl)
@[simp] theorem setCan_irq (s : State) (n : Nat) (v : Can) : (s.setCan n v).irq = s.irq := (rfl)
@[simp] theorem setCan_regs (s : State) (n : Nat) (v : Can) : (s.setCan n v).regs = s.regs := (rfl)
@[simp] theorem setCan_live (s : State) (n : Nat) (v : Can) : (s.setCan n v).live = s.live := (rfl)
@[simp] theorem setCan_latch (s : State) (n : Nat) (v : Can) : (s.setCan n v).latch = s.latch := (rfl)
@[simp] theorem setCan_ctr (s : State) (n : Nat) (v : Can) : (s.setCan n v).ctr = s.ctr := (rfl)
@[simp] theorem setCan_out (s : State) (n : Nat) (v : Can) : (s.setCan n v).out = s.out := (rfl)
@[simp] theorem setCan_freeCtr (s : State) (n : Nat) (v : Can) : (s.setCan n v).freeCtr = s.freeCtr := (rfl)
@[simp] theorem setCan_early (s : State) (n : Nat) (v : Can) : (s.setCan n v).early = s.early := (rfl)
@[simp] theorem setCan_store (s : State) (n : Nat) (v : Can) : (s.setCan n v).store = s.store := (rfl)
@[simp] theorem setCan_bobs (s : State) (n : Nat) (v : Can) : (s.setCan n v).bobs = s.bobs := (rfl)
@[simp] theorem setCan_pins (s : State) (n : Nat) (v : Can) : (s.setCan n v).pins = s.pins := (rfl)
@[simp] theorem setCan_seqs (s : State) (n : Nat) (v : Can) : (s.setCan n v).seqs = s.seqs := (rfl)
@[simp] theorem setCan_engs (s : State) (n : Nat) (v : Can) : (s.setCan n v).engs = s.engs := (rfl)
@[simp] theorem setCan_mrgs (s : State) (n : Nat) (v : Can) : (s.setCan n v).mrgs = s.mrgs := (rfl)
@[simp] theorem setCan_log (s : State) (n : Nat) (v : Can) : (s.setCan n v).log = s.log := (rfl)
@[simp] theorem setCan_ckpts (s : State) (n : Nat) (v : Can) : (s.setCan n v).ckpts = s.ckpts := (rfl)
@[simp] theorem setCan_cuts (s : State) (n : Nat) (v : Can) : (s.setCan n v).cuts = s.cuts := (rfl)
@[simp] theorem setCan_fan (s : State) (n : Nat) (v : Can) : (s.setCan n v).fan = s.fan := (rfl)
@[simp] theorem setCan_seam (s : State) (n : Nat) (v : Can) : (s.setCan n v).seam = s.seam := (rfl)
@[simp] theorem setCan_tape (s : State) (n : Nat) (v : Can) : (s.setCan n v).tape = s.tape := (rfl)
@[simp] theorem setCan_cells (s : State) (n : Nat) (v : Can) : (s.setCan n v).cells = s.cells := (rfl)
@[simp] theorem setCan_cons (s : State) (n : Nat) (v : Can) : (s.setCan n v).cons = s.cons := (rfl)
@[simp] theorem setCan_egress (s : State) (n : Nat) (v : Can) : (s.setCan n v).egress = s.egress := (rfl)
@[simp] theorem setCan_laneLq (s : State) (n : Nat) (v : Can) : (s.setCan n v).laneLq = s.laneLq := (rfl)
@[simp] theorem setCan_builds (s : State) (n : Nat) (v : Can) : (s.setCan n v).builds = s.builds := (rfl)
@[simp] theorem setCan_ports (s : State) (n : Nat) (v : Can) : (s.setCan n v).ports = s.ports := (rfl)
@[simp] theorem setCan_t1s (s : State) (n : Nat) (v : Can) : (s.setCan n v).t1s = s.t1s := (rfl)
@[simp] theorem setCan_ups (s : State) (n : Nat) (v : Can) : (s.setCan n v).ups = s.ups := (rfl)
@[simp] theorem setCan_rings (s : State) (n : Nat) (v : Can) : (s.setCan n v).rings = s.rings := (rfl)
@[simp] theorem setCan_blocked (s : State) (n : Nat) (v : Can) : (s.setCan n v).blocked = s.blocked := (rfl)
@[simp] theorem setCan_genOffered (s : State) (n : Nat) (v : Can) : (s.setCan n v).genOffered = s.genOffered := (rfl)
@[simp] theorem setCan_wbWritten (s : State) (n : Nat) (v : Can) : (s.setCan n v).wbWritten = s.wbWritten := (rfl)
@[simp] theorem setCan_cmds (s : State) (n : Nat) (v : Can) : (s.setCan n v).cmds = s.cmds := (rfl)
@[simp] theorem setCan_cuCtx (s : State) (n : Nat) (v : Can) : (s.setCan n v).cuCtx = s.cuCtx := (rfl)
@[simp] theorem setCan_cus (s : State) (n : Nat) (v : Can) : (s.setCan n v).cus = s.cus := (rfl)
@[simp] theorem setCan_peer (s : State) (n : Nat) (v : Can) : (s.setCan n v).peer = s.peer := (rfl)
@[simp] theorem setCan_boot (s : State) (n : Nat) (v : Can) : (s.setCan n v).boot = s.boot := (rfl)
@[simp] theorem setCan_pw (s : State) (n : Nat) (v : Can) : (s.setCan n v).pw = s.pw := (rfl)
@[simp] theorem setCan_tap (s : State) (n : Nat) (v : Can) : (s.setCan n v).tap = s.tap := (rfl)
@[simp] theorem setCan_at_reg (s : State) (n : Nat) (v : Can) (o : Nat) : (s.setCan n v).reg o = s.reg o := (rfl)
@[simp] theorem setCan_at_liveReg (s : State) (n : Nat) (v : Can) (o : Nat) : (s.setCan n v).liveReg o = s.liveReg o := (rfl)
@[simp] theorem setCan_at_counter (s : State) (n : Nat) (v : Can) (j : Nat) : (s.setCan n v).counter j = s.counter j := (rfl)
@[simp] theorem setCan_at_rb (s : State) (n : Nat) (v : Can) (o i : Nat) : (s.setCan n v).rb o i = s.rb o i := (rfl)
@[simp] theorem setCan_at_rf (s : State) (n : Nat) (v : Can) (o lo n' : Nat) : (s.setCan n v).rf o lo n' = s.rf o lo n' := (rfl)
@[simp] theorem setCan_at_bob (s : State) (n : Nat) (v : Can) (b : Nat) : (s.setCan n v).bob b = s.bob b := (rfl)
@[simp] theorem setCan_at_pin (s : State) (n : Nat) (v : Can) (a : Nat) : (s.setCan n v).pin a = s.pin a := (rfl)
@[simp] theorem setCan_at_mrg (s : State) (n : Nat) (v : Can) (m : Nat) : (s.setCan n v).mrg m = s.mrg m := (rfl)
@[simp] theorem setCan_at_eg (s : State) (n : Nat) (v : Can) (p : Nat) : (s.setCan n v).eg p = s.eg p := (rfl)
@[simp] theorem setCan_at_port (s : State) (n : Nat) (v : Can) (p : Nat) : (s.setCan n v).port p = s.port p := (rfl)
@[simp] theorem setCan_at_ring (s : State) (n : Nat) (v : Can) (r : Nat) : (s.setCan n v).ring r = s.ring r := (rfl)
@[simp] theorem setCan_at_upQ (s : State) (n : Nat) (v : Can) : (s.setCan n v).up? = s.up? := (rfl)
@[simp] theorem setCan_at_awake (s : State) (n : Nat) (v : Can) : (s.setCan n v).awake = s.awake := (rfl)

/-! ## setTs -/

@[simp] theorem setTs_pending (s : State) (n : Nat) (v : T1s) : (s.setTs n v).pending = s.pending := (rfl)
@[simp] theorem setTs_inReset (s : State) (n : Nat) (v : T1s) : (s.setTs n v).inReset = s.inReset := (rfl)
@[simp] theorem setTs_testEn (s : State) (n : Nat) (v : T1s) : (s.setTs n v).testEn = s.testEn := (rfl)
@[simp] theorem setTs_perst (s : State) (n : Nat) (v : T1s) : (s.setTs n v).perst = s.perst := (rfl)
@[simp] theorem setTs_bme (s : State) (n : Nat) (v : T1s) : (s.setTs n v).bme = s.bme := (rfl)
@[simp] theorem setTs_d3hot (s : State) (n : Nat) (v : T1s) : (s.setTs n v).d3hot = s.d3hot := (rfl)
@[simp] theorem setTs_rank (s : State) (n : Nat) (v : T1s) : (s.setTs n v).rank = s.rank := (rfl)
@[simp] theorem setTs_irq (s : State) (n : Nat) (v : T1s) : (s.setTs n v).irq = s.irq := (rfl)
@[simp] theorem setTs_regs (s : State) (n : Nat) (v : T1s) : (s.setTs n v).regs = s.regs := (rfl)
@[simp] theorem setTs_live (s : State) (n : Nat) (v : T1s) : (s.setTs n v).live = s.live := (rfl)
@[simp] theorem setTs_latch (s : State) (n : Nat) (v : T1s) : (s.setTs n v).latch = s.latch := (rfl)
@[simp] theorem setTs_ctr (s : State) (n : Nat) (v : T1s) : (s.setTs n v).ctr = s.ctr := (rfl)
@[simp] theorem setTs_out (s : State) (n : Nat) (v : T1s) : (s.setTs n v).out = s.out := (rfl)
@[simp] theorem setTs_freeCtr (s : State) (n : Nat) (v : T1s) : (s.setTs n v).freeCtr = s.freeCtr := (rfl)
@[simp] theorem setTs_early (s : State) (n : Nat) (v : T1s) : (s.setTs n v).early = s.early := (rfl)
@[simp] theorem setTs_store (s : State) (n : Nat) (v : T1s) : (s.setTs n v).store = s.store := (rfl)
@[simp] theorem setTs_bobs (s : State) (n : Nat) (v : T1s) : (s.setTs n v).bobs = s.bobs := (rfl)
@[simp] theorem setTs_pins (s : State) (n : Nat) (v : T1s) : (s.setTs n v).pins = s.pins := (rfl)
@[simp] theorem setTs_seqs (s : State) (n : Nat) (v : T1s) : (s.setTs n v).seqs = s.seqs := (rfl)
@[simp] theorem setTs_engs (s : State) (n : Nat) (v : T1s) : (s.setTs n v).engs = s.engs := (rfl)
@[simp] theorem setTs_mrgs (s : State) (n : Nat) (v : T1s) : (s.setTs n v).mrgs = s.mrgs := (rfl)
@[simp] theorem setTs_log (s : State) (n : Nat) (v : T1s) : (s.setTs n v).log = s.log := (rfl)
@[simp] theorem setTs_ckpts (s : State) (n : Nat) (v : T1s) : (s.setTs n v).ckpts = s.ckpts := (rfl)
@[simp] theorem setTs_cuts (s : State) (n : Nat) (v : T1s) : (s.setTs n v).cuts = s.cuts := (rfl)
@[simp] theorem setTs_fan (s : State) (n : Nat) (v : T1s) : (s.setTs n v).fan = s.fan := (rfl)
@[simp] theorem setTs_seam (s : State) (n : Nat) (v : T1s) : (s.setTs n v).seam = s.seam := (rfl)
@[simp] theorem setTs_tape (s : State) (n : Nat) (v : T1s) : (s.setTs n v).tape = s.tape := (rfl)
@[simp] theorem setTs_cells (s : State) (n : Nat) (v : T1s) : (s.setTs n v).cells = s.cells := (rfl)
@[simp] theorem setTs_cons (s : State) (n : Nat) (v : T1s) : (s.setTs n v).cons = s.cons := (rfl)
@[simp] theorem setTs_egress (s : State) (n : Nat) (v : T1s) : (s.setTs n v).egress = s.egress := (rfl)
@[simp] theorem setTs_laneLq (s : State) (n : Nat) (v : T1s) : (s.setTs n v).laneLq = s.laneLq := (rfl)
@[simp] theorem setTs_builds (s : State) (n : Nat) (v : T1s) : (s.setTs n v).builds = s.builds := (rfl)
@[simp] theorem setTs_ports (s : State) (n : Nat) (v : T1s) : (s.setTs n v).ports = s.ports := (rfl)
@[simp] theorem setTs_cans (s : State) (n : Nat) (v : T1s) : (s.setTs n v).cans = s.cans := (rfl)
@[simp] theorem setTs_ups (s : State) (n : Nat) (v : T1s) : (s.setTs n v).ups = s.ups := (rfl)
@[simp] theorem setTs_rings (s : State) (n : Nat) (v : T1s) : (s.setTs n v).rings = s.rings := (rfl)
@[simp] theorem setTs_blocked (s : State) (n : Nat) (v : T1s) : (s.setTs n v).blocked = s.blocked := (rfl)
@[simp] theorem setTs_genOffered (s : State) (n : Nat) (v : T1s) : (s.setTs n v).genOffered = s.genOffered := (rfl)
@[simp] theorem setTs_wbWritten (s : State) (n : Nat) (v : T1s) : (s.setTs n v).wbWritten = s.wbWritten := (rfl)
@[simp] theorem setTs_cmds (s : State) (n : Nat) (v : T1s) : (s.setTs n v).cmds = s.cmds := (rfl)
@[simp] theorem setTs_cuCtx (s : State) (n : Nat) (v : T1s) : (s.setTs n v).cuCtx = s.cuCtx := (rfl)
@[simp] theorem setTs_cus (s : State) (n : Nat) (v : T1s) : (s.setTs n v).cus = s.cus := (rfl)
@[simp] theorem setTs_peer (s : State) (n : Nat) (v : T1s) : (s.setTs n v).peer = s.peer := (rfl)
@[simp] theorem setTs_boot (s : State) (n : Nat) (v : T1s) : (s.setTs n v).boot = s.boot := (rfl)
@[simp] theorem setTs_pw (s : State) (n : Nat) (v : T1s) : (s.setTs n v).pw = s.pw := (rfl)
@[simp] theorem setTs_tap (s : State) (n : Nat) (v : T1s) : (s.setTs n v).tap = s.tap := (rfl)
@[simp] theorem setTs_at_reg (s : State) (n : Nat) (v : T1s) (o : Nat) : (s.setTs n v).reg o = s.reg o := (rfl)
@[simp] theorem setTs_at_liveReg (s : State) (n : Nat) (v : T1s) (o : Nat) : (s.setTs n v).liveReg o = s.liveReg o := (rfl)
@[simp] theorem setTs_at_counter (s : State) (n : Nat) (v : T1s) (j : Nat) : (s.setTs n v).counter j = s.counter j := (rfl)
@[simp] theorem setTs_at_rb (s : State) (n : Nat) (v : T1s) (o i : Nat) : (s.setTs n v).rb o i = s.rb o i := (rfl)
@[simp] theorem setTs_at_rf (s : State) (n : Nat) (v : T1s) (o lo n' : Nat) : (s.setTs n v).rf o lo n' = s.rf o lo n' := (rfl)
@[simp] theorem setTs_at_bob (s : State) (n : Nat) (v : T1s) (b : Nat) : (s.setTs n v).bob b = s.bob b := (rfl)
@[simp] theorem setTs_at_pin (s : State) (n : Nat) (v : T1s) (a : Nat) : (s.setTs n v).pin a = s.pin a := (rfl)
@[simp] theorem setTs_at_mrg (s : State) (n : Nat) (v : T1s) (m : Nat) : (s.setTs n v).mrg m = s.mrg m := (rfl)
@[simp] theorem setTs_at_eg (s : State) (n : Nat) (v : T1s) (p : Nat) : (s.setTs n v).eg p = s.eg p := (rfl)
@[simp] theorem setTs_at_port (s : State) (n : Nat) (v : T1s) (p : Nat) : (s.setTs n v).port p = s.port p := (rfl)
@[simp] theorem setTs_at_ring (s : State) (n : Nat) (v : T1s) (r : Nat) : (s.setTs n v).ring r = s.ring r := (rfl)
@[simp] theorem setTs_at_upQ (s : State) (n : Nat) (v : T1s) : (s.setTs n v).up? = s.up? := (rfl)
@[simp] theorem setTs_at_awake (s : State) (n : Nat) (v : T1s) : (s.setTs n v).awake = s.awake := (rfl)

/-! ## setUp -/

@[simp] theorem setUp_pending (s : State) (u : Nat) (v : Uplink) : (s.setUp u v).pending = s.pending := (rfl)
@[simp] theorem setUp_inReset (s : State) (u : Nat) (v : Uplink) : (s.setUp u v).inReset = s.inReset := (rfl)
@[simp] theorem setUp_testEn (s : State) (u : Nat) (v : Uplink) : (s.setUp u v).testEn = s.testEn := (rfl)
@[simp] theorem setUp_perst (s : State) (u : Nat) (v : Uplink) : (s.setUp u v).perst = s.perst := (rfl)
@[simp] theorem setUp_bme (s : State) (u : Nat) (v : Uplink) : (s.setUp u v).bme = s.bme := (rfl)
@[simp] theorem setUp_d3hot (s : State) (u : Nat) (v : Uplink) : (s.setUp u v).d3hot = s.d3hot := (rfl)
@[simp] theorem setUp_rank (s : State) (u : Nat) (v : Uplink) : (s.setUp u v).rank = s.rank := (rfl)
@[simp] theorem setUp_irq (s : State) (u : Nat) (v : Uplink) : (s.setUp u v).irq = s.irq := (rfl)
@[simp] theorem setUp_regs (s : State) (u : Nat) (v : Uplink) : (s.setUp u v).regs = s.regs := (rfl)
@[simp] theorem setUp_live (s : State) (u : Nat) (v : Uplink) : (s.setUp u v).live = s.live := (rfl)
@[simp] theorem setUp_latch (s : State) (u : Nat) (v : Uplink) : (s.setUp u v).latch = s.latch := (rfl)
@[simp] theorem setUp_ctr (s : State) (u : Nat) (v : Uplink) : (s.setUp u v).ctr = s.ctr := (rfl)
@[simp] theorem setUp_out (s : State) (u : Nat) (v : Uplink) : (s.setUp u v).out = s.out := (rfl)
@[simp] theorem setUp_freeCtr (s : State) (u : Nat) (v : Uplink) : (s.setUp u v).freeCtr = s.freeCtr := (rfl)
@[simp] theorem setUp_early (s : State) (u : Nat) (v : Uplink) : (s.setUp u v).early = s.early := (rfl)
@[simp] theorem setUp_store (s : State) (u : Nat) (v : Uplink) : (s.setUp u v).store = s.store := (rfl)
@[simp] theorem setUp_bobs (s : State) (u : Nat) (v : Uplink) : (s.setUp u v).bobs = s.bobs := (rfl)
@[simp] theorem setUp_pins (s : State) (u : Nat) (v : Uplink) : (s.setUp u v).pins = s.pins := (rfl)
@[simp] theorem setUp_seqs (s : State) (u : Nat) (v : Uplink) : (s.setUp u v).seqs = s.seqs := (rfl)
@[simp] theorem setUp_engs (s : State) (u : Nat) (v : Uplink) : (s.setUp u v).engs = s.engs := (rfl)
@[simp] theorem setUp_mrgs (s : State) (u : Nat) (v : Uplink) : (s.setUp u v).mrgs = s.mrgs := (rfl)
@[simp] theorem setUp_log (s : State) (u : Nat) (v : Uplink) : (s.setUp u v).log = s.log := (rfl)
@[simp] theorem setUp_ckpts (s : State) (u : Nat) (v : Uplink) : (s.setUp u v).ckpts = s.ckpts := (rfl)
@[simp] theorem setUp_cuts (s : State) (u : Nat) (v : Uplink) : (s.setUp u v).cuts = s.cuts := (rfl)
@[simp] theorem setUp_fan (s : State) (u : Nat) (v : Uplink) : (s.setUp u v).fan = s.fan := (rfl)
@[simp] theorem setUp_seam (s : State) (u : Nat) (v : Uplink) : (s.setUp u v).seam = s.seam := (rfl)
@[simp] theorem setUp_tape (s : State) (u : Nat) (v : Uplink) : (s.setUp u v).tape = s.tape := (rfl)
@[simp] theorem setUp_cells (s : State) (u : Nat) (v : Uplink) : (s.setUp u v).cells = s.cells := (rfl)
@[simp] theorem setUp_cons (s : State) (u : Nat) (v : Uplink) : (s.setUp u v).cons = s.cons := (rfl)
@[simp] theorem setUp_egress (s : State) (u : Nat) (v : Uplink) : (s.setUp u v).egress = s.egress := (rfl)
@[simp] theorem setUp_laneLq (s : State) (u : Nat) (v : Uplink) : (s.setUp u v).laneLq = s.laneLq := (rfl)
@[simp] theorem setUp_builds (s : State) (u : Nat) (v : Uplink) : (s.setUp u v).builds = s.builds := (rfl)
@[simp] theorem setUp_ports (s : State) (u : Nat) (v : Uplink) : (s.setUp u v).ports = s.ports := (rfl)
@[simp] theorem setUp_cans (s : State) (u : Nat) (v : Uplink) : (s.setUp u v).cans = s.cans := (rfl)
@[simp] theorem setUp_t1s (s : State) (u : Nat) (v : Uplink) : (s.setUp u v).t1s = s.t1s := (rfl)
@[simp] theorem setUp_rings (s : State) (u : Nat) (v : Uplink) : (s.setUp u v).rings = s.rings := (rfl)
@[simp] theorem setUp_blocked (s : State) (u : Nat) (v : Uplink) : (s.setUp u v).blocked = s.blocked := (rfl)
@[simp] theorem setUp_genOffered (s : State) (u : Nat) (v : Uplink) : (s.setUp u v).genOffered = s.genOffered := (rfl)
@[simp] theorem setUp_wbWritten (s : State) (u : Nat) (v : Uplink) : (s.setUp u v).wbWritten = s.wbWritten := (rfl)
@[simp] theorem setUp_cmds (s : State) (u : Nat) (v : Uplink) : (s.setUp u v).cmds = s.cmds := (rfl)
@[simp] theorem setUp_cuCtx (s : State) (u : Nat) (v : Uplink) : (s.setUp u v).cuCtx = s.cuCtx := (rfl)
@[simp] theorem setUp_cus (s : State) (u : Nat) (v : Uplink) : (s.setUp u v).cus = s.cus := (rfl)
@[simp] theorem setUp_peer (s : State) (u : Nat) (v : Uplink) : (s.setUp u v).peer = s.peer := (rfl)
@[simp] theorem setUp_boot (s : State) (u : Nat) (v : Uplink) : (s.setUp u v).boot = s.boot := (rfl)
@[simp] theorem setUp_pw (s : State) (u : Nat) (v : Uplink) : (s.setUp u v).pw = s.pw := (rfl)
@[simp] theorem setUp_tap (s : State) (u : Nat) (v : Uplink) : (s.setUp u v).tap = s.tap := (rfl)
@[simp] theorem setUp_at_reg (s : State) (u : Nat) (v : Uplink) (o : Nat) : (s.setUp u v).reg o = s.reg o := (rfl)
@[simp] theorem setUp_at_liveReg (s : State) (u : Nat) (v : Uplink) (o : Nat) : (s.setUp u v).liveReg o = s.liveReg o := (rfl)
@[simp] theorem setUp_at_counter (s : State) (u : Nat) (v : Uplink) (j : Nat) : (s.setUp u v).counter j = s.counter j := (rfl)
@[simp] theorem setUp_at_rb (s : State) (u : Nat) (v : Uplink) (o i : Nat) : (s.setUp u v).rb o i = s.rb o i := (rfl)
@[simp] theorem setUp_at_rf (s : State) (u : Nat) (v : Uplink) (o lo n : Nat) : (s.setUp u v).rf o lo n = s.rf o lo n := (rfl)
@[simp] theorem setUp_at_bob (s : State) (u : Nat) (v : Uplink) (b : Nat) : (s.setUp u v).bob b = s.bob b := (rfl)
@[simp] theorem setUp_at_pin (s : State) (u : Nat) (v : Uplink) (a : Nat) : (s.setUp u v).pin a = s.pin a := (rfl)
@[simp] theorem setUp_at_mrg (s : State) (u : Nat) (v : Uplink) (m : Nat) : (s.setUp u v).mrg m = s.mrg m := (rfl)
@[simp] theorem setUp_at_eg (s : State) (u : Nat) (v : Uplink) (p : Nat) : (s.setUp u v).eg p = s.eg p := (rfl)
@[simp] theorem setUp_at_port (s : State) (u : Nat) (v : Uplink) (p : Nat) : (s.setUp u v).port p = s.port p := (rfl)
@[simp] theorem setUp_at_ring (s : State) (u : Nat) (v : Uplink) (r : Nat) : (s.setUp u v).ring r = s.ring r := (rfl)
@[simp] theorem setUp_at_upQ (s : State) (u : Nat) (v : Uplink) : (s.setUp u v).up? = s.up? := (rfl)
@[simp] theorem setUp_at_awake (s : State) (u : Nat) (v : Uplink) : (s.setUp u v).awake = s.awake := (rfl)

/-! ## setRing -/

@[simp] theorem setRing_pending (s : State) (r : Nat) (v : Ring) : (s.setRing r v).pending = s.pending := (rfl)
@[simp] theorem setRing_inReset (s : State) (r : Nat) (v : Ring) : (s.setRing r v).inReset = s.inReset := (rfl)
@[simp] theorem setRing_testEn (s : State) (r : Nat) (v : Ring) : (s.setRing r v).testEn = s.testEn := (rfl)
@[simp] theorem setRing_perst (s : State) (r : Nat) (v : Ring) : (s.setRing r v).perst = s.perst := (rfl)
@[simp] theorem setRing_bme (s : State) (r : Nat) (v : Ring) : (s.setRing r v).bme = s.bme := (rfl)
@[simp] theorem setRing_d3hot (s : State) (r : Nat) (v : Ring) : (s.setRing r v).d3hot = s.d3hot := (rfl)
@[simp] theorem setRing_rank (s : State) (r : Nat) (v : Ring) : (s.setRing r v).rank = s.rank := (rfl)
@[simp] theorem setRing_irq (s : State) (r : Nat) (v : Ring) : (s.setRing r v).irq = s.irq := (rfl)
@[simp] theorem setRing_regs (s : State) (r : Nat) (v : Ring) : (s.setRing r v).regs = s.regs := (rfl)
@[simp] theorem setRing_live (s : State) (r : Nat) (v : Ring) : (s.setRing r v).live = s.live := (rfl)
@[simp] theorem setRing_latch (s : State) (r : Nat) (v : Ring) : (s.setRing r v).latch = s.latch := (rfl)
@[simp] theorem setRing_ctr (s : State) (r : Nat) (v : Ring) : (s.setRing r v).ctr = s.ctr := (rfl)
@[simp] theorem setRing_out (s : State) (r : Nat) (v : Ring) : (s.setRing r v).out = s.out := (rfl)
@[simp] theorem setRing_freeCtr (s : State) (r : Nat) (v : Ring) : (s.setRing r v).freeCtr = s.freeCtr := (rfl)
@[simp] theorem setRing_early (s : State) (r : Nat) (v : Ring) : (s.setRing r v).early = s.early := (rfl)
@[simp] theorem setRing_store (s : State) (r : Nat) (v : Ring) : (s.setRing r v).store = s.store := (rfl)
@[simp] theorem setRing_bobs (s : State) (r : Nat) (v : Ring) : (s.setRing r v).bobs = s.bobs := (rfl)
@[simp] theorem setRing_pins (s : State) (r : Nat) (v : Ring) : (s.setRing r v).pins = s.pins := (rfl)
@[simp] theorem setRing_seqs (s : State) (r : Nat) (v : Ring) : (s.setRing r v).seqs = s.seqs := (rfl)
@[simp] theorem setRing_engs (s : State) (r : Nat) (v : Ring) : (s.setRing r v).engs = s.engs := (rfl)
@[simp] theorem setRing_mrgs (s : State) (r : Nat) (v : Ring) : (s.setRing r v).mrgs = s.mrgs := (rfl)
@[simp] theorem setRing_log (s : State) (r : Nat) (v : Ring) : (s.setRing r v).log = s.log := (rfl)
@[simp] theorem setRing_ckpts (s : State) (r : Nat) (v : Ring) : (s.setRing r v).ckpts = s.ckpts := (rfl)
@[simp] theorem setRing_cuts (s : State) (r : Nat) (v : Ring) : (s.setRing r v).cuts = s.cuts := (rfl)
@[simp] theorem setRing_fan (s : State) (r : Nat) (v : Ring) : (s.setRing r v).fan = s.fan := (rfl)
@[simp] theorem setRing_seam (s : State) (r : Nat) (v : Ring) : (s.setRing r v).seam = s.seam := (rfl)
@[simp] theorem setRing_tape (s : State) (r : Nat) (v : Ring) : (s.setRing r v).tape = s.tape := (rfl)
@[simp] theorem setRing_cells (s : State) (r : Nat) (v : Ring) : (s.setRing r v).cells = s.cells := (rfl)
@[simp] theorem setRing_cons (s : State) (r : Nat) (v : Ring) : (s.setRing r v).cons = s.cons := (rfl)
@[simp] theorem setRing_egress (s : State) (r : Nat) (v : Ring) : (s.setRing r v).egress = s.egress := (rfl)
@[simp] theorem setRing_laneLq (s : State) (r : Nat) (v : Ring) : (s.setRing r v).laneLq = s.laneLq := (rfl)
@[simp] theorem setRing_builds (s : State) (r : Nat) (v : Ring) : (s.setRing r v).builds = s.builds := (rfl)
@[simp] theorem setRing_ports (s : State) (r : Nat) (v : Ring) : (s.setRing r v).ports = s.ports := (rfl)
@[simp] theorem setRing_cans (s : State) (r : Nat) (v : Ring) : (s.setRing r v).cans = s.cans := (rfl)
@[simp] theorem setRing_t1s (s : State) (r : Nat) (v : Ring) : (s.setRing r v).t1s = s.t1s := (rfl)
@[simp] theorem setRing_ups (s : State) (r : Nat) (v : Ring) : (s.setRing r v).ups = s.ups := (rfl)
@[simp] theorem setRing_blocked (s : State) (r : Nat) (v : Ring) : (s.setRing r v).blocked = s.blocked := (rfl)
@[simp] theorem setRing_genOffered (s : State) (r : Nat) (v : Ring) : (s.setRing r v).genOffered = s.genOffered := (rfl)
@[simp] theorem setRing_wbWritten (s : State) (r : Nat) (v : Ring) : (s.setRing r v).wbWritten = s.wbWritten := (rfl)
@[simp] theorem setRing_cmds (s : State) (r : Nat) (v : Ring) : (s.setRing r v).cmds = s.cmds := (rfl)
@[simp] theorem setRing_cuCtx (s : State) (r : Nat) (v : Ring) : (s.setRing r v).cuCtx = s.cuCtx := (rfl)
@[simp] theorem setRing_cus (s : State) (r : Nat) (v : Ring) : (s.setRing r v).cus = s.cus := (rfl)
@[simp] theorem setRing_peer (s : State) (r : Nat) (v : Ring) : (s.setRing r v).peer = s.peer := (rfl)
@[simp] theorem setRing_boot (s : State) (r : Nat) (v : Ring) : (s.setRing r v).boot = s.boot := (rfl)
@[simp] theorem setRing_pw (s : State) (r : Nat) (v : Ring) : (s.setRing r v).pw = s.pw := (rfl)
@[simp] theorem setRing_tap (s : State) (r : Nat) (v : Ring) : (s.setRing r v).tap = s.tap := (rfl)
@[simp] theorem setRing_at_reg (s : State) (r : Nat) (v : Ring) (o : Nat) : (s.setRing r v).reg o = s.reg o := (rfl)
@[simp] theorem setRing_at_liveReg (s : State) (r : Nat) (v : Ring) (o : Nat) : (s.setRing r v).liveReg o = s.liveReg o := (rfl)
@[simp] theorem setRing_at_counter (s : State) (r : Nat) (v : Ring) (j : Nat) : (s.setRing r v).counter j = s.counter j := (rfl)
@[simp] theorem setRing_at_rb (s : State) (r : Nat) (v : Ring) (o i : Nat) : (s.setRing r v).rb o i = s.rb o i := (rfl)
@[simp] theorem setRing_at_rf (s : State) (r : Nat) (v : Ring) (o lo n : Nat) : (s.setRing r v).rf o lo n = s.rf o lo n := (rfl)
@[simp] theorem setRing_at_bob (s : State) (r : Nat) (v : Ring) (b : Nat) : (s.setRing r v).bob b = s.bob b := (rfl)
@[simp] theorem setRing_at_pin (s : State) (r : Nat) (v : Ring) (a : Nat) : (s.setRing r v).pin a = s.pin a := (rfl)
@[simp] theorem setRing_at_mrg (s : State) (r : Nat) (v : Ring) (m : Nat) : (s.setRing r v).mrg m = s.mrg m := (rfl)
@[simp] theorem setRing_at_eg (s : State) (r : Nat) (v : Ring) (p : Nat) : (s.setRing r v).eg p = s.eg p := (rfl)
@[simp] theorem setRing_at_port (s : State) (r : Nat) (v : Ring) (p : Nat) : (s.setRing r v).port p = s.port p := (rfl)
@[simp] theorem setRing_at_upQ (s : State) (r : Nat) (v : Ring) : (s.setRing r v).up? = s.up? := (rfl)
@[simp] theorem setRing_at_awake (s : State) (r : Nat) (v : Ring) : (s.setRing r v).awake = s.awake := (rfl)

/-! ## setCell -/

@[simp] theorem setCell_pending (s : State) (c : Nat) (v : CellSt) : (s.setCell c v).pending = s.pending := (rfl)
@[simp] theorem setCell_inReset (s : State) (c : Nat) (v : CellSt) : (s.setCell c v).inReset = s.inReset := (rfl)
@[simp] theorem setCell_testEn (s : State) (c : Nat) (v : CellSt) : (s.setCell c v).testEn = s.testEn := (rfl)
@[simp] theorem setCell_perst (s : State) (c : Nat) (v : CellSt) : (s.setCell c v).perst = s.perst := (rfl)
@[simp] theorem setCell_bme (s : State) (c : Nat) (v : CellSt) : (s.setCell c v).bme = s.bme := (rfl)
@[simp] theorem setCell_d3hot (s : State) (c : Nat) (v : CellSt) : (s.setCell c v).d3hot = s.d3hot := (rfl)
@[simp] theorem setCell_rank (s : State) (c : Nat) (v : CellSt) : (s.setCell c v).rank = s.rank := (rfl)
@[simp] theorem setCell_irq (s : State) (c : Nat) (v : CellSt) : (s.setCell c v).irq = s.irq := (rfl)
@[simp] theorem setCell_regs (s : State) (c : Nat) (v : CellSt) : (s.setCell c v).regs = s.regs := (rfl)
@[simp] theorem setCell_live (s : State) (c : Nat) (v : CellSt) : (s.setCell c v).live = s.live := (rfl)
@[simp] theorem setCell_latch (s : State) (c : Nat) (v : CellSt) : (s.setCell c v).latch = s.latch := (rfl)
@[simp] theorem setCell_ctr (s : State) (c : Nat) (v : CellSt) : (s.setCell c v).ctr = s.ctr := (rfl)
@[simp] theorem setCell_out (s : State) (c : Nat) (v : CellSt) : (s.setCell c v).out = s.out := (rfl)
@[simp] theorem setCell_freeCtr (s : State) (c : Nat) (v : CellSt) : (s.setCell c v).freeCtr = s.freeCtr := (rfl)
@[simp] theorem setCell_early (s : State) (c : Nat) (v : CellSt) : (s.setCell c v).early = s.early := (rfl)
@[simp] theorem setCell_store (s : State) (c : Nat) (v : CellSt) : (s.setCell c v).store = s.store := (rfl)
@[simp] theorem setCell_bobs (s : State) (c : Nat) (v : CellSt) : (s.setCell c v).bobs = s.bobs := (rfl)
@[simp] theorem setCell_pins (s : State) (c : Nat) (v : CellSt) : (s.setCell c v).pins = s.pins := (rfl)
@[simp] theorem setCell_seqs (s : State) (c : Nat) (v : CellSt) : (s.setCell c v).seqs = s.seqs := (rfl)
@[simp] theorem setCell_engs (s : State) (c : Nat) (v : CellSt) : (s.setCell c v).engs = s.engs := (rfl)
@[simp] theorem setCell_mrgs (s : State) (c : Nat) (v : CellSt) : (s.setCell c v).mrgs = s.mrgs := (rfl)
@[simp] theorem setCell_log (s : State) (c : Nat) (v : CellSt) : (s.setCell c v).log = s.log := (rfl)
@[simp] theorem setCell_ckpts (s : State) (c : Nat) (v : CellSt) : (s.setCell c v).ckpts = s.ckpts := (rfl)
@[simp] theorem setCell_cuts (s : State) (c : Nat) (v : CellSt) : (s.setCell c v).cuts = s.cuts := (rfl)
@[simp] theorem setCell_fan (s : State) (c : Nat) (v : CellSt) : (s.setCell c v).fan = s.fan := (rfl)
@[simp] theorem setCell_seam (s : State) (c : Nat) (v : CellSt) : (s.setCell c v).seam = s.seam := (rfl)
@[simp] theorem setCell_tape (s : State) (c : Nat) (v : CellSt) : (s.setCell c v).tape = s.tape := (rfl)
@[simp] theorem setCell_cons (s : State) (c : Nat) (v : CellSt) : (s.setCell c v).cons = s.cons := (rfl)
@[simp] theorem setCell_egress (s : State) (c : Nat) (v : CellSt) : (s.setCell c v).egress = s.egress := (rfl)
@[simp] theorem setCell_laneLq (s : State) (c : Nat) (v : CellSt) : (s.setCell c v).laneLq = s.laneLq := (rfl)
@[simp] theorem setCell_builds (s : State) (c : Nat) (v : CellSt) : (s.setCell c v).builds = s.builds := (rfl)
@[simp] theorem setCell_ports (s : State) (c : Nat) (v : CellSt) : (s.setCell c v).ports = s.ports := (rfl)
@[simp] theorem setCell_cans (s : State) (c : Nat) (v : CellSt) : (s.setCell c v).cans = s.cans := (rfl)
@[simp] theorem setCell_t1s (s : State) (c : Nat) (v : CellSt) : (s.setCell c v).t1s = s.t1s := (rfl)
@[simp] theorem setCell_ups (s : State) (c : Nat) (v : CellSt) : (s.setCell c v).ups = s.ups := (rfl)
@[simp] theorem setCell_rings (s : State) (c : Nat) (v : CellSt) : (s.setCell c v).rings = s.rings := (rfl)
@[simp] theorem setCell_blocked (s : State) (c : Nat) (v : CellSt) : (s.setCell c v).blocked = s.blocked := (rfl)
@[simp] theorem setCell_genOffered (s : State) (c : Nat) (v : CellSt) : (s.setCell c v).genOffered = s.genOffered := (rfl)
@[simp] theorem setCell_wbWritten (s : State) (c : Nat) (v : CellSt) : (s.setCell c v).wbWritten = s.wbWritten := (rfl)
@[simp] theorem setCell_cmds (s : State) (c : Nat) (v : CellSt) : (s.setCell c v).cmds = s.cmds := (rfl)
@[simp] theorem setCell_cuCtx (s : State) (c : Nat) (v : CellSt) : (s.setCell c v).cuCtx = s.cuCtx := (rfl)
@[simp] theorem setCell_cus (s : State) (c : Nat) (v : CellSt) : (s.setCell c v).cus = s.cus := (rfl)
@[simp] theorem setCell_peer (s : State) (c : Nat) (v : CellSt) : (s.setCell c v).peer = s.peer := (rfl)
@[simp] theorem setCell_boot (s : State) (c : Nat) (v : CellSt) : (s.setCell c v).boot = s.boot := (rfl)
@[simp] theorem setCell_pw (s : State) (c : Nat) (v : CellSt) : (s.setCell c v).pw = s.pw := (rfl)
@[simp] theorem setCell_tap (s : State) (c : Nat) (v : CellSt) : (s.setCell c v).tap = s.tap := (rfl)
@[simp] theorem setCell_at_reg (s : State) (c : Nat) (v : CellSt) (o : Nat) : (s.setCell c v).reg o = s.reg o := (rfl)
@[simp] theorem setCell_at_liveReg (s : State) (c : Nat) (v : CellSt) (o : Nat) : (s.setCell c v).liveReg o = s.liveReg o := (rfl)
@[simp] theorem setCell_at_counter (s : State) (c : Nat) (v : CellSt) (j : Nat) : (s.setCell c v).counter j = s.counter j := (rfl)
@[simp] theorem setCell_at_rb (s : State) (c : Nat) (v : CellSt) (o i : Nat) : (s.setCell c v).rb o i = s.rb o i := (rfl)
@[simp] theorem setCell_at_rf (s : State) (c : Nat) (v : CellSt) (o lo n : Nat) : (s.setCell c v).rf o lo n = s.rf o lo n := (rfl)
@[simp] theorem setCell_at_bob (s : State) (c : Nat) (v : CellSt) (b : Nat) : (s.setCell c v).bob b = s.bob b := (rfl)
@[simp] theorem setCell_at_pin (s : State) (c : Nat) (v : CellSt) (a : Nat) : (s.setCell c v).pin a = s.pin a := (rfl)
@[simp] theorem setCell_at_mrg (s : State) (c : Nat) (v : CellSt) (m : Nat) : (s.setCell c v).mrg m = s.mrg m := (rfl)
@[simp] theorem setCell_at_eg (s : State) (c : Nat) (v : CellSt) (p : Nat) : (s.setCell c v).eg p = s.eg p := (rfl)
@[simp] theorem setCell_at_port (s : State) (c : Nat) (v : CellSt) (p : Nat) : (s.setCell c v).port p = s.port p := (rfl)
@[simp] theorem setCell_at_ring (s : State) (c : Nat) (v : CellSt) (r : Nat) : (s.setCell c v).ring r = s.ring r := (rfl)
@[simp] theorem setCell_at_upQ (s : State) (c : Nat) (v : CellSt) : (s.setCell c v).up? = s.up? := (rfl)
@[simp] theorem setCell_at_awake (s : State) (c : Nat) (v : CellSt) : (s.setCell c v).awake = s.awake := (rfl)

/-! ## setSeq -/

@[simp] theorem setSeq_pending (s : State) (t n : Nat) : (s.setSeq t n).pending = s.pending := (rfl)
@[simp] theorem setSeq_inReset (s : State) (t n : Nat) : (s.setSeq t n).inReset = s.inReset := (rfl)
@[simp] theorem setSeq_testEn (s : State) (t n : Nat) : (s.setSeq t n).testEn = s.testEn := (rfl)
@[simp] theorem setSeq_perst (s : State) (t n : Nat) : (s.setSeq t n).perst = s.perst := (rfl)
@[simp] theorem setSeq_bme (s : State) (t n : Nat) : (s.setSeq t n).bme = s.bme := (rfl)
@[simp] theorem setSeq_d3hot (s : State) (t n : Nat) : (s.setSeq t n).d3hot = s.d3hot := (rfl)
@[simp] theorem setSeq_rank (s : State) (t n : Nat) : (s.setSeq t n).rank = s.rank := (rfl)
@[simp] theorem setSeq_irq (s : State) (t n : Nat) : (s.setSeq t n).irq = s.irq := (rfl)
@[simp] theorem setSeq_regs (s : State) (t n : Nat) : (s.setSeq t n).regs = s.regs := (rfl)
@[simp] theorem setSeq_live (s : State) (t n : Nat) : (s.setSeq t n).live = s.live := (rfl)
@[simp] theorem setSeq_latch (s : State) (t n : Nat) : (s.setSeq t n).latch = s.latch := (rfl)
@[simp] theorem setSeq_ctr (s : State) (t n : Nat) : (s.setSeq t n).ctr = s.ctr := (rfl)
@[simp] theorem setSeq_out (s : State) (t n : Nat) : (s.setSeq t n).out = s.out := (rfl)
@[simp] theorem setSeq_freeCtr (s : State) (t n : Nat) : (s.setSeq t n).freeCtr = s.freeCtr := (rfl)
@[simp] theorem setSeq_early (s : State) (t n : Nat) : (s.setSeq t n).early = s.early := (rfl)
@[simp] theorem setSeq_store (s : State) (t n : Nat) : (s.setSeq t n).store = s.store := (rfl)
@[simp] theorem setSeq_bobs (s : State) (t n : Nat) : (s.setSeq t n).bobs = s.bobs := (rfl)
@[simp] theorem setSeq_pins (s : State) (t n : Nat) : (s.setSeq t n).pins = s.pins := (rfl)
@[simp] theorem setSeq_engs (s : State) (t n : Nat) : (s.setSeq t n).engs = s.engs := (rfl)
@[simp] theorem setSeq_mrgs (s : State) (t n : Nat) : (s.setSeq t n).mrgs = s.mrgs := (rfl)
@[simp] theorem setSeq_log (s : State) (t n : Nat) : (s.setSeq t n).log = s.log := (rfl)
@[simp] theorem setSeq_ckpts (s : State) (t n : Nat) : (s.setSeq t n).ckpts = s.ckpts := (rfl)
@[simp] theorem setSeq_cuts (s : State) (t n : Nat) : (s.setSeq t n).cuts = s.cuts := (rfl)
@[simp] theorem setSeq_fan (s : State) (t n : Nat) : (s.setSeq t n).fan = s.fan := (rfl)
@[simp] theorem setSeq_seam (s : State) (t n : Nat) : (s.setSeq t n).seam = s.seam := (rfl)
@[simp] theorem setSeq_tape (s : State) (t n : Nat) : (s.setSeq t n).tape = s.tape := (rfl)
@[simp] theorem setSeq_cells (s : State) (t n : Nat) : (s.setSeq t n).cells = s.cells := (rfl)
@[simp] theorem setSeq_cons (s : State) (t n : Nat) : (s.setSeq t n).cons = s.cons := (rfl)
@[simp] theorem setSeq_egress (s : State) (t n : Nat) : (s.setSeq t n).egress = s.egress := (rfl)
@[simp] theorem setSeq_laneLq (s : State) (t n : Nat) : (s.setSeq t n).laneLq = s.laneLq := (rfl)
@[simp] theorem setSeq_builds (s : State) (t n : Nat) : (s.setSeq t n).builds = s.builds := (rfl)
@[simp] theorem setSeq_ports (s : State) (t n : Nat) : (s.setSeq t n).ports = s.ports := (rfl)
@[simp] theorem setSeq_cans (s : State) (t n : Nat) : (s.setSeq t n).cans = s.cans := (rfl)
@[simp] theorem setSeq_t1s (s : State) (t n : Nat) : (s.setSeq t n).t1s = s.t1s := (rfl)
@[simp] theorem setSeq_ups (s : State) (t n : Nat) : (s.setSeq t n).ups = s.ups := (rfl)
@[simp] theorem setSeq_rings (s : State) (t n : Nat) : (s.setSeq t n).rings = s.rings := (rfl)
@[simp] theorem setSeq_blocked (s : State) (t n : Nat) : (s.setSeq t n).blocked = s.blocked := (rfl)
@[simp] theorem setSeq_genOffered (s : State) (t n : Nat) : (s.setSeq t n).genOffered = s.genOffered := (rfl)
@[simp] theorem setSeq_wbWritten (s : State) (t n : Nat) : (s.setSeq t n).wbWritten = s.wbWritten := (rfl)
@[simp] theorem setSeq_cmds (s : State) (t n : Nat) : (s.setSeq t n).cmds = s.cmds := (rfl)
@[simp] theorem setSeq_cuCtx (s : State) (t n : Nat) : (s.setSeq t n).cuCtx = s.cuCtx := (rfl)
@[simp] theorem setSeq_cus (s : State) (t n : Nat) : (s.setSeq t n).cus = s.cus := (rfl)
@[simp] theorem setSeq_peer (s : State) (t n : Nat) : (s.setSeq t n).peer = s.peer := (rfl)
@[simp] theorem setSeq_boot (s : State) (t n : Nat) : (s.setSeq t n).boot = s.boot := (rfl)
@[simp] theorem setSeq_pw (s : State) (t n : Nat) : (s.setSeq t n).pw = s.pw := (rfl)
@[simp] theorem setSeq_tap (s : State) (t n : Nat) : (s.setSeq t n).tap = s.tap := (rfl)
@[simp] theorem setSeq_at_reg (s : State) (t n : Nat) (o : Nat) : (s.setSeq t n).reg o = s.reg o := (rfl)
@[simp] theorem setSeq_at_liveReg (s : State) (t n : Nat) (o : Nat) : (s.setSeq t n).liveReg o = s.liveReg o := (rfl)
@[simp] theorem setSeq_at_counter (s : State) (t n : Nat) (j : Nat) : (s.setSeq t n).counter j = s.counter j := (rfl)
@[simp] theorem setSeq_at_rb (s : State) (t n : Nat) (o i : Nat) : (s.setSeq t n).rb o i = s.rb o i := (rfl)
@[simp] theorem setSeq_at_rf (s : State) (t n : Nat) (o lo n' : Nat) : (s.setSeq t n).rf o lo n' = s.rf o lo n' := (rfl)
@[simp] theorem setSeq_at_bob (s : State) (t n : Nat) (b : Nat) : (s.setSeq t n).bob b = s.bob b := (rfl)
@[simp] theorem setSeq_at_pin (s : State) (t n : Nat) (a : Nat) : (s.setSeq t n).pin a = s.pin a := (rfl)
@[simp] theorem setSeq_at_mrg (s : State) (t n : Nat) (m : Nat) : (s.setSeq t n).mrg m = s.mrg m := (rfl)
@[simp] theorem setSeq_at_eg (s : State) (t n : Nat) (p : Nat) : (s.setSeq t n).eg p = s.eg p := (rfl)
@[simp] theorem setSeq_at_port (s : State) (t n : Nat) (p : Nat) : (s.setSeq t n).port p = s.port p := (rfl)
@[simp] theorem setSeq_at_ring (s : State) (t n : Nat) (r : Nat) : (s.setSeq t n).ring r = s.ring r := (rfl)
@[simp] theorem setSeq_at_upQ (s : State) (t n : Nat) : (s.setSeq t n).up? = s.up? := (rfl)
@[simp] theorem setSeq_at_awake (s : State) (t n : Nat) : (s.setSeq t n).awake = s.awake := (rfl)

/-! ## setWord -/

@[simp] theorem setWord_pending (s : State) (a : Nat) (w : Word) : (s.setWord a w).pending = s.pending := (rfl)
@[simp] theorem setWord_inReset (s : State) (a : Nat) (w : Word) : (s.setWord a w).inReset = s.inReset := (rfl)
@[simp] theorem setWord_testEn (s : State) (a : Nat) (w : Word) : (s.setWord a w).testEn = s.testEn := (rfl)
@[simp] theorem setWord_perst (s : State) (a : Nat) (w : Word) : (s.setWord a w).perst = s.perst := (rfl)
@[simp] theorem setWord_bme (s : State) (a : Nat) (w : Word) : (s.setWord a w).bme = s.bme := (rfl)
@[simp] theorem setWord_d3hot (s : State) (a : Nat) (w : Word) : (s.setWord a w).d3hot = s.d3hot := (rfl)
@[simp] theorem setWord_rank (s : State) (a : Nat) (w : Word) : (s.setWord a w).rank = s.rank := (rfl)
@[simp] theorem setWord_irq (s : State) (a : Nat) (w : Word) : (s.setWord a w).irq = s.irq := (rfl)
@[simp] theorem setWord_regs (s : State) (a : Nat) (w : Word) : (s.setWord a w).regs = s.regs := (rfl)
@[simp] theorem setWord_live (s : State) (a : Nat) (w : Word) : (s.setWord a w).live = s.live := (rfl)
@[simp] theorem setWord_latch (s : State) (a : Nat) (w : Word) : (s.setWord a w).latch = s.latch := (rfl)
@[simp] theorem setWord_ctr (s : State) (a : Nat) (w : Word) : (s.setWord a w).ctr = s.ctr := (rfl)
@[simp] theorem setWord_out (s : State) (a : Nat) (w : Word) : (s.setWord a w).out = s.out := (rfl)
@[simp] theorem setWord_freeCtr (s : State) (a : Nat) (w : Word) : (s.setWord a w).freeCtr = s.freeCtr := (rfl)
@[simp] theorem setWord_early (s : State) (a : Nat) (w : Word) : (s.setWord a w).early = s.early := (rfl)
@[simp] theorem setWord_bobs (s : State) (a : Nat) (w : Word) : (s.setWord a w).bobs = s.bobs := (rfl)
@[simp] theorem setWord_pins (s : State) (a : Nat) (w : Word) : (s.setWord a w).pins = s.pins := (rfl)
@[simp] theorem setWord_seqs (s : State) (a : Nat) (w : Word) : (s.setWord a w).seqs = s.seqs := (rfl)
@[simp] theorem setWord_engs (s : State) (a : Nat) (w : Word) : (s.setWord a w).engs = s.engs := (rfl)
@[simp] theorem setWord_mrgs (s : State) (a : Nat) (w : Word) : (s.setWord a w).mrgs = s.mrgs := (rfl)
@[simp] theorem setWord_log (s : State) (a : Nat) (w : Word) : (s.setWord a w).log = s.log := (rfl)
@[simp] theorem setWord_ckpts (s : State) (a : Nat) (w : Word) : (s.setWord a w).ckpts = s.ckpts := (rfl)
@[simp] theorem setWord_cuts (s : State) (a : Nat) (w : Word) : (s.setWord a w).cuts = s.cuts := (rfl)
@[simp] theorem setWord_fan (s : State) (a : Nat) (w : Word) : (s.setWord a w).fan = s.fan := (rfl)
@[simp] theorem setWord_seam (s : State) (a : Nat) (w : Word) : (s.setWord a w).seam = s.seam := (rfl)
@[simp] theorem setWord_tape (s : State) (a : Nat) (w : Word) : (s.setWord a w).tape = s.tape := (rfl)
@[simp] theorem setWord_cells (s : State) (a : Nat) (w : Word) : (s.setWord a w).cells = s.cells := (rfl)
@[simp] theorem setWord_cons (s : State) (a : Nat) (w : Word) : (s.setWord a w).cons = s.cons := (rfl)
@[simp] theorem setWord_egress (s : State) (a : Nat) (w : Word) : (s.setWord a w).egress = s.egress := (rfl)
@[simp] theorem setWord_laneLq (s : State) (a : Nat) (w : Word) : (s.setWord a w).laneLq = s.laneLq := (rfl)
@[simp] theorem setWord_builds (s : State) (a : Nat) (w : Word) : (s.setWord a w).builds = s.builds := (rfl)
@[simp] theorem setWord_ports (s : State) (a : Nat) (w : Word) : (s.setWord a w).ports = s.ports := (rfl)
@[simp] theorem setWord_cans (s : State) (a : Nat) (w : Word) : (s.setWord a w).cans = s.cans := (rfl)
@[simp] theorem setWord_t1s (s : State) (a : Nat) (w : Word) : (s.setWord a w).t1s = s.t1s := (rfl)
@[simp] theorem setWord_ups (s : State) (a : Nat) (w : Word) : (s.setWord a w).ups = s.ups := (rfl)
@[simp] theorem setWord_rings (s : State) (a : Nat) (w : Word) : (s.setWord a w).rings = s.rings := (rfl)
@[simp] theorem setWord_blocked (s : State) (a : Nat) (w : Word) : (s.setWord a w).blocked = s.blocked := (rfl)
@[simp] theorem setWord_genOffered (s : State) (a : Nat) (w : Word) : (s.setWord a w).genOffered = s.genOffered := (rfl)
@[simp] theorem setWord_wbWritten (s : State) (a : Nat) (w : Word) : (s.setWord a w).wbWritten = s.wbWritten := (rfl)
@[simp] theorem setWord_cmds (s : State) (a : Nat) (w : Word) : (s.setWord a w).cmds = s.cmds := (rfl)
@[simp] theorem setWord_cuCtx (s : State) (a : Nat) (w : Word) : (s.setWord a w).cuCtx = s.cuCtx := (rfl)
@[simp] theorem setWord_cus (s : State) (a : Nat) (w : Word) : (s.setWord a w).cus = s.cus := (rfl)
@[simp] theorem setWord_peer (s : State) (a : Nat) (w : Word) : (s.setWord a w).peer = s.peer := (rfl)
@[simp] theorem setWord_boot (s : State) (a : Nat) (w : Word) : (s.setWord a w).boot = s.boot := (rfl)
@[simp] theorem setWord_pw (s : State) (a : Nat) (w : Word) : (s.setWord a w).pw = s.pw := (rfl)
@[simp] theorem setWord_tap (s : State) (a : Nat) (w : Word) : (s.setWord a w).tap = s.tap := (rfl)
@[simp] theorem setWord_at_reg (s : State) (a : Nat) (w : Word) (o : Nat) : (s.setWord a w).reg o = s.reg o := (rfl)
@[simp] theorem setWord_at_liveReg (s : State) (a : Nat) (w : Word) (o : Nat) : (s.setWord a w).liveReg o = s.liveReg o := (rfl)
@[simp] theorem setWord_at_counter (s : State) (a : Nat) (w : Word) (j : Nat) : (s.setWord a w).counter j = s.counter j := (rfl)
@[simp] theorem setWord_at_rb (s : State) (a : Nat) (w : Word) (o i : Nat) : (s.setWord a w).rb o i = s.rb o i := (rfl)
@[simp] theorem setWord_at_rf (s : State) (a : Nat) (w : Word) (o lo n : Nat) : (s.setWord a w).rf o lo n = s.rf o lo n := (rfl)
@[simp] theorem setWord_at_bob (s : State) (a : Nat) (w : Word) (b : Nat) : (s.setWord a w).bob b = s.bob b := (rfl)
@[simp] theorem setWord_at_pin (s : State) (a : Nat) (w : Word) (a' : Nat) : (s.setWord a w).pin a' = s.pin a' := (rfl)
@[simp] theorem setWord_at_mrg (s : State) (a : Nat) (w : Word) (m : Nat) : (s.setWord a w).mrg m = s.mrg m := (rfl)
@[simp] theorem setWord_at_eg (s : State) (a : Nat) (w : Word) (p : Nat) : (s.setWord a w).eg p = s.eg p := (rfl)
@[simp] theorem setWord_at_port (s : State) (a : Nat) (w : Word) (p : Nat) : (s.setWord a w).port p = s.port p := (rfl)
@[simp] theorem setWord_at_ring (s : State) (a : Nat) (w : Word) (r : Nat) : (s.setWord a w).ring r = s.ring r := (rfl)
@[simp] theorem setWord_at_upQ (s : State) (a : Nat) (w : Word) : (s.setWord a w).up? = s.up? := (rfl)
@[simp] theorem setWord_at_awake (s : State) (a : Nat) (w : Word) : (s.setWord a w).awake = s.awake := (rfl)

/-! ## setCu -/

@[simp] theorem setCu_pending (s : State) (n : Nat) (v : CkUnit) : (s.setCu n v).pending = s.pending := (rfl)
@[simp] theorem setCu_inReset (s : State) (n : Nat) (v : CkUnit) : (s.setCu n v).inReset = s.inReset := (rfl)
@[simp] theorem setCu_testEn (s : State) (n : Nat) (v : CkUnit) : (s.setCu n v).testEn = s.testEn := (rfl)
@[simp] theorem setCu_perst (s : State) (n : Nat) (v : CkUnit) : (s.setCu n v).perst = s.perst := (rfl)
@[simp] theorem setCu_bme (s : State) (n : Nat) (v : CkUnit) : (s.setCu n v).bme = s.bme := (rfl)
@[simp] theorem setCu_d3hot (s : State) (n : Nat) (v : CkUnit) : (s.setCu n v).d3hot = s.d3hot := (rfl)
@[simp] theorem setCu_rank (s : State) (n : Nat) (v : CkUnit) : (s.setCu n v).rank = s.rank := (rfl)
@[simp] theorem setCu_irq (s : State) (n : Nat) (v : CkUnit) : (s.setCu n v).irq = s.irq := (rfl)
@[simp] theorem setCu_regs (s : State) (n : Nat) (v : CkUnit) : (s.setCu n v).regs = s.regs := (rfl)
@[simp] theorem setCu_live (s : State) (n : Nat) (v : CkUnit) : (s.setCu n v).live = s.live := (rfl)
@[simp] theorem setCu_latch (s : State) (n : Nat) (v : CkUnit) : (s.setCu n v).latch = s.latch := (rfl)
@[simp] theorem setCu_ctr (s : State) (n : Nat) (v : CkUnit) : (s.setCu n v).ctr = s.ctr := (rfl)
@[simp] theorem setCu_out (s : State) (n : Nat) (v : CkUnit) : (s.setCu n v).out = s.out := (rfl)
@[simp] theorem setCu_freeCtr (s : State) (n : Nat) (v : CkUnit) : (s.setCu n v).freeCtr = s.freeCtr := (rfl)
@[simp] theorem setCu_early (s : State) (n : Nat) (v : CkUnit) : (s.setCu n v).early = s.early := (rfl)
@[simp] theorem setCu_store (s : State) (n : Nat) (v : CkUnit) : (s.setCu n v).store = s.store := (rfl)
@[simp] theorem setCu_bobs (s : State) (n : Nat) (v : CkUnit) : (s.setCu n v).bobs = s.bobs := (rfl)
@[simp] theorem setCu_pins (s : State) (n : Nat) (v : CkUnit) : (s.setCu n v).pins = s.pins := (rfl)
@[simp] theorem setCu_seqs (s : State) (n : Nat) (v : CkUnit) : (s.setCu n v).seqs = s.seqs := (rfl)
@[simp] theorem setCu_engs (s : State) (n : Nat) (v : CkUnit) : (s.setCu n v).engs = s.engs := (rfl)
@[simp] theorem setCu_mrgs (s : State) (n : Nat) (v : CkUnit) : (s.setCu n v).mrgs = s.mrgs := (rfl)
@[simp] theorem setCu_log (s : State) (n : Nat) (v : CkUnit) : (s.setCu n v).log = s.log := (rfl)
@[simp] theorem setCu_ckpts (s : State) (n : Nat) (v : CkUnit) : (s.setCu n v).ckpts = s.ckpts := (rfl)
@[simp] theorem setCu_cuts (s : State) (n : Nat) (v : CkUnit) : (s.setCu n v).cuts = s.cuts := (rfl)
@[simp] theorem setCu_fan (s : State) (n : Nat) (v : CkUnit) : (s.setCu n v).fan = s.fan := (rfl)
@[simp] theorem setCu_seam (s : State) (n : Nat) (v : CkUnit) : (s.setCu n v).seam = s.seam := (rfl)
@[simp] theorem setCu_tape (s : State) (n : Nat) (v : CkUnit) : (s.setCu n v).tape = s.tape := (rfl)
@[simp] theorem setCu_cells (s : State) (n : Nat) (v : CkUnit) : (s.setCu n v).cells = s.cells := (rfl)
@[simp] theorem setCu_cons (s : State) (n : Nat) (v : CkUnit) : (s.setCu n v).cons = s.cons := (rfl)
@[simp] theorem setCu_egress (s : State) (n : Nat) (v : CkUnit) : (s.setCu n v).egress = s.egress := (rfl)
@[simp] theorem setCu_laneLq (s : State) (n : Nat) (v : CkUnit) : (s.setCu n v).laneLq = s.laneLq := (rfl)
@[simp] theorem setCu_builds (s : State) (n : Nat) (v : CkUnit) : (s.setCu n v).builds = s.builds := (rfl)
@[simp] theorem setCu_ports (s : State) (n : Nat) (v : CkUnit) : (s.setCu n v).ports = s.ports := (rfl)
@[simp] theorem setCu_cans (s : State) (n : Nat) (v : CkUnit) : (s.setCu n v).cans = s.cans := (rfl)
@[simp] theorem setCu_t1s (s : State) (n : Nat) (v : CkUnit) : (s.setCu n v).t1s = s.t1s := (rfl)
@[simp] theorem setCu_ups (s : State) (n : Nat) (v : CkUnit) : (s.setCu n v).ups = s.ups := (rfl)
@[simp] theorem setCu_rings (s : State) (n : Nat) (v : CkUnit) : (s.setCu n v).rings = s.rings := (rfl)
@[simp] theorem setCu_blocked (s : State) (n : Nat) (v : CkUnit) : (s.setCu n v).blocked = s.blocked := (rfl)
@[simp] theorem setCu_genOffered (s : State) (n : Nat) (v : CkUnit) : (s.setCu n v).genOffered = s.genOffered := (rfl)
@[simp] theorem setCu_wbWritten (s : State) (n : Nat) (v : CkUnit) : (s.setCu n v).wbWritten = s.wbWritten := (rfl)
@[simp] theorem setCu_cmds (s : State) (n : Nat) (v : CkUnit) : (s.setCu n v).cmds = s.cmds := (rfl)
@[simp] theorem setCu_cuCtx (s : State) (n : Nat) (v : CkUnit) : (s.setCu n v).cuCtx = s.cuCtx := (rfl)
@[simp] theorem setCu_peer (s : State) (n : Nat) (v : CkUnit) : (s.setCu n v).peer = s.peer := (rfl)
@[simp] theorem setCu_boot (s : State) (n : Nat) (v : CkUnit) : (s.setCu n v).boot = s.boot := (rfl)
@[simp] theorem setCu_pw (s : State) (n : Nat) (v : CkUnit) : (s.setCu n v).pw = s.pw := (rfl)
@[simp] theorem setCu_tap (s : State) (n : Nat) (v : CkUnit) : (s.setCu n v).tap = s.tap := (rfl)
@[simp] theorem setCu_at_reg (s : State) (n : Nat) (v : CkUnit) (o : Nat) : (s.setCu n v).reg o = s.reg o := (rfl)
@[simp] theorem setCu_at_liveReg (s : State) (n : Nat) (v : CkUnit) (o : Nat) : (s.setCu n v).liveReg o = s.liveReg o := (rfl)
@[simp] theorem setCu_at_counter (s : State) (n : Nat) (v : CkUnit) (j : Nat) : (s.setCu n v).counter j = s.counter j := (rfl)
@[simp] theorem setCu_at_rb (s : State) (n : Nat) (v : CkUnit) (o i : Nat) : (s.setCu n v).rb o i = s.rb o i := (rfl)
@[simp] theorem setCu_at_rf (s : State) (n : Nat) (v : CkUnit) (o lo n' : Nat) : (s.setCu n v).rf o lo n' = s.rf o lo n' := (rfl)
@[simp] theorem setCu_at_bob (s : State) (n : Nat) (v : CkUnit) (b : Nat) : (s.setCu n v).bob b = s.bob b := (rfl)
@[simp] theorem setCu_at_pin (s : State) (n : Nat) (v : CkUnit) (a : Nat) : (s.setCu n v).pin a = s.pin a := (rfl)
@[simp] theorem setCu_at_mrg (s : State) (n : Nat) (v : CkUnit) (m : Nat) : (s.setCu n v).mrg m = s.mrg m := (rfl)
@[simp] theorem setCu_at_eg (s : State) (n : Nat) (v : CkUnit) (p : Nat) : (s.setCu n v).eg p = s.eg p := (rfl)
@[simp] theorem setCu_at_port (s : State) (n : Nat) (v : CkUnit) (p : Nat) : (s.setCu n v).port p = s.port p := (rfl)
@[simp] theorem setCu_at_ring (s : State) (n : Nat) (v : CkUnit) (r : Nat) : (s.setCu n v).ring r = s.ring r := (rfl)
@[simp] theorem setCu_at_upQ (s : State) (n : Nat) (v : CkUnit) : (s.setCu n v).up? = s.up? := (rfl)
@[simp] theorem setCu_at_awake (s : State) (n : Nat) (v : CkUnit) : (s.setCu n v).awake = s.awake := (rfl)

/-! ## setCtx -/

@[simp] theorem setCtx_pending (s : State) (n : Nat) (v : CkCtx) : (s.setCtx n v).pending = s.pending := (rfl)
@[simp] theorem setCtx_inReset (s : State) (n : Nat) (v : CkCtx) : (s.setCtx n v).inReset = s.inReset := (rfl)
@[simp] theorem setCtx_testEn (s : State) (n : Nat) (v : CkCtx) : (s.setCtx n v).testEn = s.testEn := (rfl)
@[simp] theorem setCtx_perst (s : State) (n : Nat) (v : CkCtx) : (s.setCtx n v).perst = s.perst := (rfl)
@[simp] theorem setCtx_bme (s : State) (n : Nat) (v : CkCtx) : (s.setCtx n v).bme = s.bme := (rfl)
@[simp] theorem setCtx_d3hot (s : State) (n : Nat) (v : CkCtx) : (s.setCtx n v).d3hot = s.d3hot := (rfl)
@[simp] theorem setCtx_rank (s : State) (n : Nat) (v : CkCtx) : (s.setCtx n v).rank = s.rank := (rfl)
@[simp] theorem setCtx_irq (s : State) (n : Nat) (v : CkCtx) : (s.setCtx n v).irq = s.irq := (rfl)
@[simp] theorem setCtx_regs (s : State) (n : Nat) (v : CkCtx) : (s.setCtx n v).regs = s.regs := (rfl)
@[simp] theorem setCtx_live (s : State) (n : Nat) (v : CkCtx) : (s.setCtx n v).live = s.live := (rfl)
@[simp] theorem setCtx_latch (s : State) (n : Nat) (v : CkCtx) : (s.setCtx n v).latch = s.latch := (rfl)
@[simp] theorem setCtx_ctr (s : State) (n : Nat) (v : CkCtx) : (s.setCtx n v).ctr = s.ctr := (rfl)
@[simp] theorem setCtx_out (s : State) (n : Nat) (v : CkCtx) : (s.setCtx n v).out = s.out := (rfl)
@[simp] theorem setCtx_freeCtr (s : State) (n : Nat) (v : CkCtx) : (s.setCtx n v).freeCtr = s.freeCtr := (rfl)
@[simp] theorem setCtx_early (s : State) (n : Nat) (v : CkCtx) : (s.setCtx n v).early = s.early := (rfl)
@[simp] theorem setCtx_store (s : State) (n : Nat) (v : CkCtx) : (s.setCtx n v).store = s.store := (rfl)
@[simp] theorem setCtx_bobs (s : State) (n : Nat) (v : CkCtx) : (s.setCtx n v).bobs = s.bobs := (rfl)
@[simp] theorem setCtx_pins (s : State) (n : Nat) (v : CkCtx) : (s.setCtx n v).pins = s.pins := (rfl)
@[simp] theorem setCtx_seqs (s : State) (n : Nat) (v : CkCtx) : (s.setCtx n v).seqs = s.seqs := (rfl)
@[simp] theorem setCtx_engs (s : State) (n : Nat) (v : CkCtx) : (s.setCtx n v).engs = s.engs := (rfl)
@[simp] theorem setCtx_mrgs (s : State) (n : Nat) (v : CkCtx) : (s.setCtx n v).mrgs = s.mrgs := (rfl)
@[simp] theorem setCtx_log (s : State) (n : Nat) (v : CkCtx) : (s.setCtx n v).log = s.log := (rfl)
@[simp] theorem setCtx_ckpts (s : State) (n : Nat) (v : CkCtx) : (s.setCtx n v).ckpts = s.ckpts := (rfl)
@[simp] theorem setCtx_cuts (s : State) (n : Nat) (v : CkCtx) : (s.setCtx n v).cuts = s.cuts := (rfl)
@[simp] theorem setCtx_fan (s : State) (n : Nat) (v : CkCtx) : (s.setCtx n v).fan = s.fan := (rfl)
@[simp] theorem setCtx_seam (s : State) (n : Nat) (v : CkCtx) : (s.setCtx n v).seam = s.seam := (rfl)
@[simp] theorem setCtx_tape (s : State) (n : Nat) (v : CkCtx) : (s.setCtx n v).tape = s.tape := (rfl)
@[simp] theorem setCtx_cells (s : State) (n : Nat) (v : CkCtx) : (s.setCtx n v).cells = s.cells := (rfl)
@[simp] theorem setCtx_cons (s : State) (n : Nat) (v : CkCtx) : (s.setCtx n v).cons = s.cons := (rfl)
@[simp] theorem setCtx_egress (s : State) (n : Nat) (v : CkCtx) : (s.setCtx n v).egress = s.egress := (rfl)
@[simp] theorem setCtx_laneLq (s : State) (n : Nat) (v : CkCtx) : (s.setCtx n v).laneLq = s.laneLq := (rfl)
@[simp] theorem setCtx_builds (s : State) (n : Nat) (v : CkCtx) : (s.setCtx n v).builds = s.builds := (rfl)
@[simp] theorem setCtx_ports (s : State) (n : Nat) (v : CkCtx) : (s.setCtx n v).ports = s.ports := (rfl)
@[simp] theorem setCtx_cans (s : State) (n : Nat) (v : CkCtx) : (s.setCtx n v).cans = s.cans := (rfl)
@[simp] theorem setCtx_t1s (s : State) (n : Nat) (v : CkCtx) : (s.setCtx n v).t1s = s.t1s := (rfl)
@[simp] theorem setCtx_ups (s : State) (n : Nat) (v : CkCtx) : (s.setCtx n v).ups = s.ups := (rfl)
@[simp] theorem setCtx_rings (s : State) (n : Nat) (v : CkCtx) : (s.setCtx n v).rings = s.rings := (rfl)
@[simp] theorem setCtx_blocked (s : State) (n : Nat) (v : CkCtx) : (s.setCtx n v).blocked = s.blocked := (rfl)
@[simp] theorem setCtx_genOffered (s : State) (n : Nat) (v : CkCtx) : (s.setCtx n v).genOffered = s.genOffered := (rfl)
@[simp] theorem setCtx_wbWritten (s : State) (n : Nat) (v : CkCtx) : (s.setCtx n v).wbWritten = s.wbWritten := (rfl)
@[simp] theorem setCtx_cmds (s : State) (n : Nat) (v : CkCtx) : (s.setCtx n v).cmds = s.cmds := (rfl)
@[simp] theorem setCtx_cus (s : State) (n : Nat) (v : CkCtx) : (s.setCtx n v).cus = s.cus := (rfl)
@[simp] theorem setCtx_peer (s : State) (n : Nat) (v : CkCtx) : (s.setCtx n v).peer = s.peer := (rfl)
@[simp] theorem setCtx_boot (s : State) (n : Nat) (v : CkCtx) : (s.setCtx n v).boot = s.boot := (rfl)
@[simp] theorem setCtx_pw (s : State) (n : Nat) (v : CkCtx) : (s.setCtx n v).pw = s.pw := (rfl)
@[simp] theorem setCtx_tap (s : State) (n : Nat) (v : CkCtx) : (s.setCtx n v).tap = s.tap := (rfl)
@[simp] theorem setCtx_at_reg (s : State) (n : Nat) (v : CkCtx) (o : Nat) : (s.setCtx n v).reg o = s.reg o := (rfl)
@[simp] theorem setCtx_at_liveReg (s : State) (n : Nat) (v : CkCtx) (o : Nat) : (s.setCtx n v).liveReg o = s.liveReg o := (rfl)
@[simp] theorem setCtx_at_counter (s : State) (n : Nat) (v : CkCtx) (j : Nat) : (s.setCtx n v).counter j = s.counter j := (rfl)
@[simp] theorem setCtx_at_rb (s : State) (n : Nat) (v : CkCtx) (o i : Nat) : (s.setCtx n v).rb o i = s.rb o i := (rfl)
@[simp] theorem setCtx_at_rf (s : State) (n : Nat) (v : CkCtx) (o lo n' : Nat) : (s.setCtx n v).rf o lo n' = s.rf o lo n' := (rfl)
@[simp] theorem setCtx_at_bob (s : State) (n : Nat) (v : CkCtx) (b : Nat) : (s.setCtx n v).bob b = s.bob b := (rfl)
@[simp] theorem setCtx_at_pin (s : State) (n : Nat) (v : CkCtx) (a : Nat) : (s.setCtx n v).pin a = s.pin a := (rfl)
@[simp] theorem setCtx_at_mrg (s : State) (n : Nat) (v : CkCtx) (m : Nat) : (s.setCtx n v).mrg m = s.mrg m := (rfl)
@[simp] theorem setCtx_at_eg (s : State) (n : Nat) (v : CkCtx) (p : Nat) : (s.setCtx n v).eg p = s.eg p := (rfl)
@[simp] theorem setCtx_at_port (s : State) (n : Nat) (v : CkCtx) (p : Nat) : (s.setCtx n v).port p = s.port p := (rfl)
@[simp] theorem setCtx_at_ring (s : State) (n : Nat) (v : CkCtx) (r : Nat) : (s.setCtx n v).ring r = s.ring r := (rfl)
@[simp] theorem setCtx_at_upQ (s : State) (n : Nat) (v : CkCtx) : (s.setCtx n v).up? = s.up? := (rfl)
@[simp] theorem setCtx_at_awake (s : State) (n : Nat) (v : CkCtx) : (s.setCtx n v).awake = s.awake := (rfl)

/-! ## modPort -/

@[simp] theorem modPort_pending (s : State) (n : Nat) (f : Port → Port) : (modPort n f s).pending = s.pending := (rfl)
@[simp] theorem modPort_inReset (s : State) (n : Nat) (f : Port → Port) : (modPort n f s).inReset = s.inReset := (rfl)
@[simp] theorem modPort_testEn (s : State) (n : Nat) (f : Port → Port) : (modPort n f s).testEn = s.testEn := (rfl)
@[simp] theorem modPort_perst (s : State) (n : Nat) (f : Port → Port) : (modPort n f s).perst = s.perst := (rfl)
@[simp] theorem modPort_bme (s : State) (n : Nat) (f : Port → Port) : (modPort n f s).bme = s.bme := (rfl)
@[simp] theorem modPort_d3hot (s : State) (n : Nat) (f : Port → Port) : (modPort n f s).d3hot = s.d3hot := (rfl)
@[simp] theorem modPort_rank (s : State) (n : Nat) (f : Port → Port) : (modPort n f s).rank = s.rank := (rfl)
@[simp] theorem modPort_irq (s : State) (n : Nat) (f : Port → Port) : (modPort n f s).irq = s.irq := (rfl)
@[simp] theorem modPort_regs (s : State) (n : Nat) (f : Port → Port) : (modPort n f s).regs = s.regs := (rfl)
@[simp] theorem modPort_live (s : State) (n : Nat) (f : Port → Port) : (modPort n f s).live = s.live := (rfl)
@[simp] theorem modPort_latch (s : State) (n : Nat) (f : Port → Port) : (modPort n f s).latch = s.latch := (rfl)
@[simp] theorem modPort_ctr (s : State) (n : Nat) (f : Port → Port) : (modPort n f s).ctr = s.ctr := (rfl)
@[simp] theorem modPort_out (s : State) (n : Nat) (f : Port → Port) : (modPort n f s).out = s.out := (rfl)
@[simp] theorem modPort_freeCtr (s : State) (n : Nat) (f : Port → Port) : (modPort n f s).freeCtr = s.freeCtr := (rfl)
@[simp] theorem modPort_early (s : State) (n : Nat) (f : Port → Port) : (modPort n f s).early = s.early := (rfl)
@[simp] theorem modPort_store (s : State) (n : Nat) (f : Port → Port) : (modPort n f s).store = s.store := (rfl)
@[simp] theorem modPort_bobs (s : State) (n : Nat) (f : Port → Port) : (modPort n f s).bobs = s.bobs := (rfl)
@[simp] theorem modPort_pins (s : State) (n : Nat) (f : Port → Port) : (modPort n f s).pins = s.pins := (rfl)
@[simp] theorem modPort_seqs (s : State) (n : Nat) (f : Port → Port) : (modPort n f s).seqs = s.seqs := (rfl)
@[simp] theorem modPort_engs (s : State) (n : Nat) (f : Port → Port) : (modPort n f s).engs = s.engs := (rfl)
@[simp] theorem modPort_mrgs (s : State) (n : Nat) (f : Port → Port) : (modPort n f s).mrgs = s.mrgs := (rfl)
@[simp] theorem modPort_log (s : State) (n : Nat) (f : Port → Port) : (modPort n f s).log = s.log := (rfl)
@[simp] theorem modPort_ckpts (s : State) (n : Nat) (f : Port → Port) : (modPort n f s).ckpts = s.ckpts := (rfl)
@[simp] theorem modPort_cuts (s : State) (n : Nat) (f : Port → Port) : (modPort n f s).cuts = s.cuts := (rfl)
@[simp] theorem modPort_fan (s : State) (n : Nat) (f : Port → Port) : (modPort n f s).fan = s.fan := (rfl)
@[simp] theorem modPort_seam (s : State) (n : Nat) (f : Port → Port) : (modPort n f s).seam = s.seam := (rfl)
@[simp] theorem modPort_tape (s : State) (n : Nat) (f : Port → Port) : (modPort n f s).tape = s.tape := (rfl)
@[simp] theorem modPort_cells (s : State) (n : Nat) (f : Port → Port) : (modPort n f s).cells = s.cells := (rfl)
@[simp] theorem modPort_cons (s : State) (n : Nat) (f : Port → Port) : (modPort n f s).cons = s.cons := (rfl)
@[simp] theorem modPort_egress (s : State) (n : Nat) (f : Port → Port) : (modPort n f s).egress = s.egress := (rfl)
@[simp] theorem modPort_laneLq (s : State) (n : Nat) (f : Port → Port) : (modPort n f s).laneLq = s.laneLq := (rfl)
@[simp] theorem modPort_builds (s : State) (n : Nat) (f : Port → Port) : (modPort n f s).builds = s.builds := (rfl)
@[simp] theorem modPort_cans (s : State) (n : Nat) (f : Port → Port) : (modPort n f s).cans = s.cans := (rfl)
@[simp] theorem modPort_t1s (s : State) (n : Nat) (f : Port → Port) : (modPort n f s).t1s = s.t1s := (rfl)
@[simp] theorem modPort_ups (s : State) (n : Nat) (f : Port → Port) : (modPort n f s).ups = s.ups := (rfl)
@[simp] theorem modPort_rings (s : State) (n : Nat) (f : Port → Port) : (modPort n f s).rings = s.rings := (rfl)
@[simp] theorem modPort_blocked (s : State) (n : Nat) (f : Port → Port) : (modPort n f s).blocked = s.blocked := (rfl)
@[simp] theorem modPort_genOffered (s : State) (n : Nat) (f : Port → Port) : (modPort n f s).genOffered = s.genOffered := (rfl)
@[simp] theorem modPort_wbWritten (s : State) (n : Nat) (f : Port → Port) : (modPort n f s).wbWritten = s.wbWritten := (rfl)
@[simp] theorem modPort_cmds (s : State) (n : Nat) (f : Port → Port) : (modPort n f s).cmds = s.cmds := (rfl)
@[simp] theorem modPort_cuCtx (s : State) (n : Nat) (f : Port → Port) : (modPort n f s).cuCtx = s.cuCtx := (rfl)
@[simp] theorem modPort_cus (s : State) (n : Nat) (f : Port → Port) : (modPort n f s).cus = s.cus := (rfl)
@[simp] theorem modPort_peer (s : State) (n : Nat) (f : Port → Port) : (modPort n f s).peer = s.peer := (rfl)
@[simp] theorem modPort_boot (s : State) (n : Nat) (f : Port → Port) : (modPort n f s).boot = s.boot := (rfl)
@[simp] theorem modPort_pw (s : State) (n : Nat) (f : Port → Port) : (modPort n f s).pw = s.pw := (rfl)
@[simp] theorem modPort_tap (s : State) (n : Nat) (f : Port → Port) : (modPort n f s).tap = s.tap := (rfl)
@[simp] theorem modPort_at_reg (s : State) (n : Nat) (f : Port → Port) (o : Nat) : (modPort n f s).reg o = s.reg o := (rfl)
@[simp] theorem modPort_at_liveReg (s : State) (n : Nat) (f : Port → Port) (o : Nat) : (modPort n f s).liveReg o = s.liveReg o := (rfl)
@[simp] theorem modPort_at_counter (s : State) (n : Nat) (f : Port → Port) (j : Nat) : (modPort n f s).counter j = s.counter j := (rfl)
@[simp] theorem modPort_at_rb (s : State) (n : Nat) (f : Port → Port) (o i : Nat) : (modPort n f s).rb o i = s.rb o i := (rfl)
@[simp] theorem modPort_at_rf (s : State) (n : Nat) (f : Port → Port) (o lo n' : Nat) : (modPort n f s).rf o lo n' = s.rf o lo n' := (rfl)
@[simp] theorem modPort_at_bob (s : State) (n : Nat) (f : Port → Port) (b : Nat) : (modPort n f s).bob b = s.bob b := (rfl)
@[simp] theorem modPort_at_pin (s : State) (n : Nat) (f : Port → Port) (a : Nat) : (modPort n f s).pin a = s.pin a := (rfl)
@[simp] theorem modPort_at_mrg (s : State) (n : Nat) (f : Port → Port) (m : Nat) : (modPort n f s).mrg m = s.mrg m := (rfl)
@[simp] theorem modPort_at_eg (s : State) (n : Nat) (f : Port → Port) (p : Nat) : (modPort n f s).eg p = s.eg p := (rfl)
@[simp] theorem modPort_at_ring (s : State) (n : Nat) (f : Port → Port) (r : Nat) : (modPort n f s).ring r = s.ring r := (rfl)
@[simp] theorem modPort_at_upQ (s : State) (n : Nat) (f : Port → Port) : (modPort n f s).up? = s.up? := (rfl)
@[simp] theorem modPort_at_awake (s : State) (n : Nat) (f : Port → Port) : (modPort n f s).awake = s.awake := (rfl)

/-! ## modEng -/

@[simp] theorem modEng_pending (s : State) (e : Nat) (f : Eng → Eng) : (modEng e f s).pending = s.pending := (rfl)
@[simp] theorem modEng_inReset (s : State) (e : Nat) (f : Eng → Eng) : (modEng e f s).inReset = s.inReset := (rfl)
@[simp] theorem modEng_testEn (s : State) (e : Nat) (f : Eng → Eng) : (modEng e f s).testEn = s.testEn := (rfl)
@[simp] theorem modEng_perst (s : State) (e : Nat) (f : Eng → Eng) : (modEng e f s).perst = s.perst := (rfl)
@[simp] theorem modEng_bme (s : State) (e : Nat) (f : Eng → Eng) : (modEng e f s).bme = s.bme := (rfl)
@[simp] theorem modEng_d3hot (s : State) (e : Nat) (f : Eng → Eng) : (modEng e f s).d3hot = s.d3hot := (rfl)
@[simp] theorem modEng_rank (s : State) (e : Nat) (f : Eng → Eng) : (modEng e f s).rank = s.rank := (rfl)
@[simp] theorem modEng_irq (s : State) (e : Nat) (f : Eng → Eng) : (modEng e f s).irq = s.irq := (rfl)
@[simp] theorem modEng_regs (s : State) (e : Nat) (f : Eng → Eng) : (modEng e f s).regs = s.regs := (rfl)
@[simp] theorem modEng_live (s : State) (e : Nat) (f : Eng → Eng) : (modEng e f s).live = s.live := (rfl)
@[simp] theorem modEng_latch (s : State) (e : Nat) (f : Eng → Eng) : (modEng e f s).latch = s.latch := (rfl)
@[simp] theorem modEng_ctr (s : State) (e : Nat) (f : Eng → Eng) : (modEng e f s).ctr = s.ctr := (rfl)
@[simp] theorem modEng_out (s : State) (e : Nat) (f : Eng → Eng) : (modEng e f s).out = s.out := (rfl)
@[simp] theorem modEng_freeCtr (s : State) (e : Nat) (f : Eng → Eng) : (modEng e f s).freeCtr = s.freeCtr := (rfl)
@[simp] theorem modEng_early (s : State) (e : Nat) (f : Eng → Eng) : (modEng e f s).early = s.early := (rfl)
@[simp] theorem modEng_store (s : State) (e : Nat) (f : Eng → Eng) : (modEng e f s).store = s.store := (rfl)
@[simp] theorem modEng_bobs (s : State) (e : Nat) (f : Eng → Eng) : (modEng e f s).bobs = s.bobs := (rfl)
@[simp] theorem modEng_pins (s : State) (e : Nat) (f : Eng → Eng) : (modEng e f s).pins = s.pins := (rfl)
@[simp] theorem modEng_seqs (s : State) (e : Nat) (f : Eng → Eng) : (modEng e f s).seqs = s.seqs := (rfl)
@[simp] theorem modEng_mrgs (s : State) (e : Nat) (f : Eng → Eng) : (modEng e f s).mrgs = s.mrgs := (rfl)
@[simp] theorem modEng_log (s : State) (e : Nat) (f : Eng → Eng) : (modEng e f s).log = s.log := (rfl)
@[simp] theorem modEng_ckpts (s : State) (e : Nat) (f : Eng → Eng) : (modEng e f s).ckpts = s.ckpts := (rfl)
@[simp] theorem modEng_cuts (s : State) (e : Nat) (f : Eng → Eng) : (modEng e f s).cuts = s.cuts := (rfl)
@[simp] theorem modEng_fan (s : State) (e : Nat) (f : Eng → Eng) : (modEng e f s).fan = s.fan := (rfl)
@[simp] theorem modEng_seam (s : State) (e : Nat) (f : Eng → Eng) : (modEng e f s).seam = s.seam := (rfl)
@[simp] theorem modEng_tape (s : State) (e : Nat) (f : Eng → Eng) : (modEng e f s).tape = s.tape := (rfl)
@[simp] theorem modEng_cells (s : State) (e : Nat) (f : Eng → Eng) : (modEng e f s).cells = s.cells := (rfl)
@[simp] theorem modEng_cons (s : State) (e : Nat) (f : Eng → Eng) : (modEng e f s).cons = s.cons := (rfl)
@[simp] theorem modEng_egress (s : State) (e : Nat) (f : Eng → Eng) : (modEng e f s).egress = s.egress := (rfl)
@[simp] theorem modEng_laneLq (s : State) (e : Nat) (f : Eng → Eng) : (modEng e f s).laneLq = s.laneLq := (rfl)
@[simp] theorem modEng_builds (s : State) (e : Nat) (f : Eng → Eng) : (modEng e f s).builds = s.builds := (rfl)
@[simp] theorem modEng_ports (s : State) (e : Nat) (f : Eng → Eng) : (modEng e f s).ports = s.ports := (rfl)
@[simp] theorem modEng_cans (s : State) (e : Nat) (f : Eng → Eng) : (modEng e f s).cans = s.cans := (rfl)
@[simp] theorem modEng_t1s (s : State) (e : Nat) (f : Eng → Eng) : (modEng e f s).t1s = s.t1s := (rfl)
@[simp] theorem modEng_ups (s : State) (e : Nat) (f : Eng → Eng) : (modEng e f s).ups = s.ups := (rfl)
@[simp] theorem modEng_rings (s : State) (e : Nat) (f : Eng → Eng) : (modEng e f s).rings = s.rings := (rfl)
@[simp] theorem modEng_blocked (s : State) (e : Nat) (f : Eng → Eng) : (modEng e f s).blocked = s.blocked := (rfl)
@[simp] theorem modEng_genOffered (s : State) (e : Nat) (f : Eng → Eng) : (modEng e f s).genOffered = s.genOffered := (rfl)
@[simp] theorem modEng_wbWritten (s : State) (e : Nat) (f : Eng → Eng) : (modEng e f s).wbWritten = s.wbWritten := (rfl)
@[simp] theorem modEng_cmds (s : State) (e : Nat) (f : Eng → Eng) : (modEng e f s).cmds = s.cmds := (rfl)
@[simp] theorem modEng_cuCtx (s : State) (e : Nat) (f : Eng → Eng) : (modEng e f s).cuCtx = s.cuCtx := (rfl)
@[simp] theorem modEng_cus (s : State) (e : Nat) (f : Eng → Eng) : (modEng e f s).cus = s.cus := (rfl)
@[simp] theorem modEng_peer (s : State) (e : Nat) (f : Eng → Eng) : (modEng e f s).peer = s.peer := (rfl)
@[simp] theorem modEng_boot (s : State) (e : Nat) (f : Eng → Eng) : (modEng e f s).boot = s.boot := (rfl)
@[simp] theorem modEng_pw (s : State) (e : Nat) (f : Eng → Eng) : (modEng e f s).pw = s.pw := (rfl)
@[simp] theorem modEng_tap (s : State) (e : Nat) (f : Eng → Eng) : (modEng e f s).tap = s.tap := (rfl)
@[simp] theorem modEng_at_reg (s : State) (e : Nat) (f : Eng → Eng) (o : Nat) : (modEng e f s).reg o = s.reg o := (rfl)
@[simp] theorem modEng_at_liveReg (s : State) (e : Nat) (f : Eng → Eng) (o : Nat) : (modEng e f s).liveReg o = s.liveReg o := (rfl)
@[simp] theorem modEng_at_counter (s : State) (e : Nat) (f : Eng → Eng) (j : Nat) : (modEng e f s).counter j = s.counter j := (rfl)
@[simp] theorem modEng_at_rb (s : State) (e : Nat) (f : Eng → Eng) (o i : Nat) : (modEng e f s).rb o i = s.rb o i := (rfl)
@[simp] theorem modEng_at_rf (s : State) (e : Nat) (f : Eng → Eng) (o lo n : Nat) : (modEng e f s).rf o lo n = s.rf o lo n := (rfl)
@[simp] theorem modEng_at_bob (s : State) (e : Nat) (f : Eng → Eng) (b : Nat) : (modEng e f s).bob b = s.bob b := (rfl)
@[simp] theorem modEng_at_pin (s : State) (e : Nat) (f : Eng → Eng) (a : Nat) : (modEng e f s).pin a = s.pin a := (rfl)
@[simp] theorem modEng_at_mrg (s : State) (e : Nat) (f : Eng → Eng) (m : Nat) : (modEng e f s).mrg m = s.mrg m := (rfl)
@[simp] theorem modEng_at_eg (s : State) (e : Nat) (f : Eng → Eng) (p : Nat) : (modEng e f s).eg p = s.eg p := (rfl)
@[simp] theorem modEng_at_port (s : State) (e : Nat) (f : Eng → Eng) (p : Nat) : (modEng e f s).port p = s.port p := (rfl)
@[simp] theorem modEng_at_ring (s : State) (e : Nat) (f : Eng → Eng) (r : Nat) : (modEng e f s).ring r = s.ring r := (rfl)
@[simp] theorem modEng_at_upQ (s : State) (e : Nat) (f : Eng → Eng) : (modEng e f s).up? = s.up? := (rfl)
@[simp] theorem modEng_at_awake (s : State) (e : Nat) (f : Eng → Eng) : (modEng e f s).awake = s.awake := (rfl)

/-! ## modSeam -/

@[simp] theorem modSeam_pending (s : State) (f : Seam → Seam) : (modSeam f s).pending = s.pending := (rfl)
@[simp] theorem modSeam_inReset (s : State) (f : Seam → Seam) : (modSeam f s).inReset = s.inReset := (rfl)
@[simp] theorem modSeam_testEn (s : State) (f : Seam → Seam) : (modSeam f s).testEn = s.testEn := (rfl)
@[simp] theorem modSeam_perst (s : State) (f : Seam → Seam) : (modSeam f s).perst = s.perst := (rfl)
@[simp] theorem modSeam_bme (s : State) (f : Seam → Seam) : (modSeam f s).bme = s.bme := (rfl)
@[simp] theorem modSeam_d3hot (s : State) (f : Seam → Seam) : (modSeam f s).d3hot = s.d3hot := (rfl)
@[simp] theorem modSeam_rank (s : State) (f : Seam → Seam) : (modSeam f s).rank = s.rank := (rfl)
@[simp] theorem modSeam_irq (s : State) (f : Seam → Seam) : (modSeam f s).irq = s.irq := (rfl)
@[simp] theorem modSeam_regs (s : State) (f : Seam → Seam) : (modSeam f s).regs = s.regs := (rfl)
@[simp] theorem modSeam_live (s : State) (f : Seam → Seam) : (modSeam f s).live = s.live := (rfl)
@[simp] theorem modSeam_latch (s : State) (f : Seam → Seam) : (modSeam f s).latch = s.latch := (rfl)
@[simp] theorem modSeam_ctr (s : State) (f : Seam → Seam) : (modSeam f s).ctr = s.ctr := (rfl)
@[simp] theorem modSeam_out (s : State) (f : Seam → Seam) : (modSeam f s).out = s.out := (rfl)
@[simp] theorem modSeam_freeCtr (s : State) (f : Seam → Seam) : (modSeam f s).freeCtr = s.freeCtr := (rfl)
@[simp] theorem modSeam_early (s : State) (f : Seam → Seam) : (modSeam f s).early = s.early := (rfl)
@[simp] theorem modSeam_store (s : State) (f : Seam → Seam) : (modSeam f s).store = s.store := (rfl)
@[simp] theorem modSeam_bobs (s : State) (f : Seam → Seam) : (modSeam f s).bobs = s.bobs := (rfl)
@[simp] theorem modSeam_pins (s : State) (f : Seam → Seam) : (modSeam f s).pins = s.pins := (rfl)
@[simp] theorem modSeam_seqs (s : State) (f : Seam → Seam) : (modSeam f s).seqs = s.seqs := (rfl)
@[simp] theorem modSeam_engs (s : State) (f : Seam → Seam) : (modSeam f s).engs = s.engs := (rfl)
@[simp] theorem modSeam_mrgs (s : State) (f : Seam → Seam) : (modSeam f s).mrgs = s.mrgs := (rfl)
@[simp] theorem modSeam_log (s : State) (f : Seam → Seam) : (modSeam f s).log = s.log := (rfl)
@[simp] theorem modSeam_ckpts (s : State) (f : Seam → Seam) : (modSeam f s).ckpts = s.ckpts := (rfl)
@[simp] theorem modSeam_cuts (s : State) (f : Seam → Seam) : (modSeam f s).cuts = s.cuts := (rfl)
@[simp] theorem modSeam_fan (s : State) (f : Seam → Seam) : (modSeam f s).fan = s.fan := (rfl)
@[simp] theorem modSeam_tape (s : State) (f : Seam → Seam) : (modSeam f s).tape = s.tape := (rfl)
@[simp] theorem modSeam_cells (s : State) (f : Seam → Seam) : (modSeam f s).cells = s.cells := (rfl)
@[simp] theorem modSeam_cons (s : State) (f : Seam → Seam) : (modSeam f s).cons = s.cons := (rfl)
@[simp] theorem modSeam_egress (s : State) (f : Seam → Seam) : (modSeam f s).egress = s.egress := (rfl)
@[simp] theorem modSeam_laneLq (s : State) (f : Seam → Seam) : (modSeam f s).laneLq = s.laneLq := (rfl)
@[simp] theorem modSeam_builds (s : State) (f : Seam → Seam) : (modSeam f s).builds = s.builds := (rfl)
@[simp] theorem modSeam_ports (s : State) (f : Seam → Seam) : (modSeam f s).ports = s.ports := (rfl)
@[simp] theorem modSeam_cans (s : State) (f : Seam → Seam) : (modSeam f s).cans = s.cans := (rfl)
@[simp] theorem modSeam_t1s (s : State) (f : Seam → Seam) : (modSeam f s).t1s = s.t1s := (rfl)
@[simp] theorem modSeam_ups (s : State) (f : Seam → Seam) : (modSeam f s).ups = s.ups := (rfl)
@[simp] theorem modSeam_rings (s : State) (f : Seam → Seam) : (modSeam f s).rings = s.rings := (rfl)
@[simp] theorem modSeam_blocked (s : State) (f : Seam → Seam) : (modSeam f s).blocked = s.blocked := (rfl)
@[simp] theorem modSeam_genOffered (s : State) (f : Seam → Seam) : (modSeam f s).genOffered = s.genOffered := (rfl)
@[simp] theorem modSeam_wbWritten (s : State) (f : Seam → Seam) : (modSeam f s).wbWritten = s.wbWritten := (rfl)
@[simp] theorem modSeam_cmds (s : State) (f : Seam → Seam) : (modSeam f s).cmds = s.cmds := (rfl)
@[simp] theorem modSeam_cuCtx (s : State) (f : Seam → Seam) : (modSeam f s).cuCtx = s.cuCtx := (rfl)
@[simp] theorem modSeam_cus (s : State) (f : Seam → Seam) : (modSeam f s).cus = s.cus := (rfl)
@[simp] theorem modSeam_peer (s : State) (f : Seam → Seam) : (modSeam f s).peer = s.peer := (rfl)
@[simp] theorem modSeam_boot (s : State) (f : Seam → Seam) : (modSeam f s).boot = s.boot := (rfl)
@[simp] theorem modSeam_pw (s : State) (f : Seam → Seam) : (modSeam f s).pw = s.pw := (rfl)
@[simp] theorem modSeam_tap (s : State) (f : Seam → Seam) : (modSeam f s).tap = s.tap := (rfl)
@[simp] theorem modSeam_at_reg (s : State) (f : Seam → Seam) (o : Nat) : (modSeam f s).reg o = s.reg o := (rfl)
@[simp] theorem modSeam_at_liveReg (s : State) (f : Seam → Seam) (o : Nat) : (modSeam f s).liveReg o = s.liveReg o := (rfl)
@[simp] theorem modSeam_at_counter (s : State) (f : Seam → Seam) (j : Nat) : (modSeam f s).counter j = s.counter j := (rfl)
@[simp] theorem modSeam_at_rb (s : State) (f : Seam → Seam) (o i : Nat) : (modSeam f s).rb o i = s.rb o i := (rfl)
@[simp] theorem modSeam_at_rf (s : State) (f : Seam → Seam) (o lo n : Nat) : (modSeam f s).rf o lo n = s.rf o lo n := (rfl)
@[simp] theorem modSeam_at_bob (s : State) (f : Seam → Seam) (b : Nat) : (modSeam f s).bob b = s.bob b := (rfl)
@[simp] theorem modSeam_at_pin (s : State) (f : Seam → Seam) (a : Nat) : (modSeam f s).pin a = s.pin a := (rfl)
@[simp] theorem modSeam_at_mrg (s : State) (f : Seam → Seam) (m : Nat) : (modSeam f s).mrg m = s.mrg m := (rfl)
@[simp] theorem modSeam_at_eg (s : State) (f : Seam → Seam) (p : Nat) : (modSeam f s).eg p = s.eg p := (rfl)
@[simp] theorem modSeam_at_port (s : State) (f : Seam → Seam) (p : Nat) : (modSeam f s).port p = s.port p := (rfl)
@[simp] theorem modSeam_at_ring (s : State) (f : Seam → Seam) (r : Nat) : (modSeam f s).ring r = s.ring r := (rfl)
@[simp] theorem modSeam_at_upQ (s : State) (f : Seam → Seam) : (modSeam f s).up? = s.up? := (rfl)
@[simp] theorem modSeam_at_awake (s : State) (f : Seam → Seam) : (modSeam f s).awake = s.awake := (rfl)

/-! ## modCons -/

@[simp] theorem modCons_pending (s : State) (f : Cons → Cons) : (modCons f s).pending = s.pending := (rfl)
@[simp] theorem modCons_inReset (s : State) (f : Cons → Cons) : (modCons f s).inReset = s.inReset := (rfl)
@[simp] theorem modCons_testEn (s : State) (f : Cons → Cons) : (modCons f s).testEn = s.testEn := (rfl)
@[simp] theorem modCons_perst (s : State) (f : Cons → Cons) : (modCons f s).perst = s.perst := (rfl)
@[simp] theorem modCons_bme (s : State) (f : Cons → Cons) : (modCons f s).bme = s.bme := (rfl)
@[simp] theorem modCons_d3hot (s : State) (f : Cons → Cons) : (modCons f s).d3hot = s.d3hot := (rfl)
@[simp] theorem modCons_rank (s : State) (f : Cons → Cons) : (modCons f s).rank = s.rank := (rfl)
@[simp] theorem modCons_irq (s : State) (f : Cons → Cons) : (modCons f s).irq = s.irq := (rfl)
@[simp] theorem modCons_regs (s : State) (f : Cons → Cons) : (modCons f s).regs = s.regs := (rfl)
@[simp] theorem modCons_live (s : State) (f : Cons → Cons) : (modCons f s).live = s.live := (rfl)
@[simp] theorem modCons_latch (s : State) (f : Cons → Cons) : (modCons f s).latch = s.latch := (rfl)
@[simp] theorem modCons_ctr (s : State) (f : Cons → Cons) : (modCons f s).ctr = s.ctr := (rfl)
@[simp] theorem modCons_out (s : State) (f : Cons → Cons) : (modCons f s).out = s.out := (rfl)
@[simp] theorem modCons_freeCtr (s : State) (f : Cons → Cons) : (modCons f s).freeCtr = s.freeCtr := (rfl)
@[simp] theorem modCons_early (s : State) (f : Cons → Cons) : (modCons f s).early = s.early := (rfl)
@[simp] theorem modCons_store (s : State) (f : Cons → Cons) : (modCons f s).store = s.store := (rfl)
@[simp] theorem modCons_bobs (s : State) (f : Cons → Cons) : (modCons f s).bobs = s.bobs := (rfl)
@[simp] theorem modCons_pins (s : State) (f : Cons → Cons) : (modCons f s).pins = s.pins := (rfl)
@[simp] theorem modCons_seqs (s : State) (f : Cons → Cons) : (modCons f s).seqs = s.seqs := (rfl)
@[simp] theorem modCons_engs (s : State) (f : Cons → Cons) : (modCons f s).engs = s.engs := (rfl)
@[simp] theorem modCons_mrgs (s : State) (f : Cons → Cons) : (modCons f s).mrgs = s.mrgs := (rfl)
@[simp] theorem modCons_log (s : State) (f : Cons → Cons) : (modCons f s).log = s.log := (rfl)
@[simp] theorem modCons_ckpts (s : State) (f : Cons → Cons) : (modCons f s).ckpts = s.ckpts := (rfl)
@[simp] theorem modCons_cuts (s : State) (f : Cons → Cons) : (modCons f s).cuts = s.cuts := (rfl)
@[simp] theorem modCons_fan (s : State) (f : Cons → Cons) : (modCons f s).fan = s.fan := (rfl)
@[simp] theorem modCons_seam (s : State) (f : Cons → Cons) : (modCons f s).seam = s.seam := (rfl)
@[simp] theorem modCons_tape (s : State) (f : Cons → Cons) : (modCons f s).tape = s.tape := (rfl)
@[simp] theorem modCons_cells (s : State) (f : Cons → Cons) : (modCons f s).cells = s.cells := (rfl)
@[simp] theorem modCons_egress (s : State) (f : Cons → Cons) : (modCons f s).egress = s.egress := (rfl)
@[simp] theorem modCons_laneLq (s : State) (f : Cons → Cons) : (modCons f s).laneLq = s.laneLq := (rfl)
@[simp] theorem modCons_builds (s : State) (f : Cons → Cons) : (modCons f s).builds = s.builds := (rfl)
@[simp] theorem modCons_ports (s : State) (f : Cons → Cons) : (modCons f s).ports = s.ports := (rfl)
@[simp] theorem modCons_cans (s : State) (f : Cons → Cons) : (modCons f s).cans = s.cans := (rfl)
@[simp] theorem modCons_t1s (s : State) (f : Cons → Cons) : (modCons f s).t1s = s.t1s := (rfl)
@[simp] theorem modCons_ups (s : State) (f : Cons → Cons) : (modCons f s).ups = s.ups := (rfl)
@[simp] theorem modCons_rings (s : State) (f : Cons → Cons) : (modCons f s).rings = s.rings := (rfl)
@[simp] theorem modCons_blocked (s : State) (f : Cons → Cons) : (modCons f s).blocked = s.blocked := (rfl)
@[simp] theorem modCons_genOffered (s : State) (f : Cons → Cons) : (modCons f s).genOffered = s.genOffered := (rfl)
@[simp] theorem modCons_wbWritten (s : State) (f : Cons → Cons) : (modCons f s).wbWritten = s.wbWritten := (rfl)
@[simp] theorem modCons_cmds (s : State) (f : Cons → Cons) : (modCons f s).cmds = s.cmds := (rfl)
@[simp] theorem modCons_cuCtx (s : State) (f : Cons → Cons) : (modCons f s).cuCtx = s.cuCtx := (rfl)
@[simp] theorem modCons_cus (s : State) (f : Cons → Cons) : (modCons f s).cus = s.cus := (rfl)
@[simp] theorem modCons_peer (s : State) (f : Cons → Cons) : (modCons f s).peer = s.peer := (rfl)
@[simp] theorem modCons_boot (s : State) (f : Cons → Cons) : (modCons f s).boot = s.boot := (rfl)
@[simp] theorem modCons_pw (s : State) (f : Cons → Cons) : (modCons f s).pw = s.pw := (rfl)
@[simp] theorem modCons_tap (s : State) (f : Cons → Cons) : (modCons f s).tap = s.tap := (rfl)
@[simp] theorem modCons_at_reg (s : State) (f : Cons → Cons) (o : Nat) : (modCons f s).reg o = s.reg o := (rfl)
@[simp] theorem modCons_at_liveReg (s : State) (f : Cons → Cons) (o : Nat) : (modCons f s).liveReg o = s.liveReg o := (rfl)
@[simp] theorem modCons_at_counter (s : State) (f : Cons → Cons) (j : Nat) : (modCons f s).counter j = s.counter j := (rfl)
@[simp] theorem modCons_at_rb (s : State) (f : Cons → Cons) (o i : Nat) : (modCons f s).rb o i = s.rb o i := (rfl)
@[simp] theorem modCons_at_rf (s : State) (f : Cons → Cons) (o lo n : Nat) : (modCons f s).rf o lo n = s.rf o lo n := (rfl)
@[simp] theorem modCons_at_bob (s : State) (f : Cons → Cons) (b : Nat) : (modCons f s).bob b = s.bob b := (rfl)
@[simp] theorem modCons_at_pin (s : State) (f : Cons → Cons) (a : Nat) : (modCons f s).pin a = s.pin a := (rfl)
@[simp] theorem modCons_at_mrg (s : State) (f : Cons → Cons) (m : Nat) : (modCons f s).mrg m = s.mrg m := (rfl)
@[simp] theorem modCons_at_eg (s : State) (f : Cons → Cons) (p : Nat) : (modCons f s).eg p = s.eg p := (rfl)
@[simp] theorem modCons_at_port (s : State) (f : Cons → Cons) (p : Nat) : (modCons f s).port p = s.port p := (rfl)
@[simp] theorem modCons_at_ring (s : State) (f : Cons → Cons) (r : Nat) : (modCons f s).ring r = s.ring r := (rfl)
@[simp] theorem modCons_at_upQ (s : State) (f : Cons → Cons) : (modCons f s).up? = s.up? := (rfl)
@[simp] theorem modCons_at_awake (s : State) (f : Cons → Cons) : (modCons f s).awake = s.awake := (rfl)

/-! ## modBoot -/

@[simp] theorem modBoot_pending (s : State) (f : Boot → Boot) : (modBoot f s).pending = s.pending := (rfl)
@[simp] theorem modBoot_inReset (s : State) (f : Boot → Boot) : (modBoot f s).inReset = s.inReset := (rfl)
@[simp] theorem modBoot_testEn (s : State) (f : Boot → Boot) : (modBoot f s).testEn = s.testEn := (rfl)
@[simp] theorem modBoot_perst (s : State) (f : Boot → Boot) : (modBoot f s).perst = s.perst := (rfl)
@[simp] theorem modBoot_bme (s : State) (f : Boot → Boot) : (modBoot f s).bme = s.bme := (rfl)
@[simp] theorem modBoot_d3hot (s : State) (f : Boot → Boot) : (modBoot f s).d3hot = s.d3hot := (rfl)
@[simp] theorem modBoot_rank (s : State) (f : Boot → Boot) : (modBoot f s).rank = s.rank := (rfl)
@[simp] theorem modBoot_irq (s : State) (f : Boot → Boot) : (modBoot f s).irq = s.irq := (rfl)
@[simp] theorem modBoot_regs (s : State) (f : Boot → Boot) : (modBoot f s).regs = s.regs := (rfl)
@[simp] theorem modBoot_live (s : State) (f : Boot → Boot) : (modBoot f s).live = s.live := (rfl)
@[simp] theorem modBoot_latch (s : State) (f : Boot → Boot) : (modBoot f s).latch = s.latch := (rfl)
@[simp] theorem modBoot_ctr (s : State) (f : Boot → Boot) : (modBoot f s).ctr = s.ctr := (rfl)
@[simp] theorem modBoot_out (s : State) (f : Boot → Boot) : (modBoot f s).out = s.out := (rfl)
@[simp] theorem modBoot_freeCtr (s : State) (f : Boot → Boot) : (modBoot f s).freeCtr = s.freeCtr := (rfl)
@[simp] theorem modBoot_early (s : State) (f : Boot → Boot) : (modBoot f s).early = s.early := (rfl)
@[simp] theorem modBoot_store (s : State) (f : Boot → Boot) : (modBoot f s).store = s.store := (rfl)
@[simp] theorem modBoot_bobs (s : State) (f : Boot → Boot) : (modBoot f s).bobs = s.bobs := (rfl)
@[simp] theorem modBoot_pins (s : State) (f : Boot → Boot) : (modBoot f s).pins = s.pins := (rfl)
@[simp] theorem modBoot_seqs (s : State) (f : Boot → Boot) : (modBoot f s).seqs = s.seqs := (rfl)
@[simp] theorem modBoot_engs (s : State) (f : Boot → Boot) : (modBoot f s).engs = s.engs := (rfl)
@[simp] theorem modBoot_mrgs (s : State) (f : Boot → Boot) : (modBoot f s).mrgs = s.mrgs := (rfl)
@[simp] theorem modBoot_log (s : State) (f : Boot → Boot) : (modBoot f s).log = s.log := (rfl)
@[simp] theorem modBoot_ckpts (s : State) (f : Boot → Boot) : (modBoot f s).ckpts = s.ckpts := (rfl)
@[simp] theorem modBoot_cuts (s : State) (f : Boot → Boot) : (modBoot f s).cuts = s.cuts := (rfl)
@[simp] theorem modBoot_fan (s : State) (f : Boot → Boot) : (modBoot f s).fan = s.fan := (rfl)
@[simp] theorem modBoot_seam (s : State) (f : Boot → Boot) : (modBoot f s).seam = s.seam := (rfl)
@[simp] theorem modBoot_tape (s : State) (f : Boot → Boot) : (modBoot f s).tape = s.tape := (rfl)
@[simp] theorem modBoot_cells (s : State) (f : Boot → Boot) : (modBoot f s).cells = s.cells := (rfl)
@[simp] theorem modBoot_cons (s : State) (f : Boot → Boot) : (modBoot f s).cons = s.cons := (rfl)
@[simp] theorem modBoot_egress (s : State) (f : Boot → Boot) : (modBoot f s).egress = s.egress := (rfl)
@[simp] theorem modBoot_laneLq (s : State) (f : Boot → Boot) : (modBoot f s).laneLq = s.laneLq := (rfl)
@[simp] theorem modBoot_builds (s : State) (f : Boot → Boot) : (modBoot f s).builds = s.builds := (rfl)
@[simp] theorem modBoot_ports (s : State) (f : Boot → Boot) : (modBoot f s).ports = s.ports := (rfl)
@[simp] theorem modBoot_cans (s : State) (f : Boot → Boot) : (modBoot f s).cans = s.cans := (rfl)
@[simp] theorem modBoot_t1s (s : State) (f : Boot → Boot) : (modBoot f s).t1s = s.t1s := (rfl)
@[simp] theorem modBoot_ups (s : State) (f : Boot → Boot) : (modBoot f s).ups = s.ups := (rfl)
@[simp] theorem modBoot_rings (s : State) (f : Boot → Boot) : (modBoot f s).rings = s.rings := (rfl)
@[simp] theorem modBoot_blocked (s : State) (f : Boot → Boot) : (modBoot f s).blocked = s.blocked := (rfl)
@[simp] theorem modBoot_genOffered (s : State) (f : Boot → Boot) : (modBoot f s).genOffered = s.genOffered := (rfl)
@[simp] theorem modBoot_wbWritten (s : State) (f : Boot → Boot) : (modBoot f s).wbWritten = s.wbWritten := (rfl)
@[simp] theorem modBoot_cmds (s : State) (f : Boot → Boot) : (modBoot f s).cmds = s.cmds := (rfl)
@[simp] theorem modBoot_cuCtx (s : State) (f : Boot → Boot) : (modBoot f s).cuCtx = s.cuCtx := (rfl)
@[simp] theorem modBoot_cus (s : State) (f : Boot → Boot) : (modBoot f s).cus = s.cus := (rfl)
@[simp] theorem modBoot_peer (s : State) (f : Boot → Boot) : (modBoot f s).peer = s.peer := (rfl)
@[simp] theorem modBoot_pw (s : State) (f : Boot → Boot) : (modBoot f s).pw = s.pw := (rfl)
@[simp] theorem modBoot_tap (s : State) (f : Boot → Boot) : (modBoot f s).tap = s.tap := (rfl)
@[simp] theorem modBoot_at_reg (s : State) (f : Boot → Boot) (o : Nat) : (modBoot f s).reg o = s.reg o := (rfl)
@[simp] theorem modBoot_at_liveReg (s : State) (f : Boot → Boot) (o : Nat) : (modBoot f s).liveReg o = s.liveReg o := (rfl)
@[simp] theorem modBoot_at_counter (s : State) (f : Boot → Boot) (j : Nat) : (modBoot f s).counter j = s.counter j := (rfl)
@[simp] theorem modBoot_at_rb (s : State) (f : Boot → Boot) (o i : Nat) : (modBoot f s).rb o i = s.rb o i := (rfl)
@[simp] theorem modBoot_at_rf (s : State) (f : Boot → Boot) (o lo n : Nat) : (modBoot f s).rf o lo n = s.rf o lo n := (rfl)
@[simp] theorem modBoot_at_bob (s : State) (f : Boot → Boot) (b : Nat) : (modBoot f s).bob b = s.bob b := (rfl)
@[simp] theorem modBoot_at_pin (s : State) (f : Boot → Boot) (a : Nat) : (modBoot f s).pin a = s.pin a := (rfl)
@[simp] theorem modBoot_at_mrg (s : State) (f : Boot → Boot) (m : Nat) : (modBoot f s).mrg m = s.mrg m := (rfl)
@[simp] theorem modBoot_at_eg (s : State) (f : Boot → Boot) (p : Nat) : (modBoot f s).eg p = s.eg p := (rfl)
@[simp] theorem modBoot_at_port (s : State) (f : Boot → Boot) (p : Nat) : (modBoot f s).port p = s.port p := (rfl)
@[simp] theorem modBoot_at_ring (s : State) (f : Boot → Boot) (r : Nat) : (modBoot f s).ring r = s.ring r := (rfl)
@[simp] theorem modBoot_at_upQ (s : State) (f : Boot → Boot) : (modBoot f s).up? = s.up? := (rfl)
@[simp] theorem modBoot_at_awake (s : State) (f : Boot → Boot) : (modBoot f s).awake = s.awake := (rfl)

/-! ## modPeer -/

@[simp] theorem modPeer_pending (s : State) (f : Peer → Peer) : (modPeer f s).pending = s.pending := (rfl)
@[simp] theorem modPeer_inReset (s : State) (f : Peer → Peer) : (modPeer f s).inReset = s.inReset := (rfl)
@[simp] theorem modPeer_testEn (s : State) (f : Peer → Peer) : (modPeer f s).testEn = s.testEn := (rfl)
@[simp] theorem modPeer_perst (s : State) (f : Peer → Peer) : (modPeer f s).perst = s.perst := (rfl)
@[simp] theorem modPeer_bme (s : State) (f : Peer → Peer) : (modPeer f s).bme = s.bme := (rfl)
@[simp] theorem modPeer_d3hot (s : State) (f : Peer → Peer) : (modPeer f s).d3hot = s.d3hot := (rfl)
@[simp] theorem modPeer_rank (s : State) (f : Peer → Peer) : (modPeer f s).rank = s.rank := (rfl)
@[simp] theorem modPeer_irq (s : State) (f : Peer → Peer) : (modPeer f s).irq = s.irq := (rfl)
@[simp] theorem modPeer_regs (s : State) (f : Peer → Peer) : (modPeer f s).regs = s.regs := (rfl)
@[simp] theorem modPeer_live (s : State) (f : Peer → Peer) : (modPeer f s).live = s.live := (rfl)
@[simp] theorem modPeer_latch (s : State) (f : Peer → Peer) : (modPeer f s).latch = s.latch := (rfl)
@[simp] theorem modPeer_ctr (s : State) (f : Peer → Peer) : (modPeer f s).ctr = s.ctr := (rfl)
@[simp] theorem modPeer_out (s : State) (f : Peer → Peer) : (modPeer f s).out = s.out := (rfl)
@[simp] theorem modPeer_freeCtr (s : State) (f : Peer → Peer) : (modPeer f s).freeCtr = s.freeCtr := (rfl)
@[simp] theorem modPeer_early (s : State) (f : Peer → Peer) : (modPeer f s).early = s.early := (rfl)
@[simp] theorem modPeer_store (s : State) (f : Peer → Peer) : (modPeer f s).store = s.store := (rfl)
@[simp] theorem modPeer_bobs (s : State) (f : Peer → Peer) : (modPeer f s).bobs = s.bobs := (rfl)
@[simp] theorem modPeer_pins (s : State) (f : Peer → Peer) : (modPeer f s).pins = s.pins := (rfl)
@[simp] theorem modPeer_seqs (s : State) (f : Peer → Peer) : (modPeer f s).seqs = s.seqs := (rfl)
@[simp] theorem modPeer_engs (s : State) (f : Peer → Peer) : (modPeer f s).engs = s.engs := (rfl)
@[simp] theorem modPeer_mrgs (s : State) (f : Peer → Peer) : (modPeer f s).mrgs = s.mrgs := (rfl)
@[simp] theorem modPeer_log (s : State) (f : Peer → Peer) : (modPeer f s).log = s.log := (rfl)
@[simp] theorem modPeer_ckpts (s : State) (f : Peer → Peer) : (modPeer f s).ckpts = s.ckpts := (rfl)
@[simp] theorem modPeer_cuts (s : State) (f : Peer → Peer) : (modPeer f s).cuts = s.cuts := (rfl)
@[simp] theorem modPeer_fan (s : State) (f : Peer → Peer) : (modPeer f s).fan = s.fan := (rfl)
@[simp] theorem modPeer_seam (s : State) (f : Peer → Peer) : (modPeer f s).seam = s.seam := (rfl)
@[simp] theorem modPeer_tape (s : State) (f : Peer → Peer) : (modPeer f s).tape = s.tape := (rfl)
@[simp] theorem modPeer_cells (s : State) (f : Peer → Peer) : (modPeer f s).cells = s.cells := (rfl)
@[simp] theorem modPeer_cons (s : State) (f : Peer → Peer) : (modPeer f s).cons = s.cons := (rfl)
@[simp] theorem modPeer_egress (s : State) (f : Peer → Peer) : (modPeer f s).egress = s.egress := (rfl)
@[simp] theorem modPeer_laneLq (s : State) (f : Peer → Peer) : (modPeer f s).laneLq = s.laneLq := (rfl)
@[simp] theorem modPeer_builds (s : State) (f : Peer → Peer) : (modPeer f s).builds = s.builds := (rfl)
@[simp] theorem modPeer_ports (s : State) (f : Peer → Peer) : (modPeer f s).ports = s.ports := (rfl)
@[simp] theorem modPeer_cans (s : State) (f : Peer → Peer) : (modPeer f s).cans = s.cans := (rfl)
@[simp] theorem modPeer_t1s (s : State) (f : Peer → Peer) : (modPeer f s).t1s = s.t1s := (rfl)
@[simp] theorem modPeer_ups (s : State) (f : Peer → Peer) : (modPeer f s).ups = s.ups := (rfl)
@[simp] theorem modPeer_rings (s : State) (f : Peer → Peer) : (modPeer f s).rings = s.rings := (rfl)
@[simp] theorem modPeer_blocked (s : State) (f : Peer → Peer) : (modPeer f s).blocked = s.blocked := (rfl)
@[simp] theorem modPeer_genOffered (s : State) (f : Peer → Peer) : (modPeer f s).genOffered = s.genOffered := (rfl)
@[simp] theorem modPeer_wbWritten (s : State) (f : Peer → Peer) : (modPeer f s).wbWritten = s.wbWritten := (rfl)
@[simp] theorem modPeer_cmds (s : State) (f : Peer → Peer) : (modPeer f s).cmds = s.cmds := (rfl)
@[simp] theorem modPeer_cuCtx (s : State) (f : Peer → Peer) : (modPeer f s).cuCtx = s.cuCtx := (rfl)
@[simp] theorem modPeer_cus (s : State) (f : Peer → Peer) : (modPeer f s).cus = s.cus := (rfl)
@[simp] theorem modPeer_boot (s : State) (f : Peer → Peer) : (modPeer f s).boot = s.boot := (rfl)
@[simp] theorem modPeer_pw (s : State) (f : Peer → Peer) : (modPeer f s).pw = s.pw := (rfl)
@[simp] theorem modPeer_tap (s : State) (f : Peer → Peer) : (modPeer f s).tap = s.tap := (rfl)
@[simp] theorem modPeer_at_reg (s : State) (f : Peer → Peer) (o : Nat) : (modPeer f s).reg o = s.reg o := (rfl)
@[simp] theorem modPeer_at_liveReg (s : State) (f : Peer → Peer) (o : Nat) : (modPeer f s).liveReg o = s.liveReg o := (rfl)
@[simp] theorem modPeer_at_counter (s : State) (f : Peer → Peer) (j : Nat) : (modPeer f s).counter j = s.counter j := (rfl)
@[simp] theorem modPeer_at_rb (s : State) (f : Peer → Peer) (o i : Nat) : (modPeer f s).rb o i = s.rb o i := (rfl)
@[simp] theorem modPeer_at_rf (s : State) (f : Peer → Peer) (o lo n : Nat) : (modPeer f s).rf o lo n = s.rf o lo n := (rfl)
@[simp] theorem modPeer_at_bob (s : State) (f : Peer → Peer) (b : Nat) : (modPeer f s).bob b = s.bob b := (rfl)
@[simp] theorem modPeer_at_pin (s : State) (f : Peer → Peer) (a : Nat) : (modPeer f s).pin a = s.pin a := (rfl)
@[simp] theorem modPeer_at_mrg (s : State) (f : Peer → Peer) (m : Nat) : (modPeer f s).mrg m = s.mrg m := (rfl)
@[simp] theorem modPeer_at_eg (s : State) (f : Peer → Peer) (p : Nat) : (modPeer f s).eg p = s.eg p := (rfl)
@[simp] theorem modPeer_at_port (s : State) (f : Peer → Peer) (p : Nat) : (modPeer f s).port p = s.port p := (rfl)
@[simp] theorem modPeer_at_ring (s : State) (f : Peer → Peer) (r : Nat) : (modPeer f s).ring r = s.ring r := (rfl)
@[simp] theorem modPeer_at_upQ (s : State) (f : Peer → Peer) : (modPeer f s).up? = s.up? := (rfl)
@[simp] theorem modPeer_at_awake (s : State) (f : Peer → Peer) : (modPeer f s).awake = s.awake := (rfl)

/-! ## modPw -/

@[simp] theorem modPw_pending (s : State) (f : Power → Power) : (modPw f s).pending = s.pending := (rfl)
@[simp] theorem modPw_inReset (s : State) (f : Power → Power) : (modPw f s).inReset = s.inReset := (rfl)
@[simp] theorem modPw_testEn (s : State) (f : Power → Power) : (modPw f s).testEn = s.testEn := (rfl)
@[simp] theorem modPw_perst (s : State) (f : Power → Power) : (modPw f s).perst = s.perst := (rfl)
@[simp] theorem modPw_bme (s : State) (f : Power → Power) : (modPw f s).bme = s.bme := (rfl)
@[simp] theorem modPw_d3hot (s : State) (f : Power → Power) : (modPw f s).d3hot = s.d3hot := (rfl)
@[simp] theorem modPw_rank (s : State) (f : Power → Power) : (modPw f s).rank = s.rank := (rfl)
@[simp] theorem modPw_irq (s : State) (f : Power → Power) : (modPw f s).irq = s.irq := (rfl)
@[simp] theorem modPw_regs (s : State) (f : Power → Power) : (modPw f s).regs = s.regs := (rfl)
@[simp] theorem modPw_live (s : State) (f : Power → Power) : (modPw f s).live = s.live := (rfl)
@[simp] theorem modPw_latch (s : State) (f : Power → Power) : (modPw f s).latch = s.latch := (rfl)
@[simp] theorem modPw_ctr (s : State) (f : Power → Power) : (modPw f s).ctr = s.ctr := (rfl)
@[simp] theorem modPw_out (s : State) (f : Power → Power) : (modPw f s).out = s.out := (rfl)
@[simp] theorem modPw_freeCtr (s : State) (f : Power → Power) : (modPw f s).freeCtr = s.freeCtr := (rfl)
@[simp] theorem modPw_early (s : State) (f : Power → Power) : (modPw f s).early = s.early := (rfl)
@[simp] theorem modPw_store (s : State) (f : Power → Power) : (modPw f s).store = s.store := (rfl)
@[simp] theorem modPw_bobs (s : State) (f : Power → Power) : (modPw f s).bobs = s.bobs := (rfl)
@[simp] theorem modPw_pins (s : State) (f : Power → Power) : (modPw f s).pins = s.pins := (rfl)
@[simp] theorem modPw_seqs (s : State) (f : Power → Power) : (modPw f s).seqs = s.seqs := (rfl)
@[simp] theorem modPw_engs (s : State) (f : Power → Power) : (modPw f s).engs = s.engs := (rfl)
@[simp] theorem modPw_mrgs (s : State) (f : Power → Power) : (modPw f s).mrgs = s.mrgs := (rfl)
@[simp] theorem modPw_log (s : State) (f : Power → Power) : (modPw f s).log = s.log := (rfl)
@[simp] theorem modPw_ckpts (s : State) (f : Power → Power) : (modPw f s).ckpts = s.ckpts := (rfl)
@[simp] theorem modPw_cuts (s : State) (f : Power → Power) : (modPw f s).cuts = s.cuts := (rfl)
@[simp] theorem modPw_fan (s : State) (f : Power → Power) : (modPw f s).fan = s.fan := (rfl)
@[simp] theorem modPw_seam (s : State) (f : Power → Power) : (modPw f s).seam = s.seam := (rfl)
@[simp] theorem modPw_tape (s : State) (f : Power → Power) : (modPw f s).tape = s.tape := (rfl)
@[simp] theorem modPw_cells (s : State) (f : Power → Power) : (modPw f s).cells = s.cells := (rfl)
@[simp] theorem modPw_cons (s : State) (f : Power → Power) : (modPw f s).cons = s.cons := (rfl)
@[simp] theorem modPw_egress (s : State) (f : Power → Power) : (modPw f s).egress = s.egress := (rfl)
@[simp] theorem modPw_laneLq (s : State) (f : Power → Power) : (modPw f s).laneLq = s.laneLq := (rfl)
@[simp] theorem modPw_builds (s : State) (f : Power → Power) : (modPw f s).builds = s.builds := (rfl)
@[simp] theorem modPw_ports (s : State) (f : Power → Power) : (modPw f s).ports = s.ports := (rfl)
@[simp] theorem modPw_cans (s : State) (f : Power → Power) : (modPw f s).cans = s.cans := (rfl)
@[simp] theorem modPw_t1s (s : State) (f : Power → Power) : (modPw f s).t1s = s.t1s := (rfl)
@[simp] theorem modPw_ups (s : State) (f : Power → Power) : (modPw f s).ups = s.ups := (rfl)
@[simp] theorem modPw_rings (s : State) (f : Power → Power) : (modPw f s).rings = s.rings := (rfl)
@[simp] theorem modPw_blocked (s : State) (f : Power → Power) : (modPw f s).blocked = s.blocked := (rfl)
@[simp] theorem modPw_genOffered (s : State) (f : Power → Power) : (modPw f s).genOffered = s.genOffered := (rfl)
@[simp] theorem modPw_wbWritten (s : State) (f : Power → Power) : (modPw f s).wbWritten = s.wbWritten := (rfl)
@[simp] theorem modPw_cmds (s : State) (f : Power → Power) : (modPw f s).cmds = s.cmds := (rfl)
@[simp] theorem modPw_cuCtx (s : State) (f : Power → Power) : (modPw f s).cuCtx = s.cuCtx := (rfl)
@[simp] theorem modPw_cus (s : State) (f : Power → Power) : (modPw f s).cus = s.cus := (rfl)
@[simp] theorem modPw_peer (s : State) (f : Power → Power) : (modPw f s).peer = s.peer := (rfl)
@[simp] theorem modPw_boot (s : State) (f : Power → Power) : (modPw f s).boot = s.boot := (rfl)
@[simp] theorem modPw_tap (s : State) (f : Power → Power) : (modPw f s).tap = s.tap := (rfl)
@[simp] theorem modPw_at_reg (s : State) (f : Power → Power) (o : Nat) : (modPw f s).reg o = s.reg o := (rfl)
@[simp] theorem modPw_at_liveReg (s : State) (f : Power → Power) (o : Nat) : (modPw f s).liveReg o = s.liveReg o := (rfl)
@[simp] theorem modPw_at_counter (s : State) (f : Power → Power) (j : Nat) : (modPw f s).counter j = s.counter j := (rfl)
@[simp] theorem modPw_at_rb (s : State) (f : Power → Power) (o i : Nat) : (modPw f s).rb o i = s.rb o i := (rfl)
@[simp] theorem modPw_at_rf (s : State) (f : Power → Power) (o lo n : Nat) : (modPw f s).rf o lo n = s.rf o lo n := (rfl)
@[simp] theorem modPw_at_bob (s : State) (f : Power → Power) (b : Nat) : (modPw f s).bob b = s.bob b := (rfl)
@[simp] theorem modPw_at_pin (s : State) (f : Power → Power) (a : Nat) : (modPw f s).pin a = s.pin a := (rfl)
@[simp] theorem modPw_at_mrg (s : State) (f : Power → Power) (m : Nat) : (modPw f s).mrg m = s.mrg m := (rfl)
@[simp] theorem modPw_at_eg (s : State) (f : Power → Power) (p : Nat) : (modPw f s).eg p = s.eg p := (rfl)
@[simp] theorem modPw_at_port (s : State) (f : Power → Power) (p : Nat) : (modPw f s).port p = s.port p := (rfl)
@[simp] theorem modPw_at_ring (s : State) (f : Power → Power) (r : Nat) : (modPw f s).ring r = s.ring r := (rfl)

/-! ## modTape -/

@[simp] theorem modTape_pending (s : State) (f : Tape → Tape) : (modTape f s).pending = s.pending := (rfl)
@[simp] theorem modTape_inReset (s : State) (f : Tape → Tape) : (modTape f s).inReset = s.inReset := (rfl)
@[simp] theorem modTape_testEn (s : State) (f : Tape → Tape) : (modTape f s).testEn = s.testEn := (rfl)
@[simp] theorem modTape_perst (s : State) (f : Tape → Tape) : (modTape f s).perst = s.perst := (rfl)
@[simp] theorem modTape_bme (s : State) (f : Tape → Tape) : (modTape f s).bme = s.bme := (rfl)
@[simp] theorem modTape_d3hot (s : State) (f : Tape → Tape) : (modTape f s).d3hot = s.d3hot := (rfl)
@[simp] theorem modTape_rank (s : State) (f : Tape → Tape) : (modTape f s).rank = s.rank := (rfl)
@[simp] theorem modTape_irq (s : State) (f : Tape → Tape) : (modTape f s).irq = s.irq := (rfl)
@[simp] theorem modTape_regs (s : State) (f : Tape → Tape) : (modTape f s).regs = s.regs := (rfl)
@[simp] theorem modTape_live (s : State) (f : Tape → Tape) : (modTape f s).live = s.live := (rfl)
@[simp] theorem modTape_latch (s : State) (f : Tape → Tape) : (modTape f s).latch = s.latch := (rfl)
@[simp] theorem modTape_ctr (s : State) (f : Tape → Tape) : (modTape f s).ctr = s.ctr := (rfl)
@[simp] theorem modTape_out (s : State) (f : Tape → Tape) : (modTape f s).out = s.out := (rfl)
@[simp] theorem modTape_freeCtr (s : State) (f : Tape → Tape) : (modTape f s).freeCtr = s.freeCtr := (rfl)
@[simp] theorem modTape_early (s : State) (f : Tape → Tape) : (modTape f s).early = s.early := (rfl)
@[simp] theorem modTape_store (s : State) (f : Tape → Tape) : (modTape f s).store = s.store := (rfl)
@[simp] theorem modTape_bobs (s : State) (f : Tape → Tape) : (modTape f s).bobs = s.bobs := (rfl)
@[simp] theorem modTape_pins (s : State) (f : Tape → Tape) : (modTape f s).pins = s.pins := (rfl)
@[simp] theorem modTape_seqs (s : State) (f : Tape → Tape) : (modTape f s).seqs = s.seqs := (rfl)
@[simp] theorem modTape_engs (s : State) (f : Tape → Tape) : (modTape f s).engs = s.engs := (rfl)
@[simp] theorem modTape_mrgs (s : State) (f : Tape → Tape) : (modTape f s).mrgs = s.mrgs := (rfl)
@[simp] theorem modTape_log (s : State) (f : Tape → Tape) : (modTape f s).log = s.log := (rfl)
@[simp] theorem modTape_ckpts (s : State) (f : Tape → Tape) : (modTape f s).ckpts = s.ckpts := (rfl)
@[simp] theorem modTape_cuts (s : State) (f : Tape → Tape) : (modTape f s).cuts = s.cuts := (rfl)
@[simp] theorem modTape_fan (s : State) (f : Tape → Tape) : (modTape f s).fan = s.fan := (rfl)
@[simp] theorem modTape_seam (s : State) (f : Tape → Tape) : (modTape f s).seam = s.seam := (rfl)
@[simp] theorem modTape_cells (s : State) (f : Tape → Tape) : (modTape f s).cells = s.cells := (rfl)
@[simp] theorem modTape_cons (s : State) (f : Tape → Tape) : (modTape f s).cons = s.cons := (rfl)
@[simp] theorem modTape_egress (s : State) (f : Tape → Tape) : (modTape f s).egress = s.egress := (rfl)
@[simp] theorem modTape_laneLq (s : State) (f : Tape → Tape) : (modTape f s).laneLq = s.laneLq := (rfl)
@[simp] theorem modTape_builds (s : State) (f : Tape → Tape) : (modTape f s).builds = s.builds := (rfl)
@[simp] theorem modTape_ports (s : State) (f : Tape → Tape) : (modTape f s).ports = s.ports := (rfl)
@[simp] theorem modTape_cans (s : State) (f : Tape → Tape) : (modTape f s).cans = s.cans := (rfl)
@[simp] theorem modTape_t1s (s : State) (f : Tape → Tape) : (modTape f s).t1s = s.t1s := (rfl)
@[simp] theorem modTape_ups (s : State) (f : Tape → Tape) : (modTape f s).ups = s.ups := (rfl)
@[simp] theorem modTape_rings (s : State) (f : Tape → Tape) : (modTape f s).rings = s.rings := (rfl)
@[simp] theorem modTape_blocked (s : State) (f : Tape → Tape) : (modTape f s).blocked = s.blocked := (rfl)
@[simp] theorem modTape_genOffered (s : State) (f : Tape → Tape) : (modTape f s).genOffered = s.genOffered := (rfl)
@[simp] theorem modTape_wbWritten (s : State) (f : Tape → Tape) : (modTape f s).wbWritten = s.wbWritten := (rfl)
@[simp] theorem modTape_cmds (s : State) (f : Tape → Tape) : (modTape f s).cmds = s.cmds := (rfl)
@[simp] theorem modTape_cuCtx (s : State) (f : Tape → Tape) : (modTape f s).cuCtx = s.cuCtx := (rfl)
@[simp] theorem modTape_cus (s : State) (f : Tape → Tape) : (modTape f s).cus = s.cus := (rfl)
@[simp] theorem modTape_peer (s : State) (f : Tape → Tape) : (modTape f s).peer = s.peer := (rfl)
@[simp] theorem modTape_boot (s : State) (f : Tape → Tape) : (modTape f s).boot = s.boot := (rfl)
@[simp] theorem modTape_pw (s : State) (f : Tape → Tape) : (modTape f s).pw = s.pw := (rfl)
@[simp] theorem modTape_tap (s : State) (f : Tape → Tape) : (modTape f s).tap = s.tap := (rfl)
@[simp] theorem modTape_at_reg (s : State) (f : Tape → Tape) (o : Nat) : (modTape f s).reg o = s.reg o := (rfl)
@[simp] theorem modTape_at_liveReg (s : State) (f : Tape → Tape) (o : Nat) : (modTape f s).liveReg o = s.liveReg o := (rfl)
@[simp] theorem modTape_at_counter (s : State) (f : Tape → Tape) (j : Nat) : (modTape f s).counter j = s.counter j := (rfl)
@[simp] theorem modTape_at_rb (s : State) (f : Tape → Tape) (o i : Nat) : (modTape f s).rb o i = s.rb o i := (rfl)
@[simp] theorem modTape_at_rf (s : State) (f : Tape → Tape) (o lo n : Nat) : (modTape f s).rf o lo n = s.rf o lo n := (rfl)
@[simp] theorem modTape_at_bob (s : State) (f : Tape → Tape) (b : Nat) : (modTape f s).bob b = s.bob b := (rfl)
@[simp] theorem modTape_at_pin (s : State) (f : Tape → Tape) (a : Nat) : (modTape f s).pin a = s.pin a := (rfl)
@[simp] theorem modTape_at_mrg (s : State) (f : Tape → Tape) (m : Nat) : (modTape f s).mrg m = s.mrg m := (rfl)
@[simp] theorem modTape_at_eg (s : State) (f : Tape → Tape) (p : Nat) : (modTape f s).eg p = s.eg p := (rfl)
@[simp] theorem modTape_at_port (s : State) (f : Tape → Tape) (p : Nat) : (modTape f s).port p = s.port p := (rfl)
@[simp] theorem modTape_at_ring (s : State) (f : Tape → Tape) (r : Nat) : (modTape f s).ring r = s.ring r := (rfl)
@[simp] theorem modTape_at_upQ (s : State) (f : Tape → Tape) : (modTape f s).up? = s.up? := (rfl)
@[simp] theorem modTape_at_awake (s : State) (f : Tape → Tape) : (modTape f s).awake = s.awake := (rfl)

/-! ## setChan -/

@[simp] theorem setChan_pending (s : State) (n : Nat) (c : Chan) : (s.setChan n c).pending = s.pending := (rfl)
@[simp] theorem setChan_inReset (s : State) (n : Nat) (c : Chan) : (s.setChan n c).inReset = s.inReset := (rfl)
@[simp] theorem setChan_testEn (s : State) (n : Nat) (c : Chan) : (s.setChan n c).testEn = s.testEn := (rfl)
@[simp] theorem setChan_perst (s : State) (n : Nat) (c : Chan) : (s.setChan n c).perst = s.perst := (rfl)
@[simp] theorem setChan_bme (s : State) (n : Nat) (c : Chan) : (s.setChan n c).bme = s.bme := (rfl)
@[simp] theorem setChan_d3hot (s : State) (n : Nat) (c : Chan) : (s.setChan n c).d3hot = s.d3hot := (rfl)
@[simp] theorem setChan_rank (s : State) (n : Nat) (c : Chan) : (s.setChan n c).rank = s.rank := (rfl)
@[simp] theorem setChan_irq (s : State) (n : Nat) (c : Chan) : (s.setChan n c).irq = s.irq := (rfl)
@[simp] theorem setChan_regs (s : State) (n : Nat) (c : Chan) : (s.setChan n c).regs = s.regs := (rfl)
@[simp] theorem setChan_live (s : State) (n : Nat) (c : Chan) : (s.setChan n c).live = s.live := (rfl)
@[simp] theorem setChan_latch (s : State) (n : Nat) (c : Chan) : (s.setChan n c).latch = s.latch := (rfl)
@[simp] theorem setChan_ctr (s : State) (n : Nat) (c : Chan) : (s.setChan n c).ctr = s.ctr := (rfl)
@[simp] theorem setChan_out (s : State) (n : Nat) (c : Chan) : (s.setChan n c).out = s.out := (rfl)
@[simp] theorem setChan_freeCtr (s : State) (n : Nat) (c : Chan) : (s.setChan n c).freeCtr = s.freeCtr := (rfl)
@[simp] theorem setChan_early (s : State) (n : Nat) (c : Chan) : (s.setChan n c).early = s.early := (rfl)
@[simp] theorem setChan_store (s : State) (n : Nat) (c : Chan) : (s.setChan n c).store = s.store := (rfl)
@[simp] theorem setChan_bobs (s : State) (n : Nat) (c : Chan) : (s.setChan n c).bobs = s.bobs := (rfl)
@[simp] theorem setChan_pins (s : State) (n : Nat) (c : Chan) : (s.setChan n c).pins = s.pins := (rfl)
@[simp] theorem setChan_seqs (s : State) (n : Nat) (c : Chan) : (s.setChan n c).seqs = s.seqs := (rfl)
@[simp] theorem setChan_engs (s : State) (n : Nat) (c : Chan) : (s.setChan n c).engs = s.engs := (rfl)
@[simp] theorem setChan_mrgs (s : State) (n : Nat) (c : Chan) : (s.setChan n c).mrgs = s.mrgs := (rfl)
@[simp] theorem setChan_log (s : State) (n : Nat) (c : Chan) : (s.setChan n c).log = s.log := (rfl)
@[simp] theorem setChan_ckpts (s : State) (n : Nat) (c : Chan) : (s.setChan n c).ckpts = s.ckpts := (rfl)
@[simp] theorem setChan_cuts (s : State) (n : Nat) (c : Chan) : (s.setChan n c).cuts = s.cuts := (rfl)
@[simp] theorem setChan_fan (s : State) (n : Nat) (c : Chan) : (s.setChan n c).fan = s.fan := (rfl)
@[simp] theorem setChan_seam (s : State) (n : Nat) (c : Chan) : (s.setChan n c).seam = s.seam := (rfl)
@[simp] theorem setChan_cells (s : State) (n : Nat) (c : Chan) : (s.setChan n c).cells = s.cells := (rfl)
@[simp] theorem setChan_cons (s : State) (n : Nat) (c : Chan) : (s.setChan n c).cons = s.cons := (rfl)
@[simp] theorem setChan_egress (s : State) (n : Nat) (c : Chan) : (s.setChan n c).egress = s.egress := (rfl)
@[simp] theorem setChan_laneLq (s : State) (n : Nat) (c : Chan) : (s.setChan n c).laneLq = s.laneLq := (rfl)
@[simp] theorem setChan_builds (s : State) (n : Nat) (c : Chan) : (s.setChan n c).builds = s.builds := (rfl)
@[simp] theorem setChan_ports (s : State) (n : Nat) (c : Chan) : (s.setChan n c).ports = s.ports := (rfl)
@[simp] theorem setChan_cans (s : State) (n : Nat) (c : Chan) : (s.setChan n c).cans = s.cans := (rfl)
@[simp] theorem setChan_t1s (s : State) (n : Nat) (c : Chan) : (s.setChan n c).t1s = s.t1s := (rfl)
@[simp] theorem setChan_ups (s : State) (n : Nat) (c : Chan) : (s.setChan n c).ups = s.ups := (rfl)
@[simp] theorem setChan_rings (s : State) (n : Nat) (c : Chan) : (s.setChan n c).rings = s.rings := (rfl)
@[simp] theorem setChan_blocked (s : State) (n : Nat) (c : Chan) : (s.setChan n c).blocked = s.blocked := (rfl)
@[simp] theorem setChan_genOffered (s : State) (n : Nat) (c : Chan) : (s.setChan n c).genOffered = s.genOffered := (rfl)
@[simp] theorem setChan_wbWritten (s : State) (n : Nat) (c : Chan) : (s.setChan n c).wbWritten = s.wbWritten := (rfl)
@[simp] theorem setChan_cmds (s : State) (n : Nat) (c : Chan) : (s.setChan n c).cmds = s.cmds := (rfl)
@[simp] theorem setChan_cuCtx (s : State) (n : Nat) (c : Chan) : (s.setChan n c).cuCtx = s.cuCtx := (rfl)
@[simp] theorem setChan_cus (s : State) (n : Nat) (c : Chan) : (s.setChan n c).cus = s.cus := (rfl)
@[simp] theorem setChan_peer (s : State) (n : Nat) (c : Chan) : (s.setChan n c).peer = s.peer := (rfl)
@[simp] theorem setChan_boot (s : State) (n : Nat) (c : Chan) : (s.setChan n c).boot = s.boot := (rfl)
@[simp] theorem setChan_pw (s : State) (n : Nat) (c : Chan) : (s.setChan n c).pw = s.pw := (rfl)
@[simp] theorem setChan_tap (s : State) (n : Nat) (c : Chan) : (s.setChan n c).tap = s.tap := (rfl)
@[simp] theorem setChan_at_reg (s : State) (n : Nat) (c : Chan) (o : Nat) : (s.setChan n c).reg o = s.reg o := (rfl)
@[simp] theorem setChan_at_liveReg (s : State) (n : Nat) (c : Chan) (o : Nat) : (s.setChan n c).liveReg o = s.liveReg o := (rfl)
@[simp] theorem setChan_at_counter (s : State) (n : Nat) (c : Chan) (j : Nat) : (s.setChan n c).counter j = s.counter j := (rfl)
@[simp] theorem setChan_at_rb (s : State) (n : Nat) (c : Chan) (o i : Nat) : (s.setChan n c).rb o i = s.rb o i := (rfl)
@[simp] theorem setChan_at_rf (s : State) (n : Nat) (c : Chan) (o lo n' : Nat) : (s.setChan n c).rf o lo n' = s.rf o lo n' := (rfl)
@[simp] theorem setChan_at_bob (s : State) (n : Nat) (c : Chan) (b : Nat) : (s.setChan n c).bob b = s.bob b := (rfl)
@[simp] theorem setChan_at_pin (s : State) (n : Nat) (c : Chan) (a : Nat) : (s.setChan n c).pin a = s.pin a := (rfl)
@[simp] theorem setChan_at_mrg (s : State) (n : Nat) (c : Chan) (m : Nat) : (s.setChan n c).mrg m = s.mrg m := (rfl)
@[simp] theorem setChan_at_eg (s : State) (n : Nat) (c : Chan) (p : Nat) : (s.setChan n c).eg p = s.eg p := (rfl)
@[simp] theorem setChan_at_port (s : State) (n : Nat) (c : Chan) (p : Nat) : (s.setChan n c).port p = s.port p := (rfl)
@[simp] theorem setChan_at_ring (s : State) (n : Nat) (c : Chan) (r : Nat) : (s.setChan n c).ring r = s.ring r := (rfl)
@[simp] theorem setChan_at_upQ (s : State) (n : Nat) (c : Chan) : (s.setChan n c).up? = s.up? := (rfl)
@[simp] theorem setChan_at_awake (s : State) (n : Nat) (c : Chan) : (s.setChan n c).awake = s.awake := (rfl)

/-! ## setStrobe -/

@[simp] theorem setStrobe_pending (s : State) (n : Nat) (v : Strobe) : (s.setStrobe n v).pending = s.pending := (rfl)
@[simp] theorem setStrobe_inReset (s : State) (n : Nat) (v : Strobe) : (s.setStrobe n v).inReset = s.inReset := (rfl)
@[simp] theorem setStrobe_testEn (s : State) (n : Nat) (v : Strobe) : (s.setStrobe n v).testEn = s.testEn := (rfl)
@[simp] theorem setStrobe_perst (s : State) (n : Nat) (v : Strobe) : (s.setStrobe n v).perst = s.perst := (rfl)
@[simp] theorem setStrobe_bme (s : State) (n : Nat) (v : Strobe) : (s.setStrobe n v).bme = s.bme := (rfl)
@[simp] theorem setStrobe_d3hot (s : State) (n : Nat) (v : Strobe) : (s.setStrobe n v).d3hot = s.d3hot := (rfl)
@[simp] theorem setStrobe_rank (s : State) (n : Nat) (v : Strobe) : (s.setStrobe n v).rank = s.rank := (rfl)
@[simp] theorem setStrobe_irq (s : State) (n : Nat) (v : Strobe) : (s.setStrobe n v).irq = s.irq := (rfl)
@[simp] theorem setStrobe_regs (s : State) (n : Nat) (v : Strobe) : (s.setStrobe n v).regs = s.regs := (rfl)
@[simp] theorem setStrobe_live (s : State) (n : Nat) (v : Strobe) : (s.setStrobe n v).live = s.live := (rfl)
@[simp] theorem setStrobe_latch (s : State) (n : Nat) (v : Strobe) : (s.setStrobe n v).latch = s.latch := (rfl)
@[simp] theorem setStrobe_ctr (s : State) (n : Nat) (v : Strobe) : (s.setStrobe n v).ctr = s.ctr := (rfl)
@[simp] theorem setStrobe_out (s : State) (n : Nat) (v : Strobe) : (s.setStrobe n v).out = s.out := (rfl)
@[simp] theorem setStrobe_freeCtr (s : State) (n : Nat) (v : Strobe) : (s.setStrobe n v).freeCtr = s.freeCtr := (rfl)
@[simp] theorem setStrobe_early (s : State) (n : Nat) (v : Strobe) : (s.setStrobe n v).early = s.early := (rfl)
@[simp] theorem setStrobe_store (s : State) (n : Nat) (v : Strobe) : (s.setStrobe n v).store = s.store := (rfl)
@[simp] theorem setStrobe_bobs (s : State) (n : Nat) (v : Strobe) : (s.setStrobe n v).bobs = s.bobs := (rfl)
@[simp] theorem setStrobe_pins (s : State) (n : Nat) (v : Strobe) : (s.setStrobe n v).pins = s.pins := (rfl)
@[simp] theorem setStrobe_seqs (s : State) (n : Nat) (v : Strobe) : (s.setStrobe n v).seqs = s.seqs := (rfl)
@[simp] theorem setStrobe_engs (s : State) (n : Nat) (v : Strobe) : (s.setStrobe n v).engs = s.engs := (rfl)
@[simp] theorem setStrobe_mrgs (s : State) (n : Nat) (v : Strobe) : (s.setStrobe n v).mrgs = s.mrgs := (rfl)
@[simp] theorem setStrobe_log (s : State) (n : Nat) (v : Strobe) : (s.setStrobe n v).log = s.log := (rfl)
@[simp] theorem setStrobe_ckpts (s : State) (n : Nat) (v : Strobe) : (s.setStrobe n v).ckpts = s.ckpts := (rfl)
@[simp] theorem setStrobe_cuts (s : State) (n : Nat) (v : Strobe) : (s.setStrobe n v).cuts = s.cuts := (rfl)
@[simp] theorem setStrobe_fan (s : State) (n : Nat) (v : Strobe) : (s.setStrobe n v).fan = s.fan := (rfl)
@[simp] theorem setStrobe_seam (s : State) (n : Nat) (v : Strobe) : (s.setStrobe n v).seam = s.seam := (rfl)
@[simp] theorem setStrobe_cells (s : State) (n : Nat) (v : Strobe) : (s.setStrobe n v).cells = s.cells := (rfl)
@[simp] theorem setStrobe_cons (s : State) (n : Nat) (v : Strobe) : (s.setStrobe n v).cons = s.cons := (rfl)
@[simp] theorem setStrobe_egress (s : State) (n : Nat) (v : Strobe) : (s.setStrobe n v).egress = s.egress := (rfl)
@[simp] theorem setStrobe_laneLq (s : State) (n : Nat) (v : Strobe) : (s.setStrobe n v).laneLq = s.laneLq := (rfl)
@[simp] theorem setStrobe_builds (s : State) (n : Nat) (v : Strobe) : (s.setStrobe n v).builds = s.builds := (rfl)
@[simp] theorem setStrobe_ports (s : State) (n : Nat) (v : Strobe) : (s.setStrobe n v).ports = s.ports := (rfl)
@[simp] theorem setStrobe_cans (s : State) (n : Nat) (v : Strobe) : (s.setStrobe n v).cans = s.cans := (rfl)
@[simp] theorem setStrobe_t1s (s : State) (n : Nat) (v : Strobe) : (s.setStrobe n v).t1s = s.t1s := (rfl)
@[simp] theorem setStrobe_ups (s : State) (n : Nat) (v : Strobe) : (s.setStrobe n v).ups = s.ups := (rfl)
@[simp] theorem setStrobe_rings (s : State) (n : Nat) (v : Strobe) : (s.setStrobe n v).rings = s.rings := (rfl)
@[simp] theorem setStrobe_blocked (s : State) (n : Nat) (v : Strobe) : (s.setStrobe n v).blocked = s.blocked := (rfl)
@[simp] theorem setStrobe_genOffered (s : State) (n : Nat) (v : Strobe) : (s.setStrobe n v).genOffered = s.genOffered := (rfl)
@[simp] theorem setStrobe_wbWritten (s : State) (n : Nat) (v : Strobe) : (s.setStrobe n v).wbWritten = s.wbWritten := (rfl)
@[simp] theorem setStrobe_cmds (s : State) (n : Nat) (v : Strobe) : (s.setStrobe n v).cmds = s.cmds := (rfl)
@[simp] theorem setStrobe_cuCtx (s : State) (n : Nat) (v : Strobe) : (s.setStrobe n v).cuCtx = s.cuCtx := (rfl)
@[simp] theorem setStrobe_cus (s : State) (n : Nat) (v : Strobe) : (s.setStrobe n v).cus = s.cus := (rfl)
@[simp] theorem setStrobe_peer (s : State) (n : Nat) (v : Strobe) : (s.setStrobe n v).peer = s.peer := (rfl)
@[simp] theorem setStrobe_boot (s : State) (n : Nat) (v : Strobe) : (s.setStrobe n v).boot = s.boot := (rfl)
@[simp] theorem setStrobe_pw (s : State) (n : Nat) (v : Strobe) : (s.setStrobe n v).pw = s.pw := (rfl)
@[simp] theorem setStrobe_tap (s : State) (n : Nat) (v : Strobe) : (s.setStrobe n v).tap = s.tap := (rfl)
@[simp] theorem setStrobe_at_reg (s : State) (n : Nat) (v : Strobe) (o : Nat) : (s.setStrobe n v).reg o = s.reg o := (rfl)
@[simp] theorem setStrobe_at_liveReg (s : State) (n : Nat) (v : Strobe) (o : Nat) : (s.setStrobe n v).liveReg o = s.liveReg o := (rfl)
@[simp] theorem setStrobe_at_counter (s : State) (n : Nat) (v : Strobe) (j : Nat) : (s.setStrobe n v).counter j = s.counter j := (rfl)
@[simp] theorem setStrobe_at_rb (s : State) (n : Nat) (v : Strobe) (o i : Nat) : (s.setStrobe n v).rb o i = s.rb o i := (rfl)
@[simp] theorem setStrobe_at_rf (s : State) (n : Nat) (v : Strobe) (o lo n' : Nat) : (s.setStrobe n v).rf o lo n' = s.rf o lo n' := (rfl)
@[simp] theorem setStrobe_at_bob (s : State) (n : Nat) (v : Strobe) (b : Nat) : (s.setStrobe n v).bob b = s.bob b := (rfl)
@[simp] theorem setStrobe_at_pin (s : State) (n : Nat) (v : Strobe) (a : Nat) : (s.setStrobe n v).pin a = s.pin a := (rfl)
@[simp] theorem setStrobe_at_mrg (s : State) (n : Nat) (v : Strobe) (m : Nat) : (s.setStrobe n v).mrg m = s.mrg m := (rfl)
@[simp] theorem setStrobe_at_eg (s : State) (n : Nat) (v : Strobe) (p : Nat) : (s.setStrobe n v).eg p = s.eg p := (rfl)
@[simp] theorem setStrobe_at_port (s : State) (n : Nat) (v : Strobe) (p : Nat) : (s.setStrobe n v).port p = s.port p := (rfl)
@[simp] theorem setStrobe_at_ring (s : State) (n : Nat) (v : Strobe) (r : Nat) : (s.setStrobe n v).ring r = s.ring r := (rfl)
@[simp] theorem setStrobe_at_upQ (s : State) (n : Nat) (v : Strobe) : (s.setStrobe n v).up? = s.up? := (rfl)
@[simp] theorem setStrobe_at_awake (s : State) (n : Nat) (v : Strobe) : (s.setStrobe n v).awake = s.awake := (rfl)

/-! ## pcount -/

@[simp] theorem pcount_pending (s : State) (k : Nat) : (pcount k s).pending = s.pending := (rfl)
@[simp] theorem pcount_inReset (s : State) (k : Nat) : (pcount k s).inReset = s.inReset := (rfl)
@[simp] theorem pcount_testEn (s : State) (k : Nat) : (pcount k s).testEn = s.testEn := (rfl)
@[simp] theorem pcount_perst (s : State) (k : Nat) : (pcount k s).perst = s.perst := (rfl)
@[simp] theorem pcount_bme (s : State) (k : Nat) : (pcount k s).bme = s.bme := (rfl)
@[simp] theorem pcount_d3hot (s : State) (k : Nat) : (pcount k s).d3hot = s.d3hot := (rfl)
@[simp] theorem pcount_rank (s : State) (k : Nat) : (pcount k s).rank = s.rank := (rfl)
@[simp] theorem pcount_irq (s : State) (k : Nat) : (pcount k s).irq = s.irq := (rfl)
@[simp] theorem pcount_regs (s : State) (k : Nat) : (pcount k s).regs = s.regs := (rfl)
@[simp] theorem pcount_live (s : State) (k : Nat) : (pcount k s).live = s.live := (rfl)
@[simp] theorem pcount_latch (s : State) (k : Nat) : (pcount k s).latch = s.latch := (rfl)
@[simp] theorem pcount_ctr (s : State) (k : Nat) : (pcount k s).ctr = s.ctr := (rfl)
@[simp] theorem pcount_out (s : State) (k : Nat) : (pcount k s).out = s.out := (rfl)
@[simp] theorem pcount_freeCtr (s : State) (k : Nat) : (pcount k s).freeCtr = s.freeCtr := (rfl)
@[simp] theorem pcount_early (s : State) (k : Nat) : (pcount k s).early = s.early := (rfl)
@[simp] theorem pcount_store (s : State) (k : Nat) : (pcount k s).store = s.store := (rfl)
@[simp] theorem pcount_bobs (s : State) (k : Nat) : (pcount k s).bobs = s.bobs := (rfl)
@[simp] theorem pcount_pins (s : State) (k : Nat) : (pcount k s).pins = s.pins := (rfl)
@[simp] theorem pcount_seqs (s : State) (k : Nat) : (pcount k s).seqs = s.seqs := (rfl)
@[simp] theorem pcount_engs (s : State) (k : Nat) : (pcount k s).engs = s.engs := (rfl)
@[simp] theorem pcount_mrgs (s : State) (k : Nat) : (pcount k s).mrgs = s.mrgs := (rfl)
@[simp] theorem pcount_log (s : State) (k : Nat) : (pcount k s).log = s.log := (rfl)
@[simp] theorem pcount_ckpts (s : State) (k : Nat) : (pcount k s).ckpts = s.ckpts := (rfl)
@[simp] theorem pcount_cuts (s : State) (k : Nat) : (pcount k s).cuts = s.cuts := (rfl)
@[simp] theorem pcount_fan (s : State) (k : Nat) : (pcount k s).fan = s.fan := (rfl)
@[simp] theorem pcount_seam (s : State) (k : Nat) : (pcount k s).seam = s.seam := (rfl)
@[simp] theorem pcount_tape (s : State) (k : Nat) : (pcount k s).tape = s.tape := (rfl)
@[simp] theorem pcount_cells (s : State) (k : Nat) : (pcount k s).cells = s.cells := (rfl)
@[simp] theorem pcount_cons (s : State) (k : Nat) : (pcount k s).cons = s.cons := (rfl)
@[simp] theorem pcount_egress (s : State) (k : Nat) : (pcount k s).egress = s.egress := (rfl)
@[simp] theorem pcount_laneLq (s : State) (k : Nat) : (pcount k s).laneLq = s.laneLq := (rfl)
@[simp] theorem pcount_builds (s : State) (k : Nat) : (pcount k s).builds = s.builds := (rfl)
@[simp] theorem pcount_ports (s : State) (k : Nat) : (pcount k s).ports = s.ports := (rfl)
@[simp] theorem pcount_cans (s : State) (k : Nat) : (pcount k s).cans = s.cans := (rfl)
@[simp] theorem pcount_t1s (s : State) (k : Nat) : (pcount k s).t1s = s.t1s := (rfl)
@[simp] theorem pcount_ups (s : State) (k : Nat) : (pcount k s).ups = s.ups := (rfl)
@[simp] theorem pcount_rings (s : State) (k : Nat) : (pcount k s).rings = s.rings := (rfl)
@[simp] theorem pcount_blocked (s : State) (k : Nat) : (pcount k s).blocked = s.blocked := (rfl)
@[simp] theorem pcount_genOffered (s : State) (k : Nat) : (pcount k s).genOffered = s.genOffered := (rfl)
@[simp] theorem pcount_wbWritten (s : State) (k : Nat) : (pcount k s).wbWritten = s.wbWritten := (rfl)
@[simp] theorem pcount_cmds (s : State) (k : Nat) : (pcount k s).cmds = s.cmds := (rfl)
@[simp] theorem pcount_cuCtx (s : State) (k : Nat) : (pcount k s).cuCtx = s.cuCtx := (rfl)
@[simp] theorem pcount_cus (s : State) (k : Nat) : (pcount k s).cus = s.cus := (rfl)
@[simp] theorem pcount_peer (s : State) (k : Nat) : (pcount k s).peer = s.peer := (rfl)
@[simp] theorem pcount_boot (s : State) (k : Nat) : (pcount k s).boot = s.boot := (rfl)
@[simp] theorem pcount_tap (s : State) (k : Nat) : (pcount k s).tap = s.tap := (rfl)
@[simp] theorem pcount_at_reg (s : State) (k : Nat) (o : Nat) : (pcount k s).reg o = s.reg o := (rfl)
@[simp] theorem pcount_at_liveReg (s : State) (k : Nat) (o : Nat) : (pcount k s).liveReg o = s.liveReg o := (rfl)
@[simp] theorem pcount_at_counter (s : State) (k : Nat) (j : Nat) : (pcount k s).counter j = s.counter j := (rfl)
@[simp] theorem pcount_at_rb (s : State) (k : Nat) (o i : Nat) : (pcount k s).rb o i = s.rb o i := (rfl)
@[simp] theorem pcount_at_rf (s : State) (k : Nat) (o lo n : Nat) : (pcount k s).rf o lo n = s.rf o lo n := (rfl)
@[simp] theorem pcount_at_bob (s : State) (k : Nat) (b : Nat) : (pcount k s).bob b = s.bob b := (rfl)
@[simp] theorem pcount_at_pin (s : State) (k : Nat) (a : Nat) : (pcount k s).pin a = s.pin a := (rfl)
@[simp] theorem pcount_at_mrg (s : State) (k : Nat) (m : Nat) : (pcount k s).mrg m = s.mrg m := (rfl)
@[simp] theorem pcount_at_eg (s : State) (k : Nat) (p : Nat) : (pcount k s).eg p = s.eg p := (rfl)
@[simp] theorem pcount_at_port (s : State) (k : Nat) (p : Nat) : (pcount k s).port p = s.port p := (rfl)
@[simp] theorem pcount_at_ring (s : State) (k : Nat) (r : Nat) : (pcount k s).ring r = s.ring r := (rfl)

/-! ## enterPower -/

@[simp] theorem enterPower_pending (s : State) (k : Nat) : (enterPower k s).pending = s.pending := (rfl)
@[simp] theorem enterPower_inReset (s : State) (k : Nat) : (enterPower k s).inReset = s.inReset := (rfl)
@[simp] theorem enterPower_testEn (s : State) (k : Nat) : (enterPower k s).testEn = s.testEn := (rfl)
@[simp] theorem enterPower_perst (s : State) (k : Nat) : (enterPower k s).perst = s.perst := (rfl)
@[simp] theorem enterPower_bme (s : State) (k : Nat) : (enterPower k s).bme = s.bme := (rfl)
@[simp] theorem enterPower_d3hot (s : State) (k : Nat) : (enterPower k s).d3hot = s.d3hot := (rfl)
@[simp] theorem enterPower_rank (s : State) (k : Nat) : (enterPower k s).rank = s.rank := (rfl)
@[simp] theorem enterPower_irq (s : State) (k : Nat) : (enterPower k s).irq = s.irq := (rfl)
@[simp] theorem enterPower_live (s : State) (k : Nat) : (enterPower k s).live = s.live := (rfl)
@[simp] theorem enterPower_latch (s : State) (k : Nat) : (enterPower k s).latch = s.latch := (rfl)
@[simp] theorem enterPower_ctr (s : State) (k : Nat) : (enterPower k s).ctr = s.ctr := (rfl)
@[simp] theorem enterPower_out (s : State) (k : Nat) : (enterPower k s).out = s.out := (rfl)
@[simp] theorem enterPower_freeCtr (s : State) (k : Nat) : (enterPower k s).freeCtr = s.freeCtr := (rfl)
@[simp] theorem enterPower_early (s : State) (k : Nat) : (enterPower k s).early = s.early := (rfl)
@[simp] theorem enterPower_store (s : State) (k : Nat) : (enterPower k s).store = s.store := (rfl)
@[simp] theorem enterPower_bobs (s : State) (k : Nat) : (enterPower k s).bobs = s.bobs := (rfl)
@[simp] theorem enterPower_pins (s : State) (k : Nat) : (enterPower k s).pins = s.pins := (rfl)
@[simp] theorem enterPower_seqs (s : State) (k : Nat) : (enterPower k s).seqs = s.seqs := (rfl)
@[simp] theorem enterPower_engs (s : State) (k : Nat) : (enterPower k s).engs = s.engs := (rfl)
@[simp] theorem enterPower_mrgs (s : State) (k : Nat) : (enterPower k s).mrgs = s.mrgs := (rfl)
@[simp] theorem enterPower_log (s : State) (k : Nat) : (enterPower k s).log = s.log := (rfl)
@[simp] theorem enterPower_ckpts (s : State) (k : Nat) : (enterPower k s).ckpts = s.ckpts := (rfl)
@[simp] theorem enterPower_cuts (s : State) (k : Nat) : (enterPower k s).cuts = s.cuts := (rfl)
@[simp] theorem enterPower_fan (s : State) (k : Nat) : (enterPower k s).fan = s.fan := (rfl)
@[simp] theorem enterPower_seam (s : State) (k : Nat) : (enterPower k s).seam = s.seam := (rfl)
@[simp] theorem enterPower_tape (s : State) (k : Nat) : (enterPower k s).tape = s.tape := (rfl)
@[simp] theorem enterPower_cells (s : State) (k : Nat) : (enterPower k s).cells = s.cells := (rfl)
@[simp] theorem enterPower_cons (s : State) (k : Nat) : (enterPower k s).cons = s.cons := (rfl)
@[simp] theorem enterPower_egress (s : State) (k : Nat) : (enterPower k s).egress = s.egress := (rfl)
@[simp] theorem enterPower_laneLq (s : State) (k : Nat) : (enterPower k s).laneLq = s.laneLq := (rfl)
@[simp] theorem enterPower_builds (s : State) (k : Nat) : (enterPower k s).builds = s.builds := (rfl)
@[simp] theorem enterPower_ports (s : State) (k : Nat) : (enterPower k s).ports = s.ports := (rfl)
@[simp] theorem enterPower_cans (s : State) (k : Nat) : (enterPower k s).cans = s.cans := (rfl)
@[simp] theorem enterPower_t1s (s : State) (k : Nat) : (enterPower k s).t1s = s.t1s := (rfl)
@[simp] theorem enterPower_ups (s : State) (k : Nat) : (enterPower k s).ups = s.ups := (rfl)
@[simp] theorem enterPower_rings (s : State) (k : Nat) : (enterPower k s).rings = s.rings := (rfl)
@[simp] theorem enterPower_blocked (s : State) (k : Nat) : (enterPower k s).blocked = s.blocked := (rfl)
@[simp] theorem enterPower_genOffered (s : State) (k : Nat) : (enterPower k s).genOffered = s.genOffered := (rfl)
@[simp] theorem enterPower_wbWritten (s : State) (k : Nat) : (enterPower k s).wbWritten = s.wbWritten := (rfl)
@[simp] theorem enterPower_cmds (s : State) (k : Nat) : (enterPower k s).cmds = s.cmds := (rfl)
@[simp] theorem enterPower_cuCtx (s : State) (k : Nat) : (enterPower k s).cuCtx = s.cuCtx := (rfl)
@[simp] theorem enterPower_cus (s : State) (k : Nat) : (enterPower k s).cus = s.cus := (rfl)
@[simp] theorem enterPower_peer (s : State) (k : Nat) : (enterPower k s).peer = s.peer := (rfl)
@[simp] theorem enterPower_boot (s : State) (k : Nat) : (enterPower k s).boot = s.boot := (rfl)
@[simp] theorem enterPower_tap (s : State) (k : Nat) : (enterPower k s).tap = s.tap := (rfl)
@[simp] theorem enterPower_at_liveReg (s : State) (k : Nat) (o : Nat) : (enterPower k s).liveReg o = s.liveReg o := (rfl)
@[simp] theorem enterPower_at_counter (s : State) (k : Nat) (j : Nat) : (enterPower k s).counter j = s.counter j := (rfl)
@[simp] theorem enterPower_at_bob (s : State) (k : Nat) (b : Nat) : (enterPower k s).bob b = s.bob b := (rfl)
@[simp] theorem enterPower_at_pin (s : State) (k : Nat) (a : Nat) : (enterPower k s).pin a = s.pin a := (rfl)
@[simp] theorem enterPower_at_mrg (s : State) (k : Nat) (m : Nat) : (enterPower k s).mrg m = s.mrg m := (rfl)
@[simp] theorem enterPower_at_eg (s : State) (k : Nat) (p : Nat) : (enterPower k s).eg p = s.eg p := (rfl)
@[simp] theorem enterPower_at_port (s : State) (k : Nat) (p : Nat) : (enterPower k s).port p = s.port p := (rfl)
@[simp] theorem enterPower_at_ring (s : State) (k : Nat) (r : Nat) : (enterPower k s).ring r = s.ring r := (rfl)

/-! ## modCmd -/

@[simp] theorem modCmd_pending (s : State) (i : Word) (f : Cmd → Cmd) : (modCmd i f s).pending = s.pending := (rfl)
@[simp] theorem modCmd_inReset (s : State) (i : Word) (f : Cmd → Cmd) : (modCmd i f s).inReset = s.inReset := (rfl)
@[simp] theorem modCmd_testEn (s : State) (i : Word) (f : Cmd → Cmd) : (modCmd i f s).testEn = s.testEn := (rfl)
@[simp] theorem modCmd_perst (s : State) (i : Word) (f : Cmd → Cmd) : (modCmd i f s).perst = s.perst := (rfl)
@[simp] theorem modCmd_bme (s : State) (i : Word) (f : Cmd → Cmd) : (modCmd i f s).bme = s.bme := (rfl)
@[simp] theorem modCmd_d3hot (s : State) (i : Word) (f : Cmd → Cmd) : (modCmd i f s).d3hot = s.d3hot := (rfl)
@[simp] theorem modCmd_rank (s : State) (i : Word) (f : Cmd → Cmd) : (modCmd i f s).rank = s.rank := (rfl)
@[simp] theorem modCmd_irq (s : State) (i : Word) (f : Cmd → Cmd) : (modCmd i f s).irq = s.irq := (rfl)
@[simp] theorem modCmd_regs (s : State) (i : Word) (f : Cmd → Cmd) : (modCmd i f s).regs = s.regs := (rfl)
@[simp] theorem modCmd_live (s : State) (i : Word) (f : Cmd → Cmd) : (modCmd i f s).live = s.live := (rfl)
@[simp] theorem modCmd_latch (s : State) (i : Word) (f : Cmd → Cmd) : (modCmd i f s).latch = s.latch := (rfl)
@[simp] theorem modCmd_ctr (s : State) (i : Word) (f : Cmd → Cmd) : (modCmd i f s).ctr = s.ctr := (rfl)
@[simp] theorem modCmd_out (s : State) (i : Word) (f : Cmd → Cmd) : (modCmd i f s).out = s.out := (rfl)
@[simp] theorem modCmd_freeCtr (s : State) (i : Word) (f : Cmd → Cmd) : (modCmd i f s).freeCtr = s.freeCtr := (rfl)
@[simp] theorem modCmd_early (s : State) (i : Word) (f : Cmd → Cmd) : (modCmd i f s).early = s.early := (rfl)
@[simp] theorem modCmd_store (s : State) (i : Word) (f : Cmd → Cmd) : (modCmd i f s).store = s.store := (rfl)
@[simp] theorem modCmd_bobs (s : State) (i : Word) (f : Cmd → Cmd) : (modCmd i f s).bobs = s.bobs := (rfl)
@[simp] theorem modCmd_pins (s : State) (i : Word) (f : Cmd → Cmd) : (modCmd i f s).pins = s.pins := (rfl)
@[simp] theorem modCmd_seqs (s : State) (i : Word) (f : Cmd → Cmd) : (modCmd i f s).seqs = s.seqs := (rfl)
@[simp] theorem modCmd_engs (s : State) (i : Word) (f : Cmd → Cmd) : (modCmd i f s).engs = s.engs := (rfl)
@[simp] theorem modCmd_mrgs (s : State) (i : Word) (f : Cmd → Cmd) : (modCmd i f s).mrgs = s.mrgs := (rfl)
@[simp] theorem modCmd_log (s : State) (i : Word) (f : Cmd → Cmd) : (modCmd i f s).log = s.log := (rfl)
@[simp] theorem modCmd_ckpts (s : State) (i : Word) (f : Cmd → Cmd) : (modCmd i f s).ckpts = s.ckpts := (rfl)
@[simp] theorem modCmd_cuts (s : State) (i : Word) (f : Cmd → Cmd) : (modCmd i f s).cuts = s.cuts := (rfl)
@[simp] theorem modCmd_fan (s : State) (i : Word) (f : Cmd → Cmd) : (modCmd i f s).fan = s.fan := (rfl)
@[simp] theorem modCmd_seam (s : State) (i : Word) (f : Cmd → Cmd) : (modCmd i f s).seam = s.seam := (rfl)
@[simp] theorem modCmd_tape (s : State) (i : Word) (f : Cmd → Cmd) : (modCmd i f s).tape = s.tape := (rfl)
@[simp] theorem modCmd_cells (s : State) (i : Word) (f : Cmd → Cmd) : (modCmd i f s).cells = s.cells := (rfl)
@[simp] theorem modCmd_cons (s : State) (i : Word) (f : Cmd → Cmd) : (modCmd i f s).cons = s.cons := (rfl)
@[simp] theorem modCmd_egress (s : State) (i : Word) (f : Cmd → Cmd) : (modCmd i f s).egress = s.egress := (rfl)
@[simp] theorem modCmd_laneLq (s : State) (i : Word) (f : Cmd → Cmd) : (modCmd i f s).laneLq = s.laneLq := (rfl)
@[simp] theorem modCmd_builds (s : State) (i : Word) (f : Cmd → Cmd) : (modCmd i f s).builds = s.builds := (rfl)
@[simp] theorem modCmd_ports (s : State) (i : Word) (f : Cmd → Cmd) : (modCmd i f s).ports = s.ports := (rfl)
@[simp] theorem modCmd_cans (s : State) (i : Word) (f : Cmd → Cmd) : (modCmd i f s).cans = s.cans := (rfl)
@[simp] theorem modCmd_t1s (s : State) (i : Word) (f : Cmd → Cmd) : (modCmd i f s).t1s = s.t1s := (rfl)
@[simp] theorem modCmd_ups (s : State) (i : Word) (f : Cmd → Cmd) : (modCmd i f s).ups = s.ups := (rfl)
@[simp] theorem modCmd_rings (s : State) (i : Word) (f : Cmd → Cmd) : (modCmd i f s).rings = s.rings := (rfl)
@[simp] theorem modCmd_blocked (s : State) (i : Word) (f : Cmd → Cmd) : (modCmd i f s).blocked = s.blocked := (rfl)
@[simp] theorem modCmd_genOffered (s : State) (i : Word) (f : Cmd → Cmd) : (modCmd i f s).genOffered = s.genOffered := (rfl)
@[simp] theorem modCmd_wbWritten (s : State) (i : Word) (f : Cmd → Cmd) : (modCmd i f s).wbWritten = s.wbWritten := (rfl)
@[simp] theorem modCmd_cuCtx (s : State) (i : Word) (f : Cmd → Cmd) : (modCmd i f s).cuCtx = s.cuCtx := (rfl)
@[simp] theorem modCmd_cus (s : State) (i : Word) (f : Cmd → Cmd) : (modCmd i f s).cus = s.cus := (rfl)
@[simp] theorem modCmd_peer (s : State) (i : Word) (f : Cmd → Cmd) : (modCmd i f s).peer = s.peer := (rfl)
@[simp] theorem modCmd_boot (s : State) (i : Word) (f : Cmd → Cmd) : (modCmd i f s).boot = s.boot := (rfl)
@[simp] theorem modCmd_pw (s : State) (i : Word) (f : Cmd → Cmd) : (modCmd i f s).pw = s.pw := (rfl)
@[simp] theorem modCmd_tap (s : State) (i : Word) (f : Cmd → Cmd) : (modCmd i f s).tap = s.tap := (rfl)
@[simp] theorem modCmd_at_reg (s : State) (i : Word) (f : Cmd → Cmd) (o : Nat) : (modCmd i f s).reg o = s.reg o := (rfl)
@[simp] theorem modCmd_at_liveReg (s : State) (i : Word) (f : Cmd → Cmd) (o : Nat) : (modCmd i f s).liveReg o = s.liveReg o := (rfl)
@[simp] theorem modCmd_at_counter (s : State) (i : Word) (f : Cmd → Cmd) (j : Nat) : (modCmd i f s).counter j = s.counter j := (rfl)
@[simp] theorem modCmd_at_rb (s : State) (i : Word) (f : Cmd → Cmd) (o i' : Nat) : (modCmd i f s).rb o i' = s.rb o i' := (rfl)
@[simp] theorem modCmd_at_rf (s : State) (i : Word) (f : Cmd → Cmd) (o lo n : Nat) : (modCmd i f s).rf o lo n = s.rf o lo n := (rfl)
@[simp] theorem modCmd_at_bob (s : State) (i : Word) (f : Cmd → Cmd) (b : Nat) : (modCmd i f s).bob b = s.bob b := (rfl)
@[simp] theorem modCmd_at_pin (s : State) (i : Word) (f : Cmd → Cmd) (a : Nat) : (modCmd i f s).pin a = s.pin a := (rfl)
@[simp] theorem modCmd_at_mrg (s : State) (i : Word) (f : Cmd → Cmd) (m : Nat) : (modCmd i f s).mrg m = s.mrg m := (rfl)
@[simp] theorem modCmd_at_eg (s : State) (i : Word) (f : Cmd → Cmd) (p : Nat) : (modCmd i f s).eg p = s.eg p := (rfl)
@[simp] theorem modCmd_at_port (s : State) (i : Word) (f : Cmd → Cmd) (p : Nat) : (modCmd i f s).port p = s.port p := (rfl)
@[simp] theorem modCmd_at_ring (s : State) (i : Word) (f : Cmd → Cmd) (r : Nat) : (modCmd i f s).ring r = s.ring r := (rfl)
@[simp] theorem modCmd_at_upQ (s : State) (i : Word) (f : Cmd → Cmd) : (modCmd i f s).up? = s.up? := (rfl)
@[simp] theorem modCmd_at_awake (s : State) (i : Word) (f : Cmd → Cmd) : (modCmd i f s).awake = s.awake := (rfl)

/-! ## doneCmd -/

@[simp] theorem doneCmd_pending (s : State) (i : Word) (st : Nat) (r0 r1 : Word) : (doneCmd i st r0 r1 s).pending = s.pending := (rfl)
@[simp] theorem doneCmd_inReset (s : State) (i : Word) (st : Nat) (r0 r1 : Word) : (doneCmd i st r0 r1 s).inReset = s.inReset := (rfl)
@[simp] theorem doneCmd_testEn (s : State) (i : Word) (st : Nat) (r0 r1 : Word) : (doneCmd i st r0 r1 s).testEn = s.testEn := (rfl)
@[simp] theorem doneCmd_perst (s : State) (i : Word) (st : Nat) (r0 r1 : Word) : (doneCmd i st r0 r1 s).perst = s.perst := (rfl)
@[simp] theorem doneCmd_bme (s : State) (i : Word) (st : Nat) (r0 r1 : Word) : (doneCmd i st r0 r1 s).bme = s.bme := (rfl)
@[simp] theorem doneCmd_d3hot (s : State) (i : Word) (st : Nat) (r0 r1 : Word) : (doneCmd i st r0 r1 s).d3hot = s.d3hot := (rfl)
@[simp] theorem doneCmd_rank (s : State) (i : Word) (st : Nat) (r0 r1 : Word) : (doneCmd i st r0 r1 s).rank = s.rank := (rfl)
@[simp] theorem doneCmd_irq (s : State) (i : Word) (st : Nat) (r0 r1 : Word) : (doneCmd i st r0 r1 s).irq = s.irq := (rfl)
@[simp] theorem doneCmd_regs (s : State) (i : Word) (st : Nat) (r0 r1 : Word) : (doneCmd i st r0 r1 s).regs = s.regs := (rfl)
@[simp] theorem doneCmd_live (s : State) (i : Word) (st : Nat) (r0 r1 : Word) : (doneCmd i st r0 r1 s).live = s.live := (rfl)
@[simp] theorem doneCmd_latch (s : State) (i : Word) (st : Nat) (r0 r1 : Word) : (doneCmd i st r0 r1 s).latch = s.latch := (rfl)
@[simp] theorem doneCmd_ctr (s : State) (i : Word) (st : Nat) (r0 r1 : Word) : (doneCmd i st r0 r1 s).ctr = s.ctr := (rfl)
@[simp] theorem doneCmd_out (s : State) (i : Word) (st : Nat) (r0 r1 : Word) : (doneCmd i st r0 r1 s).out = s.out := (rfl)
@[simp] theorem doneCmd_freeCtr (s : State) (i : Word) (st : Nat) (r0 r1 : Word) : (doneCmd i st r0 r1 s).freeCtr = s.freeCtr := (rfl)
@[simp] theorem doneCmd_early (s : State) (i : Word) (st : Nat) (r0 r1 : Word) : (doneCmd i st r0 r1 s).early = s.early := (rfl)
@[simp] theorem doneCmd_store (s : State) (i : Word) (st : Nat) (r0 r1 : Word) : (doneCmd i st r0 r1 s).store = s.store := (rfl)
@[simp] theorem doneCmd_bobs (s : State) (i : Word) (st : Nat) (r0 r1 : Word) : (doneCmd i st r0 r1 s).bobs = s.bobs := (rfl)
@[simp] theorem doneCmd_pins (s : State) (i : Word) (st : Nat) (r0 r1 : Word) : (doneCmd i st r0 r1 s).pins = s.pins := (rfl)
@[simp] theorem doneCmd_seqs (s : State) (i : Word) (st : Nat) (r0 r1 : Word) : (doneCmd i st r0 r1 s).seqs = s.seqs := (rfl)
@[simp] theorem doneCmd_engs (s : State) (i : Word) (st : Nat) (r0 r1 : Word) : (doneCmd i st r0 r1 s).engs = s.engs := (rfl)
@[simp] theorem doneCmd_mrgs (s : State) (i : Word) (st : Nat) (r0 r1 : Word) : (doneCmd i st r0 r1 s).mrgs = s.mrgs := (rfl)
@[simp] theorem doneCmd_log (s : State) (i : Word) (st : Nat) (r0 r1 : Word) : (doneCmd i st r0 r1 s).log = s.log := (rfl)
@[simp] theorem doneCmd_ckpts (s : State) (i : Word) (st : Nat) (r0 r1 : Word) : (doneCmd i st r0 r1 s).ckpts = s.ckpts := (rfl)
@[simp] theorem doneCmd_cuts (s : State) (i : Word) (st : Nat) (r0 r1 : Word) : (doneCmd i st r0 r1 s).cuts = s.cuts := (rfl)
@[simp] theorem doneCmd_fan (s : State) (i : Word) (st : Nat) (r0 r1 : Word) : (doneCmd i st r0 r1 s).fan = s.fan := (rfl)
@[simp] theorem doneCmd_seam (s : State) (i : Word) (st : Nat) (r0 r1 : Word) : (doneCmd i st r0 r1 s).seam = s.seam := (rfl)
@[simp] theorem doneCmd_tape (s : State) (i : Word) (st : Nat) (r0 r1 : Word) : (doneCmd i st r0 r1 s).tape = s.tape := (rfl)
@[simp] theorem doneCmd_cells (s : State) (i : Word) (st : Nat) (r0 r1 : Word) : (doneCmd i st r0 r1 s).cells = s.cells := (rfl)
@[simp] theorem doneCmd_cons (s : State) (i : Word) (st : Nat) (r0 r1 : Word) : (doneCmd i st r0 r1 s).cons = s.cons := (rfl)
@[simp] theorem doneCmd_egress (s : State) (i : Word) (st : Nat) (r0 r1 : Word) : (doneCmd i st r0 r1 s).egress = s.egress := (rfl)
@[simp] theorem doneCmd_laneLq (s : State) (i : Word) (st : Nat) (r0 r1 : Word) : (doneCmd i st r0 r1 s).laneLq = s.laneLq := (rfl)
@[simp] theorem doneCmd_builds (s : State) (i : Word) (st : Nat) (r0 r1 : Word) : (doneCmd i st r0 r1 s).builds = s.builds := (rfl)
@[simp] theorem doneCmd_ports (s : State) (i : Word) (st : Nat) (r0 r1 : Word) : (doneCmd i st r0 r1 s).ports = s.ports := (rfl)
@[simp] theorem doneCmd_cans (s : State) (i : Word) (st : Nat) (r0 r1 : Word) : (doneCmd i st r0 r1 s).cans = s.cans := (rfl)
@[simp] theorem doneCmd_t1s (s : State) (i : Word) (st : Nat) (r0 r1 : Word) : (doneCmd i st r0 r1 s).t1s = s.t1s := (rfl)
@[simp] theorem doneCmd_ups (s : State) (i : Word) (st : Nat) (r0 r1 : Word) : (doneCmd i st r0 r1 s).ups = s.ups := (rfl)
@[simp] theorem doneCmd_rings (s : State) (i : Word) (st : Nat) (r0 r1 : Word) : (doneCmd i st r0 r1 s).rings = s.rings := (rfl)
@[simp] theorem doneCmd_blocked (s : State) (i : Word) (st : Nat) (r0 r1 : Word) : (doneCmd i st r0 r1 s).blocked = s.blocked := (rfl)
@[simp] theorem doneCmd_genOffered (s : State) (i : Word) (st : Nat) (r0 r1 : Word) : (doneCmd i st r0 r1 s).genOffered = s.genOffered := (rfl)
@[simp] theorem doneCmd_wbWritten (s : State) (i : Word) (st : Nat) (r0 r1 : Word) : (doneCmd i st r0 r1 s).wbWritten = s.wbWritten := (rfl)
@[simp] theorem doneCmd_cuCtx (s : State) (i : Word) (st : Nat) (r0 r1 : Word) : (doneCmd i st r0 r1 s).cuCtx = s.cuCtx := (rfl)
@[simp] theorem doneCmd_cus (s : State) (i : Word) (st : Nat) (r0 r1 : Word) : (doneCmd i st r0 r1 s).cus = s.cus := (rfl)
@[simp] theorem doneCmd_peer (s : State) (i : Word) (st : Nat) (r0 r1 : Word) : (doneCmd i st r0 r1 s).peer = s.peer := (rfl)
@[simp] theorem doneCmd_boot (s : State) (i : Word) (st : Nat) (r0 r1 : Word) : (doneCmd i st r0 r1 s).boot = s.boot := (rfl)
@[simp] theorem doneCmd_pw (s : State) (i : Word) (st : Nat) (r0 r1 : Word) : (doneCmd i st r0 r1 s).pw = s.pw := (rfl)
@[simp] theorem doneCmd_tap (s : State) (i : Word) (st : Nat) (r0 r1 : Word) : (doneCmd i st r0 r1 s).tap = s.tap := (rfl)
@[simp] theorem doneCmd_at_reg (s : State) (i : Word) (st : Nat) (r0 r1 : Word) (o : Nat) : (doneCmd i st r0 r1 s).reg o = s.reg o := (rfl)
@[simp] theorem doneCmd_at_liveReg (s : State) (i : Word) (st : Nat) (r0 r1 : Word) (o : Nat) : (doneCmd i st r0 r1 s).liveReg o = s.liveReg o := (rfl)
@[simp] theorem doneCmd_at_counter (s : State) (i : Word) (st : Nat) (r0 r1 : Word) (j : Nat) : (doneCmd i st r0 r1 s).counter j = s.counter j := (rfl)
@[simp] theorem doneCmd_at_rb (s : State) (i : Word) (st : Nat) (r0 r1 : Word) (o i' : Nat) : (doneCmd i st r0 r1 s).rb o i' = s.rb o i' := (rfl)
@[simp] theorem doneCmd_at_rf (s : State) (i : Word) (st : Nat) (r0 r1 : Word) (o lo n : Nat) : (doneCmd i st r0 r1 s).rf o lo n = s.rf o lo n := (rfl)
@[simp] theorem doneCmd_at_bob (s : State) (i : Word) (st : Nat) (r0 r1 : Word) (b : Nat) : (doneCmd i st r0 r1 s).bob b = s.bob b := (rfl)
@[simp] theorem doneCmd_at_pin (s : State) (i : Word) (st : Nat) (r0 r1 : Word) (a : Nat) : (doneCmd i st r0 r1 s).pin a = s.pin a := (rfl)
@[simp] theorem doneCmd_at_mrg (s : State) (i : Word) (st : Nat) (r0 r1 : Word) (m : Nat) : (doneCmd i st r0 r1 s).mrg m = s.mrg m := (rfl)
@[simp] theorem doneCmd_at_eg (s : State) (i : Word) (st : Nat) (r0 r1 : Word) (p : Nat) : (doneCmd i st r0 r1 s).eg p = s.eg p := (rfl)
@[simp] theorem doneCmd_at_port (s : State) (i : Word) (st : Nat) (r0 r1 : Word) (p : Nat) : (doneCmd i st r0 r1 s).port p = s.port p := (rfl)
@[simp] theorem doneCmd_at_ring (s : State) (i : Word) (st : Nat) (r0 r1 : Word) (r : Nat) : (doneCmd i st r0 r1 s).ring r = s.ring r := (rfl)
@[simp] theorem doneCmd_at_upQ (s : State) (i : Word) (st : Nat) (r0 r1 : Word) : (doneCmd i st r0 r1 s).up? = s.up? := (rfl)
@[simp] theorem doneCmd_at_awake (s : State) (i : Word) (st : Nat) (r0 r1 : Word) : (doneCmd i st r0 r1 s).awake = s.awake := (rfl)

/-! ## setCur -/

@[simp] theorem setCur_pending (s : State) (p : Nat) (c : Option Cur) : (setCur p c s).pending = s.pending := (rfl)
@[simp] theorem setCur_inReset (s : State) (p : Nat) (c : Option Cur) : (setCur p c s).inReset = s.inReset := (rfl)
@[simp] theorem setCur_testEn (s : State) (p : Nat) (c : Option Cur) : (setCur p c s).testEn = s.testEn := (rfl)
@[simp] theorem setCur_perst (s : State) (p : Nat) (c : Option Cur) : (setCur p c s).perst = s.perst := (rfl)
@[simp] theorem setCur_bme (s : State) (p : Nat) (c : Option Cur) : (setCur p c s).bme = s.bme := (rfl)
@[simp] theorem setCur_d3hot (s : State) (p : Nat) (c : Option Cur) : (setCur p c s).d3hot = s.d3hot := (rfl)
@[simp] theorem setCur_rank (s : State) (p : Nat) (c : Option Cur) : (setCur p c s).rank = s.rank := (rfl)
@[simp] theorem setCur_irq (s : State) (p : Nat) (c : Option Cur) : (setCur p c s).irq = s.irq := (rfl)
@[simp] theorem setCur_regs (s : State) (p : Nat) (c : Option Cur) : (setCur p c s).regs = s.regs := (rfl)
@[simp] theorem setCur_live (s : State) (p : Nat) (c : Option Cur) : (setCur p c s).live = s.live := (rfl)
@[simp] theorem setCur_latch (s : State) (p : Nat) (c : Option Cur) : (setCur p c s).latch = s.latch := (rfl)
@[simp] theorem setCur_ctr (s : State) (p : Nat) (c : Option Cur) : (setCur p c s).ctr = s.ctr := (rfl)
@[simp] theorem setCur_out (s : State) (p : Nat) (c : Option Cur) : (setCur p c s).out = s.out := (rfl)
@[simp] theorem setCur_freeCtr (s : State) (p : Nat) (c : Option Cur) : (setCur p c s).freeCtr = s.freeCtr := (rfl)
@[simp] theorem setCur_early (s : State) (p : Nat) (c : Option Cur) : (setCur p c s).early = s.early := (rfl)
@[simp] theorem setCur_store (s : State) (p : Nat) (c : Option Cur) : (setCur p c s).store = s.store := (rfl)
@[simp] theorem setCur_bobs (s : State) (p : Nat) (c : Option Cur) : (setCur p c s).bobs = s.bobs := (rfl)
@[simp] theorem setCur_pins (s : State) (p : Nat) (c : Option Cur) : (setCur p c s).pins = s.pins := (rfl)
@[simp] theorem setCur_seqs (s : State) (p : Nat) (c : Option Cur) : (setCur p c s).seqs = s.seqs := (rfl)
@[simp] theorem setCur_engs (s : State) (p : Nat) (c : Option Cur) : (setCur p c s).engs = s.engs := (rfl)
@[simp] theorem setCur_mrgs (s : State) (p : Nat) (c : Option Cur) : (setCur p c s).mrgs = s.mrgs := (rfl)
@[simp] theorem setCur_log (s : State) (p : Nat) (c : Option Cur) : (setCur p c s).log = s.log := (rfl)
@[simp] theorem setCur_ckpts (s : State) (p : Nat) (c : Option Cur) : (setCur p c s).ckpts = s.ckpts := (rfl)
@[simp] theorem setCur_cuts (s : State) (p : Nat) (c : Option Cur) : (setCur p c s).cuts = s.cuts := (rfl)
@[simp] theorem setCur_fan (s : State) (p : Nat) (c : Option Cur) : (setCur p c s).fan = s.fan := (rfl)
@[simp] theorem setCur_seam (s : State) (p : Nat) (c : Option Cur) : (setCur p c s).seam = s.seam := (rfl)
@[simp] theorem setCur_tape (s : State) (p : Nat) (c : Option Cur) : (setCur p c s).tape = s.tape := (rfl)
@[simp] theorem setCur_cells (s : State) (p : Nat) (c : Option Cur) : (setCur p c s).cells = s.cells := (rfl)
@[simp] theorem setCur_cons (s : State) (p : Nat) (c : Option Cur) : (setCur p c s).cons = s.cons := (rfl)
@[simp] theorem setCur_laneLq (s : State) (p : Nat) (c : Option Cur) : (setCur p c s).laneLq = s.laneLq := (rfl)
@[simp] theorem setCur_builds (s : State) (p : Nat) (c : Option Cur) : (setCur p c s).builds = s.builds := (rfl)
@[simp] theorem setCur_ports (s : State) (p : Nat) (c : Option Cur) : (setCur p c s).ports = s.ports := (rfl)
@[simp] theorem setCur_cans (s : State) (p : Nat) (c : Option Cur) : (setCur p c s).cans = s.cans := (rfl)
@[simp] theorem setCur_t1s (s : State) (p : Nat) (c : Option Cur) : (setCur p c s).t1s = s.t1s := (rfl)
@[simp] theorem setCur_ups (s : State) (p : Nat) (c : Option Cur) : (setCur p c s).ups = s.ups := (rfl)
@[simp] theorem setCur_rings (s : State) (p : Nat) (c : Option Cur) : (setCur p c s).rings = s.rings := (rfl)
@[simp] theorem setCur_blocked (s : State) (p : Nat) (c : Option Cur) : (setCur p c s).blocked = s.blocked := (rfl)
@[simp] theorem setCur_genOffered (s : State) (p : Nat) (c : Option Cur) : (setCur p c s).genOffered = s.genOffered := (rfl)
@[simp] theorem setCur_wbWritten (s : State) (p : Nat) (c : Option Cur) : (setCur p c s).wbWritten = s.wbWritten := (rfl)
@[simp] theorem setCur_cmds (s : State) (p : Nat) (c : Option Cur) : (setCur p c s).cmds = s.cmds := (rfl)
@[simp] theorem setCur_cuCtx (s : State) (p : Nat) (c : Option Cur) : (setCur p c s).cuCtx = s.cuCtx := (rfl)
@[simp] theorem setCur_cus (s : State) (p : Nat) (c : Option Cur) : (setCur p c s).cus = s.cus := (rfl)
@[simp] theorem setCur_peer (s : State) (p : Nat) (c : Option Cur) : (setCur p c s).peer = s.peer := (rfl)
@[simp] theorem setCur_boot (s : State) (p : Nat) (c : Option Cur) : (setCur p c s).boot = s.boot := (rfl)
@[simp] theorem setCur_pw (s : State) (p : Nat) (c : Option Cur) : (setCur p c s).pw = s.pw := (rfl)
@[simp] theorem setCur_tap (s : State) (p : Nat) (c : Option Cur) : (setCur p c s).tap = s.tap := (rfl)
@[simp] theorem setCur_at_reg (s : State) (p : Nat) (c : Option Cur) (o : Nat) : (setCur p c s).reg o = s.reg o := (rfl)
@[simp] theorem setCur_at_liveReg (s : State) (p : Nat) (c : Option Cur) (o : Nat) : (setCur p c s).liveReg o = s.liveReg o := (rfl)
@[simp] theorem setCur_at_counter (s : State) (p : Nat) (c : Option Cur) (j : Nat) : (setCur p c s).counter j = s.counter j := (rfl)
@[simp] theorem setCur_at_rb (s : State) (p : Nat) (c : Option Cur) (o i : Nat) : (setCur p c s).rb o i = s.rb o i := (rfl)
@[simp] theorem setCur_at_rf (s : State) (p : Nat) (c : Option Cur) (o lo n : Nat) : (setCur p c s).rf o lo n = s.rf o lo n := (rfl)
@[simp] theorem setCur_at_bob (s : State) (p : Nat) (c : Option Cur) (b : Nat) : (setCur p c s).bob b = s.bob b := (rfl)
@[simp] theorem setCur_at_pin (s : State) (p : Nat) (c : Option Cur) (a : Nat) : (setCur p c s).pin a = s.pin a := (rfl)
@[simp] theorem setCur_at_mrg (s : State) (p : Nat) (c : Option Cur) (m : Nat) : (setCur p c s).mrg m = s.mrg m := (rfl)
@[simp] theorem setCur_at_port (s : State) (p : Nat) (c : Option Cur) (p' : Nat) : (setCur p c s).port p' = s.port p' := (rfl)
@[simp] theorem setCur_at_ring (s : State) (p : Nat) (c : Option Cur) (r : Nat) : (setCur p c s).ring r = s.ring r := (rfl)
@[simp] theorem setCur_at_upQ (s : State) (p : Nat) (c : Option Cur) : (setCur p c s).up? = s.up? := (rfl)
@[simp] theorem setCur_at_awake (s : State) (p : Nat) (c : Option Cur) : (setCur p c s).awake = s.awake := (rfl)

end Sys2Proof.Machine
end

