-- ==== Sys2Proof/Laws/Outcome.lean ====
section
/-!
SUPPORT. What every command ends with (done, irqPin) and what stands around a meaning (core, whenDo, emit): the lemmas that a
statement about exec is reduced by.
-/
set_option Elab.async false
namespace Sys2Proof.Machine

/-! ## The end of a command -/

/-- The state that a command ends in: IRQ_N follows the tree, and the queue is as it was (R384, R386). -/
theorem done_eq (s t : State) : done s t = .next (settle s t) := rfl

@[simp] theorem core_awake {f : State → State} {s : State} (h : s.awake = true) : core f s = f s := by simp [core, h]
@[simp] theorem core_asleep {f : State → State} {s : State} (h : s.awake = false) : core f s = s := by simp [core, h]
@[simp] theorem whenDo_true (f : State → State) (s : State) : whenDo true f s = f s := rfl
@[simp] theorem whenDo_false (f : State → State) (s : State) : whenDo false f s = s := rfl

/-- What each application keeps, a run over a list keeps. -/
theorem forAll_keep {β γ : Type} (g : State → γ) (f : β → State → State) (h : ∀ b s, g (f b s) = g s) (l : List β) (s : State) :
    g (forAll l f s) = g s := by
  unfold forAll
  induction l generalizing s with
  | nil => rfl
  | cons a t ih => rw [List.foldl_cons, ih, h]

/-- What a change keeps, its conditional form keeps. -/
theorem whenDo_keep {γ : Type} (g : State → γ) (c : Bool) (f : State → State) (s : State) (h : g (f s) = g s) :
    g (whenDo c f s) = g s := by cases c <;> simp [h]

theorem irqPin_eq (s : State) : irqPin s =
    if irqWanted s && !s.irq then { count (ctHi 339) 1 s with irq := irqWanted s } else { s with irq := irqWanted s } := by
  by_cases h : (irqWanted s && !s.irq) = true
  · rw [if_pos h]; simp only [irqPin, h, whenDo_true]
  · rw [if_neg h]; simp only [irqPin, Bool.not_eq_true _ ▸ h, whenDo_false]

@[simp] theorem irqPin_pending (s : State) : (irqPin s).pending = s.pending := by rw [irqPin_eq]; split <;> rfl
@[simp] theorem irqPin_inReset (s : State) : (irqPin s).inReset = s.inReset := by rw [irqPin_eq]; split <;> rfl
@[simp] theorem irqPin_testEn (s : State) : (irqPin s).testEn = s.testEn := by rw [irqPin_eq]; split <;> rfl
@[simp] theorem irqPin_perst (s : State) : (irqPin s).perst = s.perst := by rw [irqPin_eq]; split <;> rfl
@[simp] theorem irqPin_bme (s : State) : (irqPin s).bme = s.bme := by rw [irqPin_eq]; split <;> rfl
@[simp] theorem irqPin_d3hot (s : State) : (irqPin s).d3hot = s.d3hot := by rw [irqPin_eq]; split <;> rfl
@[simp] theorem irqPin_pci (s : State) : (irqPin s).pci = s.pci := by rw [irqPin_eq]; split <;> rfl
@[simp] theorem irqPin_turn (s : State) : (irqPin s).turn = s.turn := by rw [irqPin_eq]; split <;> rfl
@[simp] theorem irqPin_cmdSerial (s : State) : (irqPin s).cmdSerial = s.cmdSerial := by rw [irqPin_eq]; split <;> rfl
@[simp] theorem irqPin_rank (s : State) : (irqPin s).rank = s.rank := by rw [irqPin_eq]; split <;> rfl
@[simp] theorem irqPin_regs (s : State) : (irqPin s).regs = s.regs := by rw [irqPin_eq]; split <;> rfl
@[simp] theorem irqPin_live (s : State) : (irqPin s).live = s.live := by rw [irqPin_eq]; split <;> rfl
@[simp] theorem irqPin_latch (s : State) : (irqPin s).latch = s.latch := by rw [irqPin_eq]; split <;> rfl
@[simp] theorem irqPin_out (s : State) : (irqPin s).out = s.out := by rw [irqPin_eq]; split <;> rfl
@[simp] theorem irqPin_freeCtr (s : State) : (irqPin s).freeCtr = s.freeCtr := by rw [irqPin_eq]; split <;> rfl
@[simp] theorem irqPin_early (s : State) : (irqPin s).early = s.early := by rw [irqPin_eq]; split <;> rfl
@[simp] theorem irqPin_store (s : State) : (irqPin s).store = s.store := by rw [irqPin_eq]; split <;> rfl
@[simp] theorem irqPin_bobs (s : State) : (irqPin s).bobs = s.bobs := by rw [irqPin_eq]; split <;> rfl
@[simp] theorem irqPin_pins (s : State) : (irqPin s).pins = s.pins := by rw [irqPin_eq]; split <;> rfl
@[simp] theorem irqPin_seqs (s : State) : (irqPin s).seqs = s.seqs := by rw [irqPin_eq]; split <;> rfl
@[simp] theorem irqPin_engs (s : State) : (irqPin s).engs = s.engs := by rw [irqPin_eq]; split <;> rfl
@[simp] theorem irqPin_mrgs (s : State) : (irqPin s).mrgs = s.mrgs := by rw [irqPin_eq]; split <;> rfl
@[simp] theorem irqPin_log (s : State) : (irqPin s).log = s.log := by rw [irqPin_eq]; split <;> rfl
@[simp] theorem irqPin_ckpts (s : State) : (irqPin s).ckpts = s.ckpts := by rw [irqPin_eq]; split <;> rfl
@[simp] theorem irqPin_cuts (s : State) : (irqPin s).cuts = s.cuts := by rw [irqPin_eq]; split <;> rfl
@[simp] theorem irqPin_fan (s : State) : (irqPin s).fan = s.fan := by rw [irqPin_eq]; split <;> rfl
@[simp] theorem irqPin_seam (s : State) : (irqPin s).seam = s.seam := by rw [irqPin_eq]; split <;> rfl
@[simp] theorem irqPin_tape (s : State) : (irqPin s).tape = s.tape := by rw [irqPin_eq]; split <;> rfl
@[simp] theorem irqPin_cells (s : State) : (irqPin s).cells = s.cells := by rw [irqPin_eq]; split <;> rfl
@[simp] theorem irqPin_cons (s : State) : (irqPin s).cons = s.cons := by rw [irqPin_eq]; split <;> rfl
@[simp] theorem irqPin_egress (s : State) : (irqPin s).egress = s.egress := by rw [irqPin_eq]; split <;> rfl
@[simp] theorem irqPin_laneLq (s : State) : (irqPin s).laneLq = s.laneLq := by rw [irqPin_eq]; split <;> rfl
@[simp] theorem irqPin_builds (s : State) : (irqPin s).builds = s.builds := by rw [irqPin_eq]; split <;> rfl
@[simp] theorem irqPin_hotAt (s : State) : (irqPin s).hotAt = s.hotAt := by rw [irqPin_eq]; split <;> rfl
@[simp] theorem irqPin_hot (s : State) : (irqPin s).hot = s.hot := by rw [irqPin_eq]; split <;> rfl
@[simp] theorem irqPin_hist (s : State) : (irqPin s).hist = s.hist := by rw [irqPin_eq]; split <;> rfl
@[simp] theorem irqPin_scan (s : State) : (irqPin s).scan = s.scan := by rw [irqPin_eq]; split <;> rfl
@[simp] theorem irqPin_ports (s : State) : (irqPin s).ports = s.ports := by rw [irqPin_eq]; split <;> rfl
@[simp] theorem irqPin_cans (s : State) : (irqPin s).cans = s.cans := by rw [irqPin_eq]; split <;> rfl
@[simp] theorem irqPin_t1s (s : State) : (irqPin s).t1s = s.t1s := by rw [irqPin_eq]; split <;> rfl
@[simp] theorem irqPin_ups (s : State) : (irqPin s).ups = s.ups := by rw [irqPin_eq]; split <;> rfl
@[simp] theorem irqPin_rings (s : State) : (irqPin s).rings = s.rings := by rw [irqPin_eq]; split <;> rfl
@[simp] theorem irqPin_blocked (s : State) : (irqPin s).blocked = s.blocked := by rw [irqPin_eq]; split <;> rfl
@[simp] theorem irqPin_genOffered (s : State) : (irqPin s).genOffered = s.genOffered := by rw [irqPin_eq]; split <;> rfl
@[simp] theorem irqPin_wbWritten (s : State) : (irqPin s).wbWritten = s.wbWritten := by rw [irqPin_eq]; split <;> rfl
@[simp] theorem irqPin_cmds (s : State) : (irqPin s).cmds = s.cmds := by rw [irqPin_eq]; split <;> rfl
@[simp] theorem irqPin_cuCtx (s : State) : (irqPin s).cuCtx = s.cuCtx := by rw [irqPin_eq]; split <;> rfl
@[simp] theorem irqPin_cus (s : State) : (irqPin s).cus = s.cus := by rw [irqPin_eq]; split <;> rfl
@[simp] theorem irqPin_peer (s : State) : (irqPin s).peer = s.peer := by rw [irqPin_eq]; split <;> rfl
@[simp] theorem irqPin_boot (s : State) : (irqPin s).boot = s.boot := by rw [irqPin_eq]; split <;> rfl
@[simp] theorem irqPin_pw (s : State) : (irqPin s).pw = s.pw := by rw [irqPin_eq]; split <;> rfl
@[simp] theorem irqPin_tap (s : State) : (irqPin s).tap = s.tap := by rw [irqPin_eq]; split <;> rfl

@[simp] theorem irqPin_irq (s : State) : (irqPin s).irq = irqWanted s := (rfl)

/-- Only the count of assertions of IRQ_N moves when the line follows (R388). -/
theorem irqPin_counter (s : State) {j : Nat} (h : j ≠ ctHi 339) : (irqPin s).counter j = s.counter j := by
  show mapGet _ (irqPin s).ctr j = _
  rw [irqPin_eq]
  split
  · show mapGet _ (mapSet _ _ _ _) j = _
    rw [mapGet_mapSet, if_neg h]; rfl
  · rfl

/-- What IRQ_N depends on: the registers and the levels at the balls. -/
theorem irqWanted_congr {s t : State} (hr : t.regs = s.regs) (hi : t.inReset = s.inReset) (hT : t.testEn = s.testEn)
    (hp : t.perst = s.perst) (hd : t.d3hot = s.d3hot) (hw : t.pw = s.pw) : irqWanted t = irqWanted s := by
  have hreg : t.reg = s.reg := by funext o; show mapGet _ t.regs o = mapGet _ s.regs o; rw [hr]
  have hrb : t.rb = s.rb := by funext o i; show bit (t.reg o) i = _; rw [hreg]; rfl
  have hup : t.up? = s.up? := by unfold State.up?; rw [hi, hT, hw]
  have hl : leafOn t = leafOn s := by funext o; unfold leafOn; rw [hreg]
  have hg : gsrc t = gsrc s := by funext g; unfold gsrc; rw [hl]
  have hs : isum t = isum s := by unfold isum; rw [hg]
  unfold irqWanted; rw [hup, hp, hd, hrb, hs, hreg]

/-! ## Outputs -/

@[simp] theorem emit_pending (x : Output) (s : State) : (emit x s).pending = s.pending := by unfold emit; split <;> rfl
@[simp] theorem emit_inReset (x : Output) (s : State) : (emit x s).inReset = s.inReset := by unfold emit; split <;> rfl
@[simp] theorem emit_testEn (x : Output) (s : State) : (emit x s).testEn = s.testEn := by unfold emit; split <;> rfl
@[simp] theorem emit_perst (x : Output) (s : State) : (emit x s).perst = s.perst := by unfold emit; split <;> rfl
@[simp] theorem emit_bme (x : Output) (s : State) : (emit x s).bme = s.bme := by unfold emit; split <;> rfl
@[simp] theorem emit_d3hot (x : Output) (s : State) : (emit x s).d3hot = s.d3hot := by unfold emit; split <;> rfl
@[simp] theorem emit_pci (x : Output) (s : State) : (emit x s).pci = s.pci := by unfold emit; split <;> rfl
@[simp] theorem emit_turn (x : Output) (s : State) : (emit x s).turn = s.turn := by unfold emit; split <;> rfl
@[simp] theorem emit_cmdSerial (x : Output) (s : State) : (emit x s).cmdSerial = s.cmdSerial := by unfold emit; split <;> rfl
@[simp] theorem emit_rank (x : Output) (s : State) : (emit x s).rank = s.rank := by unfold emit; split <;> rfl
@[simp] theorem emit_irq (x : Output) (s : State) : (emit x s).irq = s.irq := by unfold emit; split <;> rfl
@[simp] theorem emit_regs (x : Output) (s : State) : (emit x s).regs = s.regs := by unfold emit; split <;> rfl
@[simp] theorem emit_live (x : Output) (s : State) : (emit x s).live = s.live := by unfold emit; split <;> rfl
@[simp] theorem emit_latch (x : Output) (s : State) : (emit x s).latch = s.latch := by unfold emit; split <;> rfl
@[simp] theorem emit_ctr (x : Output) (s : State) : (emit x s).ctr = s.ctr := by unfold emit; split <;> rfl
@[simp] theorem emit_freeCtr (x : Output) (s : State) : (emit x s).freeCtr = s.freeCtr := by unfold emit; split <;> rfl
@[simp] theorem emit_early (x : Output) (s : State) : (emit x s).early = s.early := by unfold emit; split <;> rfl
@[simp] theorem emit_store (x : Output) (s : State) : (emit x s).store = s.store := by unfold emit; split <;> rfl
@[simp] theorem emit_bobs (x : Output) (s : State) : (emit x s).bobs = s.bobs := by unfold emit; split <;> rfl
@[simp] theorem emit_pins (x : Output) (s : State) : (emit x s).pins = s.pins := by unfold emit; split <;> rfl
@[simp] theorem emit_seqs (x : Output) (s : State) : (emit x s).seqs = s.seqs := by unfold emit; split <;> rfl
@[simp] theorem emit_engs (x : Output) (s : State) : (emit x s).engs = s.engs := by unfold emit; split <;> rfl
@[simp] theorem emit_mrgs (x : Output) (s : State) : (emit x s).mrgs = s.mrgs := by unfold emit; split <;> rfl
@[simp] theorem emit_log (x : Output) (s : State) : (emit x s).log = s.log := by unfold emit; split <;> rfl
@[simp] theorem emit_ckpts (x : Output) (s : State) : (emit x s).ckpts = s.ckpts := by unfold emit; split <;> rfl
@[simp] theorem emit_cuts (x : Output) (s : State) : (emit x s).cuts = s.cuts := by unfold emit; split <;> rfl
@[simp] theorem emit_fan (x : Output) (s : State) : (emit x s).fan = s.fan := by unfold emit; split <;> rfl
@[simp] theorem emit_seam (x : Output) (s : State) : (emit x s).seam = s.seam := by unfold emit; split <;> rfl
@[simp] theorem emit_tape (x : Output) (s : State) : (emit x s).tape = s.tape := by unfold emit; split <;> rfl
@[simp] theorem emit_cells (x : Output) (s : State) : (emit x s).cells = s.cells := by unfold emit; split <;> rfl
@[simp] theorem emit_cons (x : Output) (s : State) : (emit x s).cons = s.cons := by unfold emit; split <;> rfl
@[simp] theorem emit_egress (x : Output) (s : State) : (emit x s).egress = s.egress := by unfold emit; split <;> rfl
@[simp] theorem emit_laneLq (x : Output) (s : State) : (emit x s).laneLq = s.laneLq := by unfold emit; split <;> rfl
@[simp] theorem emit_builds (x : Output) (s : State) : (emit x s).builds = s.builds := by unfold emit; split <;> rfl
@[simp] theorem emit_hotAt (x : Output) (s : State) : (emit x s).hotAt = s.hotAt := by unfold emit; split <;> rfl
@[simp] theorem emit_hot (x : Output) (s : State) : (emit x s).hot = s.hot := by unfold emit; split <;> rfl
@[simp] theorem emit_hist (x : Output) (s : State) : (emit x s).hist = s.hist := by unfold emit; split <;> rfl
@[simp] theorem emit_scan (x : Output) (s : State) : (emit x s).scan = s.scan := by unfold emit; split <;> rfl
@[simp] theorem emit_ports (x : Output) (s : State) : (emit x s).ports = s.ports := by unfold emit; split <;> rfl
@[simp] theorem emit_cans (x : Output) (s : State) : (emit x s).cans = s.cans := by unfold emit; split <;> rfl
@[simp] theorem emit_t1s (x : Output) (s : State) : (emit x s).t1s = s.t1s := by unfold emit; split <;> rfl
@[simp] theorem emit_ups (x : Output) (s : State) : (emit x s).ups = s.ups := by unfold emit; split <;> rfl
@[simp] theorem emit_rings (x : Output) (s : State) : (emit x s).rings = s.rings := by unfold emit; split <;> rfl
@[simp] theorem emit_blocked (x : Output) (s : State) : (emit x s).blocked = s.blocked := by unfold emit; split <;> rfl
@[simp] theorem emit_genOffered (x : Output) (s : State) : (emit x s).genOffered = s.genOffered := by unfold emit; split <;> rfl
@[simp] theorem emit_wbWritten (x : Output) (s : State) : (emit x s).wbWritten = s.wbWritten := by unfold emit; split <;> rfl
@[simp] theorem emit_cmds (x : Output) (s : State) : (emit x s).cmds = s.cmds := by unfold emit; split <;> rfl
@[simp] theorem emit_cuCtx (x : Output) (s : State) : (emit x s).cuCtx = s.cuCtx := by unfold emit; split <;> rfl
@[simp] theorem emit_cus (x : Output) (s : State) : (emit x s).cus = s.cus := by unfold emit; split <;> rfl
@[simp] theorem emit_peer (x : Output) (s : State) : (emit x s).peer = s.peer := by unfold emit; split <;> rfl
@[simp] theorem emit_boot (x : Output) (s : State) : (emit x s).boot = s.boot := by unfold emit; split <;> rfl
@[simp] theorem emit_pw (x : Output) (s : State) : (emit x s).pw = s.pw := by unfold emit; split <;> rfl
@[simp] theorem emit_tap (x : Output) (s : State) : (emit x s).tap = s.tap := by unfold emit; split <;> rfl

/-- An output that leaves through no media ball, or with the balls connected, is driven (R487). -/
theorem emit_out (x : Output) (s : State) : (emit x s).out = if s.cutOff && x.onBall then s.out else x :: s.out := by
  unfold emit; split <;> simp_all

/-! ## APn_DE, and the state that a command ends in -/

@[simp] theorem dePins_pending (s t : State) : (dePins s t).pending = t.pending := forAll_keep (·.pending) _ (fun _ _ => whenDo_keep _ _ _ _ (emit_pending _ _)) _ _
@[simp] theorem dePins_inReset (s t : State) : (dePins s t).inReset = t.inReset := forAll_keep (·.inReset) _ (fun _ _ => whenDo_keep _ _ _ _ (emit_inReset _ _)) _ _
@[simp] theorem dePins_testEn (s t : State) : (dePins s t).testEn = t.testEn := forAll_keep (·.testEn) _ (fun _ _ => whenDo_keep _ _ _ _ (emit_testEn _ _)) _ _
@[simp] theorem dePins_perst (s t : State) : (dePins s t).perst = t.perst := forAll_keep (·.perst) _ (fun _ _ => whenDo_keep _ _ _ _ (emit_perst _ _)) _ _
@[simp] theorem dePins_bme (s t : State) : (dePins s t).bme = t.bme := forAll_keep (·.bme) _ (fun _ _ => whenDo_keep _ _ _ _ (emit_bme _ _)) _ _
@[simp] theorem dePins_d3hot (s t : State) : (dePins s t).d3hot = t.d3hot := forAll_keep (·.d3hot) _ (fun _ _ => whenDo_keep _ _ _ _ (emit_d3hot _ _)) _ _
@[simp] theorem dePins_pci (s t : State) : (dePins s t).pci = t.pci := forAll_keep (·.pci) _ (fun _ _ => whenDo_keep _ _ _ _ (emit_pci _ _)) _ _
@[simp] theorem dePins_turn (s t : State) : (dePins s t).turn = t.turn := forAll_keep (·.turn) _ (fun _ _ => whenDo_keep _ _ _ _ (emit_turn _ _)) _ _
@[simp] theorem dePins_cmdSerial (s t : State) : (dePins s t).cmdSerial = t.cmdSerial := forAll_keep (·.cmdSerial) _ (fun _ _ => whenDo_keep _ _ _ _ (emit_cmdSerial _ _)) _ _
@[simp] theorem dePins_rank (s t : State) : (dePins s t).rank = t.rank := forAll_keep (·.rank) _ (fun _ _ => whenDo_keep _ _ _ _ (emit_rank _ _)) _ _
@[simp] theorem dePins_irq (s t : State) : (dePins s t).irq = t.irq := forAll_keep (·.irq) _ (fun _ _ => whenDo_keep _ _ _ _ (emit_irq _ _)) _ _
@[simp] theorem dePins_regs (s t : State) : (dePins s t).regs = t.regs := forAll_keep (·.regs) _ (fun _ _ => whenDo_keep _ _ _ _ (emit_regs _ _)) _ _
@[simp] theorem dePins_live (s t : State) : (dePins s t).live = t.live := forAll_keep (·.live) _ (fun _ _ => whenDo_keep _ _ _ _ (emit_live _ _)) _ _
@[simp] theorem dePins_latch (s t : State) : (dePins s t).latch = t.latch := forAll_keep (·.latch) _ (fun _ _ => whenDo_keep _ _ _ _ (emit_latch _ _)) _ _
@[simp] theorem dePins_ctr (s t : State) : (dePins s t).ctr = t.ctr := forAll_keep (·.ctr) _ (fun _ _ => whenDo_keep _ _ _ _ (emit_ctr _ _)) _ _
@[simp] theorem dePins_freeCtr (s t : State) : (dePins s t).freeCtr = t.freeCtr := forAll_keep (·.freeCtr) _ (fun _ _ => whenDo_keep _ _ _ _ (emit_freeCtr _ _)) _ _
@[simp] theorem dePins_early (s t : State) : (dePins s t).early = t.early := forAll_keep (·.early) _ (fun _ _ => whenDo_keep _ _ _ _ (emit_early _ _)) _ _
@[simp] theorem dePins_store (s t : State) : (dePins s t).store = t.store := forAll_keep (·.store) _ (fun _ _ => whenDo_keep _ _ _ _ (emit_store _ _)) _ _
@[simp] theorem dePins_bobs (s t : State) : (dePins s t).bobs = t.bobs := forAll_keep (·.bobs) _ (fun _ _ => whenDo_keep _ _ _ _ (emit_bobs _ _)) _ _
@[simp] theorem dePins_pins (s t : State) : (dePins s t).pins = t.pins := forAll_keep (·.pins) _ (fun _ _ => whenDo_keep _ _ _ _ (emit_pins _ _)) _ _
@[simp] theorem dePins_seqs (s t : State) : (dePins s t).seqs = t.seqs := forAll_keep (·.seqs) _ (fun _ _ => whenDo_keep _ _ _ _ (emit_seqs _ _)) _ _
@[simp] theorem dePins_engs (s t : State) : (dePins s t).engs = t.engs := forAll_keep (·.engs) _ (fun _ _ => whenDo_keep _ _ _ _ (emit_engs _ _)) _ _
@[simp] theorem dePins_mrgs (s t : State) : (dePins s t).mrgs = t.mrgs := forAll_keep (·.mrgs) _ (fun _ _ => whenDo_keep _ _ _ _ (emit_mrgs _ _)) _ _
@[simp] theorem dePins_log (s t : State) : (dePins s t).log = t.log := forAll_keep (·.log) _ (fun _ _ => whenDo_keep _ _ _ _ (emit_log _ _)) _ _
@[simp] theorem dePins_ckpts (s t : State) : (dePins s t).ckpts = t.ckpts := forAll_keep (·.ckpts) _ (fun _ _ => whenDo_keep _ _ _ _ (emit_ckpts _ _)) _ _
@[simp] theorem dePins_cuts (s t : State) : (dePins s t).cuts = t.cuts := forAll_keep (·.cuts) _ (fun _ _ => whenDo_keep _ _ _ _ (emit_cuts _ _)) _ _
@[simp] theorem dePins_fan (s t : State) : (dePins s t).fan = t.fan := forAll_keep (·.fan) _ (fun _ _ => whenDo_keep _ _ _ _ (emit_fan _ _)) _ _
@[simp] theorem dePins_seam (s t : State) : (dePins s t).seam = t.seam := forAll_keep (·.seam) _ (fun _ _ => whenDo_keep _ _ _ _ (emit_seam _ _)) _ _
@[simp] theorem dePins_tape (s t : State) : (dePins s t).tape = t.tape := forAll_keep (·.tape) _ (fun _ _ => whenDo_keep _ _ _ _ (emit_tape _ _)) _ _
@[simp] theorem dePins_cells (s t : State) : (dePins s t).cells = t.cells := forAll_keep (·.cells) _ (fun _ _ => whenDo_keep _ _ _ _ (emit_cells _ _)) _ _
@[simp] theorem dePins_cons (s t : State) : (dePins s t).cons = t.cons := forAll_keep (·.cons) _ (fun _ _ => whenDo_keep _ _ _ _ (emit_cons _ _)) _ _
@[simp] theorem dePins_egress (s t : State) : (dePins s t).egress = t.egress := forAll_keep (·.egress) _ (fun _ _ => whenDo_keep _ _ _ _ (emit_egress _ _)) _ _
@[simp] theorem dePins_laneLq (s t : State) : (dePins s t).laneLq = t.laneLq := forAll_keep (·.laneLq) _ (fun _ _ => whenDo_keep _ _ _ _ (emit_laneLq _ _)) _ _
@[simp] theorem dePins_builds (s t : State) : (dePins s t).builds = t.builds := forAll_keep (·.builds) _ (fun _ _ => whenDo_keep _ _ _ _ (emit_builds _ _)) _ _
@[simp] theorem dePins_hotAt (s t : State) : (dePins s t).hotAt = t.hotAt := forAll_keep (·.hotAt) _ (fun _ _ => whenDo_keep _ _ _ _ (emit_hotAt _ _)) _ _
@[simp] theorem dePins_hot (s t : State) : (dePins s t).hot = t.hot := forAll_keep (·.hot) _ (fun _ _ => whenDo_keep _ _ _ _ (emit_hot _ _)) _ _
@[simp] theorem dePins_hist (s t : State) : (dePins s t).hist = t.hist := forAll_keep (·.hist) _ (fun _ _ => whenDo_keep _ _ _ _ (emit_hist _ _)) _ _
@[simp] theorem dePins_scan (s t : State) : (dePins s t).scan = t.scan := forAll_keep (·.scan) _ (fun _ _ => whenDo_keep _ _ _ _ (emit_scan _ _)) _ _
@[simp] theorem dePins_ports (s t : State) : (dePins s t).ports = t.ports := forAll_keep (·.ports) _ (fun _ _ => whenDo_keep _ _ _ _ (emit_ports _ _)) _ _
@[simp] theorem dePins_cans (s t : State) : (dePins s t).cans = t.cans := forAll_keep (·.cans) _ (fun _ _ => whenDo_keep _ _ _ _ (emit_cans _ _)) _ _
@[simp] theorem dePins_t1s (s t : State) : (dePins s t).t1s = t.t1s := forAll_keep (·.t1s) _ (fun _ _ => whenDo_keep _ _ _ _ (emit_t1s _ _)) _ _
@[simp] theorem dePins_ups (s t : State) : (dePins s t).ups = t.ups := forAll_keep (·.ups) _ (fun _ _ => whenDo_keep _ _ _ _ (emit_ups _ _)) _ _
@[simp] theorem dePins_rings (s t : State) : (dePins s t).rings = t.rings := forAll_keep (·.rings) _ (fun _ _ => whenDo_keep _ _ _ _ (emit_rings _ _)) _ _
@[simp] theorem dePins_blocked (s t : State) : (dePins s t).blocked = t.blocked := forAll_keep (·.blocked) _ (fun _ _ => whenDo_keep _ _ _ _ (emit_blocked _ _)) _ _
@[simp] theorem dePins_genOffered (s t : State) : (dePins s t).genOffered = t.genOffered := forAll_keep (·.genOffered) _ (fun _ _ => whenDo_keep _ _ _ _ (emit_genOffered _ _)) _ _
@[simp] theorem dePins_wbWritten (s t : State) : (dePins s t).wbWritten = t.wbWritten := forAll_keep (·.wbWritten) _ (fun _ _ => whenDo_keep _ _ _ _ (emit_wbWritten _ _)) _ _
@[simp] theorem dePins_cmds (s t : State) : (dePins s t).cmds = t.cmds := forAll_keep (·.cmds) _ (fun _ _ => whenDo_keep _ _ _ _ (emit_cmds _ _)) _ _
@[simp] theorem dePins_cuCtx (s t : State) : (dePins s t).cuCtx = t.cuCtx := forAll_keep (·.cuCtx) _ (fun _ _ => whenDo_keep _ _ _ _ (emit_cuCtx _ _)) _ _
@[simp] theorem dePins_cus (s t : State) : (dePins s t).cus = t.cus := forAll_keep (·.cus) _ (fun _ _ => whenDo_keep _ _ _ _ (emit_cus _ _)) _ _
@[simp] theorem dePins_peer (s t : State) : (dePins s t).peer = t.peer := forAll_keep (·.peer) _ (fun _ _ => whenDo_keep _ _ _ _ (emit_peer _ _)) _ _
@[simp] theorem dePins_boot (s t : State) : (dePins s t).boot = t.boot := forAll_keep (·.boot) _ (fun _ _ => whenDo_keep _ _ _ _ (emit_boot _ _)) _ _
@[simp] theorem dePins_pw (s t : State) : (dePins s t).pw = t.pw := forAll_keep (·.pw) _ (fun _ _ => whenDo_keep _ _ _ _ (emit_pw _ _)) _ _
@[simp] theorem dePins_tap (s t : State) : (dePins s t).tap = t.tap := forAll_keep (·.tap) _ (fun _ _ => whenDo_keep _ _ _ _ (emit_tap _ _)) _ _

/-- Where no APn_DE changes its level nothing is driven (R262). -/
theorem dePins_same {s t : State} (h : ∀ n < 16, deLevel s n = deLevel t n) : dePins s t = t := by
  unfold dePins forAll
  have hl : ∀ l : List Nat, (∀ n ∈ l, n < 16) → ∀ u : State,
      l.foldl (fun a n => whenDo (deLevel s n != deLevel t n) (emit (.pin (16 + n) (deLevel t n))) a) u = u := by
    intro l
    induction l with
    | nil => intro _ u; rfl
    | cons a r ih =>
      intro hm u
      rw [List.foldl_cons, h a (hm a (by simp)), bne_self_eq_false, whenDo_false]
      exact ih (fun n hn => hm n (by simp [hn])) u
  exact hl _ (fun n hn => List.mem_range.mp hn) t

@[simp] theorem irqWanted_dePins (s t : State) : irqWanted (dePins s t) = irqWanted t :=
  irqWanted_congr (dePins_regs s t) (dePins_inReset s t) (dePins_testEn s t) (dePins_perst s t) (dePins_d3hot s t) (dePins_pw s t)

@[simp] theorem settle_pending (s t : State) : (settle s t).pending = s.pending := (rfl)
@[simp] theorem settle_irq (s t : State) : (settle s t).irq = irqWanted t := irqWanted_dePins s t
@[simp] theorem settle_inReset (s t : State) : (settle s t).inReset = t.inReset := (irqPin_inReset _).trans (dePins_inReset s t)
@[simp] theorem settle_testEn (s t : State) : (settle s t).testEn = t.testEn := (irqPin_testEn _).trans (dePins_testEn s t)
@[simp] theorem settle_perst (s t : State) : (settle s t).perst = t.perst := (irqPin_perst _).trans (dePins_perst s t)
@[simp] theorem settle_bme (s t : State) : (settle s t).bme = t.bme := (irqPin_bme _).trans (dePins_bme s t)
@[simp] theorem settle_d3hot (s t : State) : (settle s t).d3hot = t.d3hot := (irqPin_d3hot _).trans (dePins_d3hot s t)
@[simp] theorem settle_pci (s t : State) : (settle s t).pci = t.pci := (irqPin_pci _).trans (dePins_pci s t)
@[simp] theorem settle_turn (s t : State) : (settle s t).turn = t.turn := (irqPin_turn _).trans (dePins_turn s t)
@[simp] theorem settle_cmdSerial (s t : State) : (settle s t).cmdSerial = t.cmdSerial := (irqPin_cmdSerial _).trans (dePins_cmdSerial s t)
@[simp] theorem settle_rank (s t : State) : (settle s t).rank = t.rank := (irqPin_rank _).trans (dePins_rank s t)
@[simp] theorem settle_regs (s t : State) : (settle s t).regs = t.regs := (irqPin_regs _).trans (dePins_regs s t)
@[simp] theorem settle_live (s t : State) : (settle s t).live = t.live := (irqPin_live _).trans (dePins_live s t)
@[simp] theorem settle_latch (s t : State) : (settle s t).latch = t.latch := (irqPin_latch _).trans (dePins_latch s t)
@[simp] theorem settle_freeCtr (s t : State) : (settle s t).freeCtr = t.freeCtr := (irqPin_freeCtr _).trans (dePins_freeCtr s t)
@[simp] theorem settle_early (s t : State) : (settle s t).early = t.early := (irqPin_early _).trans (dePins_early s t)
@[simp] theorem settle_store (s t : State) : (settle s t).store = t.store := (irqPin_store _).trans (dePins_store s t)
@[simp] theorem settle_bobs (s t : State) : (settle s t).bobs = t.bobs := (irqPin_bobs _).trans (dePins_bobs s t)
@[simp] theorem settle_pins (s t : State) : (settle s t).pins = t.pins := (irqPin_pins _).trans (dePins_pins s t)
@[simp] theorem settle_seqs (s t : State) : (settle s t).seqs = t.seqs := (irqPin_seqs _).trans (dePins_seqs s t)
@[simp] theorem settle_engs (s t : State) : (settle s t).engs = t.engs := (irqPin_engs _).trans (dePins_engs s t)
@[simp] theorem settle_mrgs (s t : State) : (settle s t).mrgs = t.mrgs := (irqPin_mrgs _).trans (dePins_mrgs s t)
@[simp] theorem settle_log (s t : State) : (settle s t).log = t.log := (irqPin_log _).trans (dePins_log s t)
@[simp] theorem settle_ckpts (s t : State) : (settle s t).ckpts = t.ckpts := (irqPin_ckpts _).trans (dePins_ckpts s t)
@[simp] theorem settle_cuts (s t : State) : (settle s t).cuts = t.cuts := (irqPin_cuts _).trans (dePins_cuts s t)
@[simp] theorem settle_fan (s t : State) : (settle s t).fan = t.fan := (irqPin_fan _).trans (dePins_fan s t)
@[simp] theorem settle_seam (s t : State) : (settle s t).seam = t.seam := (irqPin_seam _).trans (dePins_seam s t)
@[simp] theorem settle_tape (s t : State) : (settle s t).tape = t.tape := (irqPin_tape _).trans (dePins_tape s t)
@[simp] theorem settle_cells (s t : State) : (settle s t).cells = t.cells := (irqPin_cells _).trans (dePins_cells s t)
@[simp] theorem settle_cons (s t : State) : (settle s t).cons = t.cons := (irqPin_cons _).trans (dePins_cons s t)
@[simp] theorem settle_egress (s t : State) : (settle s t).egress = t.egress := (irqPin_egress _).trans (dePins_egress s t)
@[simp] theorem settle_laneLq (s t : State) : (settle s t).laneLq = t.laneLq := (irqPin_laneLq _).trans (dePins_laneLq s t)
@[simp] theorem settle_builds (s t : State) : (settle s t).builds = t.builds := (irqPin_builds _).trans (dePins_builds s t)
@[simp] theorem settle_hotAt (s t : State) : (settle s t).hotAt = t.hotAt := (irqPin_hotAt _).trans (dePins_hotAt s t)
@[simp] theorem settle_hot (s t : State) : (settle s t).hot = t.hot := (irqPin_hot _).trans (dePins_hot s t)
@[simp] theorem settle_hist (s t : State) : (settle s t).hist = t.hist := (irqPin_hist _).trans (dePins_hist s t)
@[simp] theorem settle_scan (s t : State) : (settle s t).scan = t.scan := (irqPin_scan _).trans (dePins_scan s t)
@[simp] theorem settle_ports (s t : State) : (settle s t).ports = t.ports := (irqPin_ports _).trans (dePins_ports s t)
@[simp] theorem settle_cans (s t : State) : (settle s t).cans = t.cans := (irqPin_cans _).trans (dePins_cans s t)
@[simp] theorem settle_t1s (s t : State) : (settle s t).t1s = t.t1s := (irqPin_t1s _).trans (dePins_t1s s t)
@[simp] theorem settle_ups (s t : State) : (settle s t).ups = t.ups := (irqPin_ups _).trans (dePins_ups s t)
@[simp] theorem settle_rings (s t : State) : (settle s t).rings = t.rings := (irqPin_rings _).trans (dePins_rings s t)
@[simp] theorem settle_blocked (s t : State) : (settle s t).blocked = t.blocked := (irqPin_blocked _).trans (dePins_blocked s t)
@[simp] theorem settle_genOffered (s t : State) : (settle s t).genOffered = t.genOffered := (irqPin_genOffered _).trans (dePins_genOffered s t)
@[simp] theorem settle_wbWritten (s t : State) : (settle s t).wbWritten = t.wbWritten := (irqPin_wbWritten _).trans (dePins_wbWritten s t)
@[simp] theorem settle_cmds (s t : State) : (settle s t).cmds = t.cmds := (irqPin_cmds _).trans (dePins_cmds s t)
@[simp] theorem settle_cuCtx (s t : State) : (settle s t).cuCtx = t.cuCtx := (irqPin_cuCtx _).trans (dePins_cuCtx s t)
@[simp] theorem settle_cus (s t : State) : (settle s t).cus = t.cus := (irqPin_cus _).trans (dePins_cus s t)
@[simp] theorem settle_peer (s t : State) : (settle s t).peer = t.peer := (irqPin_peer _).trans (dePins_peer s t)
@[simp] theorem settle_boot (s t : State) : (settle s t).boot = t.boot := (irqPin_boot _).trans (dePins_boot s t)
@[simp] theorem settle_pw (s t : State) : (settle s t).pw = t.pw := (irqPin_pw _).trans (dePins_pw s t)
@[simp] theorem settle_tap (s t : State) : (settle s t).tap = t.tap := (irqPin_tap _).trans (dePins_tap s t)
@[simp] theorem settle_out (s t : State) : (settle s t).out = (dePins s t).out := irqPin_out _
@[simp] theorem settle_at_reg (s t : State) (o : Nat) : (settle s t).reg o = t.reg o := by
  unfold State.reg; rw [settle_regs]
@[simp] theorem settle_at_liveReg (s t : State) (o : Nat) : (settle s t).liveReg o = t.liveReg o := by
  unfold State.liveReg; rw [settle_live]
@[simp] theorem settle_at_rb (s t : State) (o i : Nat) : (settle s t).rb o i = t.rb o i := by
  unfold State.rb State.reg; rw [settle_regs]
@[simp] theorem settle_at_rf (s t : State) (o lo n : Nat) : (settle s t).rf o lo n = t.rf o lo n := by
  unfold State.rf State.reg; rw [settle_regs]
@[simp] theorem settle_at_bob (s t : State) (b : Nat) : (settle s t).bob b = t.bob b := by
  unfold State.bob; rw [settle_bobs]
@[simp] theorem settle_at_pin (s t : State) (a : Nat) : (settle s t).pin a = t.pin a := by
  unfold State.pin; rw [settle_pins]
@[simp] theorem settle_at_eng (s t : State) (e : Nat) : (settle s t).eng e = t.eng e := by
  unfold State.eng; rw [settle_engs]
@[simp] theorem settle_at_mrg (s t : State) (m : Nat) : (settle s t).mrg m = t.mrg m := by
  unfold State.mrg; rw [settle_mrgs]
@[simp] theorem settle_at_eg (s t : State) (p : Nat) : (settle s t).eg p = t.eg p := by
  unfold State.eg; rw [settle_egress]
@[simp] theorem settle_at_port (s t : State) (p : Nat) : (settle s t).port p = t.port p := by
  unfold State.port; rw [settle_ports]
@[simp] theorem settle_at_can (s t : State) (n : Nat) : (settle s t).can n = t.can n := by
  unfold State.can; rw [settle_cans]
@[simp] theorem settle_at_ts (s t : State) (n : Nat) : (settle s t).ts n = t.ts n := by
  unfold State.ts; rw [settle_t1s]
@[simp] theorem settle_at_upOf (s t : State) (u : Nat) : (settle s t).up u = t.up u := by
  unfold State.up; rw [settle_ups]
@[simp] theorem settle_at_ring (s t : State) (r : Nat) : (settle s t).ring r = t.ring r := by
  unfold State.ring; rw [settle_rings]
@[simp] theorem settle_at_cell (s t : State) (c : Nat) : (settle s t).cell c = t.cell c := by
  unfold State.cell; rw [settle_cells]
@[simp] theorem settle_at_seqOf (s t : State) (k : Nat) : (settle s t).seqOf k = t.seqOf k := by
  unfold State.seqOf; rw [settle_seqs]
@[simp] theorem settle_at_word (s t : State) (a : Nat) : (settle s t).word a = t.word a := by
  unfold State.word; rw [settle_store]
@[simp] theorem settle_at_latchOf (s t : State) (a o : Nat) : (settle s t).latchOf a o = t.latchOf a o := by
  unfold State.latchOf; rw [settle_latch]
@[simp] theorem settle_at_cu (s t : State) (n : Nat) : (settle s t).cu n = t.cu n := by
  unfold State.cu; rw [settle_cus]
@[simp] theorem settle_at_chan (s t : State) (n : Nat) : (settle s t).chan n = t.chan n := by
  unfold State.chan; rw [settle_tape]
@[simp] theorem settle_at_strobe (s t : State) (n : Nat) : (settle s t).strobe n = t.strobe n := by
  unfold State.strobe; rw [settle_tape]
theorem settle_counter (s t : State) {j : Nat} (h : j ≠ ctHi 339) : (settle s t).counter j = t.counter j := by
  show mapGet _ (irqPin (dePins s t)).ctr j = _
  have e := irqPin_counter (dePins s t) h
  unfold State.counter at e ⊢
  rw [e, dePins_ctr]

/-- After every command IRQ_N stands as the interrupt tree wants it (R384). -/
theorem done_settled {s t u : State} (h : done s t = .next u) : u.irq = irqWanted u ∧ u.pending = s.pending := by
  rw [done_eq] at h
  cases h
  refine ⟨?_, rfl⟩
  rw [settle_irq]
  exact (irqWanted_congr (settle_regs s t) (settle_inReset s t) (settle_testEn s t) (settle_perst s t) (settle_d3hot s t) (settle_pw s t)).symm


end Sys2Proof.Machine
end

