-- ==== Sys2Proof/Laws/Access.lean ====
section
/-!
SUPPORT. What a register write of each agent comes to once every check has let it through.
-/
set_option Elab.async false
namespace Sys2Proof.Machine

theorem loW_mkD (hi lo : Word) : loW (mkD hi lo) = lo := by
  unfold loW mkD
  apply BitVec.eq_of_toNat_eq
  simp only [BitVec.toNat_setWidth, BitVec.toNat_ofNat]
  have := lo.isLt
  omega

/-- The host's write of a register, every check passed, is the register's effect. -/
theorem hostWrite_served {s : State} {o : Nat} {v : Word} (h : hostMayWrite s o = true) :
    hostWrite o (mkD 0#32 v) 4 true false s = writeReg o v s := by
  simp only [hostMayWrite, Bool.and_eq_true, Bool.not_eq_true', Bool.or_eq_true, decide_eq_true_eq, decide_eq_false_iff_not] at h
  obtain ⟨⟨⟨⟨⟨⟨⟨⟨h1, h2⟩, h3⟩, h4⟩, h5⟩, h6⟩, h7⟩, h8⟩, h9⟩ := h
  have a1 : ¬ (0x18000 ≤ o) := by omega
  have a2 : ¬ (0x10000 ≤ o) := by omega
  have b1 : ¬ (s.boot.done = false ∧ o / 0x1000 ≠ 0 ∧ o / 0x1000 ≠ 0xF) := by
    rintro ⟨c1, c2, c3⟩
    rcases h5 with h5 | h5
    · rw [h5] at c1; cases c1
    · exact h5.elim c2 c3
  have b2 : ¬ (locked s = true ∧ o / 0x1000 ≠ 0 ∧ o / 0x1000 ≠ 0xF ∧ s.rb 0xF044 (o / 0x1000) = false) := by
    rintro ⟨c1, c2, c3, c4⟩
    rcases h6 with (h6 | h6) | h6
    · rw [h6] at c1; cases c1
    · exact h6.elim c2 c3
    · rw [h6] at c4; cases c4
  have b3 : ¬ ((regInfo o).isNone = true) := by
    intro c; rw [Option.isNone_iff_eq_none] at c; rw [c] at h7; cases h7
  unfold hostWrite
  rw [if_neg (by rw [h1]; decide), if_neg (by rw [h2]; decide), if_neg (by decide), if_neg a1, if_neg a2, if_pos ⟨rfl, rfl, h3.2⟩,
    loW_mkD]
  unfold hostRegWrite
  rw [if_neg b1, if_neg b2, if_neg h4, if_neg b3, if_neg (by rw [h8]; decide), if_neg (by rw [h9]; decide)]

theorem inboundError_count (o : Nat) (full : Bool) (i n : Nat) (s : State) :
    inboundError o full (count i n s) = inboundError o full s := by
  unfold inboundError wordFits locked cuOwner
  simp only [count_at_rb, count_at_rf, count_peer, count_boot]

/-- A served write of the partner's is counted, takes effect and is answered. -/
theorem inbound_served {s : State} {o : Nat} {v : Word} (h : agentMayWrite 1 s o v = true) :
    agentWrite 1 o v s = inboundAnswer o s.peer.inTag 0 s.peer.inLock.isNone (writeReg o v (count (ctPb 30) 1 s)) := by
  simp only [agentMayWrite, Bool.and_eq_true, decide_eq_true_eq] at h
  obtain ⟨⟨⟨⟨⟨h1, h2⟩, h3⟩, h4⟩, h5⟩, h6⟩ := h
  have a : s.peer.inLock.any (fun w => decide (w ≠ s.peer.inLock.getD 0)) = false := by
    cases s.peer.inLock <;> simp
  have b3 : ¬ ((regInfo o).isNone = true) := by
    intro c; rw [Option.isNone_iff_eq_none] at c; rw [c] at h4; cases h4
  have c1 : o ≠ 0xC400 := by rintro rfl; exact h5 rfl
  have c2 : o ≠ 0xC404 := by rintro rfl; exact h5 rfl
  simp only [agentWrite]
  rw [if_neg (by omega)]
  unfold inbound
  rw [if_neg (by rw [h1, h2, a]; simp), if_pos rfl]
  unfold inboundWrite
  rw [inboundError_count, h6]
  simp only [if_true]
  unfold inboundEffect
  rw [if_neg c1, if_neg c2, if_neg b3]

/-- A WRITE record at the head of the script, let through, takes effect and is done. -/
theorem scriptWrite_served {s : State} {o : Nat} {v : Word} (h : agentMayWrite 2 s o v = true) :
    agentWrite 2 o v s = scriptPop (writeReg o v s) := by
  simp only [agentMayWrite, Bool.and_eq_true, decide_eq_true_eq, Bool.not_eq_true', Bool.and_eq_false_imp] at h
  obtain ⟨⟨⟨⟨⟨h1, h2⟩, h3⟩, h4⟩, h5⟩, h6⟩ := h
  have b3 : ¬ ((regInfo o).isNone = true) := by
    intro c; rw [Option.isNone_iff_eq_none] at c; rw [c] at h4; cases h4
  simp only [agentWrite]
  unfold scriptWrite
  rw [if_neg (by rw [h2]; decide), if_neg (by
    rintro ⟨c1, c2, c3⟩
    have := h6 ⟨c1, c2⟩
    rw [c3] at this; cases this)]
  unfold scriptWriteEffect
  rw [if_neg (by rintro ⟨c1, c2⟩; have := h5 c1; rw [c2] at this; cases this),
    if_neg (by rintro (c | c); exact absurd c (by omega); exact b3 c)]

/-- An agent's write that every check lets through takes the register's effect and is answered as the agent's are. -/
theorem agentWrite_served {s : State} {a : Fin 3} {o : Nat} {v : Word} (h : agentMayWrite a s o v = true) :
    agentWrite a o v s = agentDone a o s (writeReg o v (agentPre a s)) := by
  match a, h with
  | 0, h => exact hostWrite_served h
  | 1, h => exact inbound_served h
  | 2, h => exact scriptWrite_served h

theorem agentMayWrite_awake {s : State} {a : Fin 3} {o : Nat} {v : Word} (h : agentMayWrite a s o v = true) : s.awake = true := by
  match a, h with
  | 0, h =>
    have h : hostMayWrite s o = true := h
    simp only [hostMayWrite, Bool.and_eq_true] at h
    exact h.1.1.1.1.1.1.1.2
  | 1, h =>
    have h : (peerUp s && s.awake && decide (o < 0x10000) && (regInfo o).isSome && decide (o / 0x1000 ≠ 0xC) &&
      decide (inboundError o true s = 0)) = true := h
    simp only [Bool.and_eq_true] at h
    exact h.1.1.1.1.2
  | 2, h =>
    have h : (s.awake && scriptAt s (fun r => decide (r = .write o v)) && decide (o < 0x10000) && (regInfo o).isSome &&
      !(isRwb o && locked s) && !(decide (o = 0xF000) && bit v 0 && !locked s)) = true := h
    simp only [Bool.and_eq_true] at h
    exact h.1.1.1.1.1

/-! ## The state in which a let-through write acts: every field of s but the counters -/

@[simp] theorem agentPre_pending (a : Nat) (s : State) : (agentPre a s).pending = s.pending := by unfold agentPre; split <;> rfl
@[simp] theorem agentPre_inReset (a : Nat) (s : State) : (agentPre a s).inReset = s.inReset := by unfold agentPre; split <;> rfl
@[simp] theorem agentPre_testEn (a : Nat) (s : State) : (agentPre a s).testEn = s.testEn := by unfold agentPre; split <;> rfl
@[simp] theorem agentPre_perst (a : Nat) (s : State) : (agentPre a s).perst = s.perst := by unfold agentPre; split <;> rfl
@[simp] theorem agentPre_bme (a : Nat) (s : State) : (agentPre a s).bme = s.bme := by unfold agentPre; split <;> rfl
@[simp] theorem agentPre_d3hot (a : Nat) (s : State) : (agentPre a s).d3hot = s.d3hot := by unfold agentPre; split <;> rfl
@[simp] theorem agentPre_rank (a : Nat) (s : State) : (agentPre a s).rank = s.rank := by unfold agentPre; split <;> rfl
@[simp] theorem agentPre_irq (a : Nat) (s : State) : (agentPre a s).irq = s.irq := by unfold agentPre; split <;> rfl
@[simp] theorem agentPre_regs (a : Nat) (s : State) : (agentPre a s).regs = s.regs := by unfold agentPre; split <;> rfl
@[simp] theorem agentPre_live (a : Nat) (s : State) : (agentPre a s).live = s.live := by unfold agentPre; split <;> rfl
@[simp] theorem agentPre_latch (a : Nat) (s : State) : (agentPre a s).latch = s.latch := by unfold agentPre; split <;> rfl
@[simp] theorem agentPre_out (a : Nat) (s : State) : (agentPre a s).out = s.out := by unfold agentPre; split <;> rfl
@[simp] theorem agentPre_freeCtr (a : Nat) (s : State) : (agentPre a s).freeCtr = s.freeCtr := by unfold agentPre; split <;> rfl
@[simp] theorem agentPre_early (a : Nat) (s : State) : (agentPre a s).early = s.early := by unfold agentPre; split <;> rfl
@[simp] theorem agentPre_store (a : Nat) (s : State) : (agentPre a s).store = s.store := by unfold agentPre; split <;> rfl
@[simp] theorem agentPre_bobs (a : Nat) (s : State) : (agentPre a s).bobs = s.bobs := by unfold agentPre; split <;> rfl
@[simp] theorem agentPre_pins (a : Nat) (s : State) : (agentPre a s).pins = s.pins := by unfold agentPre; split <;> rfl
@[simp] theorem agentPre_seqs (a : Nat) (s : State) : (agentPre a s).seqs = s.seqs := by unfold agentPre; split <;> rfl
@[simp] theorem agentPre_engs (a : Nat) (s : State) : (agentPre a s).engs = s.engs := by unfold agentPre; split <;> rfl
@[simp] theorem agentPre_mrgs (a : Nat) (s : State) : (agentPre a s).mrgs = s.mrgs := by unfold agentPre; split <;> rfl
@[simp] theorem agentPre_log (a : Nat) (s : State) : (agentPre a s).log = s.log := by unfold agentPre; split <;> rfl
@[simp] theorem agentPre_ckpts (a : Nat) (s : State) : (agentPre a s).ckpts = s.ckpts := by unfold agentPre; split <;> rfl
@[simp] theorem agentPre_cuts (a : Nat) (s : State) : (agentPre a s).cuts = s.cuts := by unfold agentPre; split <;> rfl
@[simp] theorem agentPre_fan (a : Nat) (s : State) : (agentPre a s).fan = s.fan := by unfold agentPre; split <;> rfl
@[simp] theorem agentPre_seam (a : Nat) (s : State) : (agentPre a s).seam = s.seam := by unfold agentPre; split <;> rfl
@[simp] theorem agentPre_tape (a : Nat) (s : State) : (agentPre a s).tape = s.tape := by unfold agentPre; split <;> rfl
@[simp] theorem agentPre_cells (a : Nat) (s : State) : (agentPre a s).cells = s.cells := by unfold agentPre; split <;> rfl
@[simp] theorem agentPre_cons (a : Nat) (s : State) : (agentPre a s).cons = s.cons := by unfold agentPre; split <;> rfl
@[simp] theorem agentPre_egress (a : Nat) (s : State) : (agentPre a s).egress = s.egress := by unfold agentPre; split <;> rfl
@[simp] theorem agentPre_laneLq (a : Nat) (s : State) : (agentPre a s).laneLq = s.laneLq := by unfold agentPre; split <;> rfl
@[simp] theorem agentPre_builds (a : Nat) (s : State) : (agentPre a s).builds = s.builds := by unfold agentPre; split <;> rfl
@[simp] theorem agentPre_ports (a : Nat) (s : State) : (agentPre a s).ports = s.ports := by unfold agentPre; split <;> rfl
@[simp] theorem agentPre_cans (a : Nat) (s : State) : (agentPre a s).cans = s.cans := by unfold agentPre; split <;> rfl
@[simp] theorem agentPre_t1s (a : Nat) (s : State) : (agentPre a s).t1s = s.t1s := by unfold agentPre; split <;> rfl
@[simp] theorem agentPre_ups (a : Nat) (s : State) : (agentPre a s).ups = s.ups := by unfold agentPre; split <;> rfl
@[simp] theorem agentPre_rings (a : Nat) (s : State) : (agentPre a s).rings = s.rings := by unfold agentPre; split <;> rfl
@[simp] theorem agentPre_blocked (a : Nat) (s : State) : (agentPre a s).blocked = s.blocked := by unfold agentPre; split <;> rfl
@[simp] theorem agentPre_genOffered (a : Nat) (s : State) : (agentPre a s).genOffered = s.genOffered := by unfold agentPre; split <;> rfl
@[simp] theorem agentPre_wbWritten (a : Nat) (s : State) : (agentPre a s).wbWritten = s.wbWritten := by unfold agentPre; split <;> rfl
@[simp] theorem agentPre_cmds (a : Nat) (s : State) : (agentPre a s).cmds = s.cmds := by unfold agentPre; split <;> rfl
@[simp] theorem agentPre_cuCtx (a : Nat) (s : State) : (agentPre a s).cuCtx = s.cuCtx := by unfold agentPre; split <;> rfl
@[simp] theorem agentPre_cus (a : Nat) (s : State) : (agentPre a s).cus = s.cus := by unfold agentPre; split <;> rfl
@[simp] theorem agentPre_peer (a : Nat) (s : State) : (agentPre a s).peer = s.peer := by unfold agentPre; split <;> rfl
@[simp] theorem agentPre_boot (a : Nat) (s : State) : (agentPre a s).boot = s.boot := by unfold agentPre; split <;> rfl
@[simp] theorem agentPre_pw (a : Nat) (s : State) : (agentPre a s).pw = s.pw := by unfold agentPre; split <;> rfl
@[simp] theorem agentPre_tap (a : Nat) (s : State) : (agentPre a s).tap = s.tap := by unfold agentPre; split <;> rfl
@[simp] theorem agentPre_at_reg (a : Nat) (s : State) (o : Nat) : (agentPre a s).reg o = s.reg o := by unfold agentPre; split <;> rfl
@[simp] theorem agentPre_at_liveReg (a : Nat) (s : State) (o : Nat) : (agentPre a s).liveReg o = s.liveReg o := by unfold agentPre; split <;> rfl
@[simp] theorem agentPre_at_rb (a : Nat) (s : State) (o i : Nat) : (agentPre a s).rb o i = s.rb o i := by unfold agentPre; split <;> rfl
@[simp] theorem agentPre_at_rf (a : Nat) (s : State) (o lo n : Nat) : (agentPre a s).rf o lo n = s.rf o lo n := by unfold agentPre; split <;> rfl
@[simp] theorem agentPre_at_bob (a : Nat) (s : State) (b : Nat) : (agentPre a s).bob b = s.bob b := by unfold agentPre; split <;> rfl
@[simp] theorem agentPre_at_pin (a : Nat) (s : State) (x : Nat) : (agentPre a s).pin x = s.pin x := by unfold agentPre; split <;> rfl
@[simp] theorem agentPre_at_mrg (a : Nat) (s : State) (m : Nat) : (agentPre a s).mrg m = s.mrg m := by unfold agentPre; split <;> rfl
@[simp] theorem agentPre_at_eg (a : Nat) (s : State) (p : Nat) : (agentPre a s).eg p = s.eg p := by unfold agentPre; split <;> rfl
@[simp] theorem agentPre_at_port (a : Nat) (s : State) (p : Nat) : (agentPre a s).port p = s.port p := by unfold agentPre; split <;> rfl
@[simp] theorem agentPre_at_ring (a : Nat) (s : State) (r : Nat) : (agentPre a s).ring r = s.ring r := by unfold agentPre; split <;> rfl
@[simp] theorem agentPre_at_upQ (a : Nat) (s : State)  : (agentPre a s).up?  = s.up?  := by unfold agentPre; split <;> rfl
@[simp] theorem agentPre_at_awake (a : Nat) (s : State)  : (agentPre a s).awake  = s.awake  := by unfold agentPre; split <;> rfl

end Sys2Proof.Machine
end

