-- ==== Sys2Proof/Laws/PerInstr.lean ====
section
/-!
SUPPORT. One statement per command about the command as syntax: the register that it addresses, if it is an access of an agent to
one, is a register of R473, for every value of its operands.
-/
set_option Elab.async false
namespace Sys2Proof.Laws
open Sys2Proof.Machine

/-- The BAR0 offset of the one register that a command accesses, for the commands that stand for the access of a register or of one of
a block of registers (R473). -/
def commandReg : Instr → Option Nat
  | .selvageLock _ => some (0xF000)
  | .go _ => some (0xF014)
  | .bootDataWrite _ => some (0xC400)
  | .bootDoneWrite => some (0xC404)
  | .tpDtLoRead _ _ => some (0x3008)
  | .ringEnableWrite _ ring _ => some (ringOff ring + 8)
  | .genOfferWrite _ _ => some (0x10)
  | .wbBaseWrite _ _ => some (0x1934)
  | .rateWrite _ port char _ _ => some (apOff port (if char then 4 else 8))
  | .rateNow _ port _ _ => some (apOff port 8)
  | .hostWake _ => some (0x2010)
  | .recover _ cn => some (cnOff cn 0)
  | .speedChange _ eu _ => some (euOff eu 0)
  | .txtsPop _ eu => some (euOff eu 0x24)
  | .tpStep _ _ => some (0x301C)
  | .tpFreqWrite _ _ => some (0x3010)
  | .dtValidSet _ => some (0x3000)
  | .discSourceWrite _ _ => some (0x3020)
  | .tpOffsSample _ _ => some (0x3024)
  | .phaseChannelCfgWrite _ ch cpr _ => some (prOff ch (if cpr then 0x0C else 0))
  | .extSampleWrite _ ch _ => some (prOff ch 0x1C)
  | .strobeWrite _ po reg _ => some (poOff po (4 * reg.val))
  | .flush _ bob => some (0x900C + 0x10 * bob.val)
  | .ckStart _ cu => some (cuOff cu 0x40)
  | .ckFinish _ cu => some (cuOff cu 0x40)
  | .ckClear _ cu => some (cuOff cu 0x40)
  | .selftest _ cu => some (cuOff cu 0x40)
  | .ckDataWrite _ cu which _ => some (cuOff cu (0x34 + 4 * which.val))
  | .ckCfgWrite _ cu _ => some (cuOff cu 4)
  | .ckOpenParamWrite _ cu which _ => some (cuOff cu (8 + 4 * which.val))
  | .ckRunRestore _ cu _ => some (cuOff cu 0x24)
  | .peerLinkEnable _ => some (0xC000)
  | .retrain _ => some (0xC000)
  | .faultLogPop _ inbound => some (if inbound then 0xC094 else 0xC084)
  | .acquire _ win => some (0xC044 + 8 * win.val)
  | .release _ win => some (0xC044 + 8 * win.val)
  | .apCtrlEnWrite _ port _ => some (apOff port 0)
  | _ => none

/-- The offset is aligned, lies in the register pages, and is listed in R473. -/
def Registers.Statement (i : Instr) : Prop :=
  ∀ o, commandReg i = some o → o % 4 = 0 ∧ o < 0x10000 ∧ (regInfo o).isSome = true

theorem Registers.coldBoot (boot : BitVec 2) (rank : Bool) (vio33 : BitVec 4) (bist : BitVec 4) (seams : BitVec 3) (mram : BitVec 24) : Registers.Statement (.coldBoot boot rank vio33 bist seams mram) := by
  intro o h; cases h
theorem Registers.imageReadComplete (ok : Bool) (image : List Byte) : Registers.Statement (.imageReadComplete ok image) := by
  intro o h; cases h
theorem Registers.endScript : Registers.Statement .endScript := by
  intro o h; cases h
theorem Registers.write (off : BitVec 17) (val : Word) : Registers.Statement (.write off val) := by
  intro o h; cases h
theorem Registers.load (table : BitVec 4) (dom : Fin 8) (words : List Word) : Registers.Statement (.load table dom words) := by
  intro o h; cases h
theorem Registers.poll (off : BitVec 17) (mask : Word) (val : Word) (us : Nat) : Registers.Statement (.poll off mask val us) := by
  intro o h; cases h
theorem Registers.pollTimeout : Registers.Statement .pollTimeout := by
  intro o h; cases h
theorem Registers.wait (us : Nat) : Registers.Statement (.wait us) := by
  intro o h; cases h
theorem Registers.lock : Registers.Statement .lock := by
  intro o h; cases h
theorem Registers.scriptStitch : Registers.Statement .scriptStitch := by
  intro o h; cases h
theorem Registers.scriptTimeout : Registers.Statement .scriptTimeout := by
  intro o h; cases h
theorem Registers.selvageLock (agent : Fin 3) : Registers.Statement (.selvageLock agent) := by
  intro o h; cases h; decide +kernel
theorem Registers.go (agent : Fin 3) : Registers.Statement (.go agent) := by
  intro o h; cases h; decide +kernel
theorem Registers.bootDataWrite (w : Word) : Registers.Statement (.bootDataWrite w) := by
  intro o h; cases h; decide +kernel
theorem Registers.bootDoneWrite : Registers.Statement .bootDoneWrite := by
  intro o h; cases h; decide +kernel
theorem Registers.registerWrite (agent : Fin 3) (off : BitVec 17) (data : DWord) (size : Nat) (full : Bool) (poisoned : Bool) : Registers.Statement (.registerWrite agent off data size full poisoned) := by
  intro o h; cases h
theorem Registers.loReadLatch (agent : Fin 3) (off : BitVec 17) (wide : Bool) : Registers.Statement (.loReadLatch agent off wide) := by
  intro o h; cases h
theorem Registers.tpDtLoRead (agent : Fin 3) (wide : Bool) : Registers.Statement (.tpDtLoRead agent wide) := by
  intro o h; cases h; decide +kernel
theorem Registers.hostInterfaceReset (kind : Fin 3) : Registers.Statement (.hostInterfaceReset kind) := by
  intro o h; cases h
theorem Registers.perst (level : Bool) : Registers.Statement (.perst level) := by
  intro o h; cases h
theorem Registers.d3hotEntry : Registers.Statement .d3hotEntry := by
  intro o h; cases h
theorem Registers.brownout : Registers.Statement .brownout := by
  intro o h; cases h
theorem Registers.vaonLoss : Registers.Statement .vaonLoss := by
  intro o h; cases h
theorem Registers.testEnAssert (level : Bool) : Registers.Statement (.testEnAssert level) := by
  intro o h; cases h
theorem Registers.doorbellWrite (page : Fin 8) (slot : BitVec 12) (lo : Word) (hi : Word) : Registers.Statement (.doorbellWrite page slot lo hi) := by
  intro o h; cases h
theorem Registers.ringEnableWrite (agent : Fin 3) (ring : Fin 66) (val : Word) : Registers.Statement (.ringEnableWrite agent ring val) := by
  intro o h; cases h; revert ring; decide +kernel
theorem Registers.genOfferWrite (agent : Fin 3) (val : Word) : Registers.Statement (.genOfferWrite agent val) := by
  intro o h; cases h; decide +kernel
theorem Registers.wbBaseWrite (agent : Fin 3) (val : Word) : Registers.Statement (.wbBaseWrite agent val) := by
  intro o h; cases h; decide +kernel
theorem Registers.htFetchComplete (ring : Fin 32) (desc : List Word) (payload : List Byte) (ok : Bool) : Registers.Statement (.htFetchComplete ring desc payload ok) := by
  intro o h; cases h
theorem Registers.hrDescriptorFetch (ring : Fin 32) (desc : List Word) : Registers.Statement (.hrDescriptorFetch ring desc) := by
  intro o h; cases h
theorem Registers.readCompletionError (who : Fin 68) : Registers.Statement (.readCompletionError who) := by
  intro o h; cases h
theorem Registers.cplTimeout (who : Fin 68) : Registers.Statement (.cplTimeout who) := by
  intro o h; cases h
theorem Registers.imodTimer (ring : Fin 66) : Registers.Statement (.imodTimer ring) := by
  intro o h; cases h
theorem Registers.cmdFetch (desc : List Word) : Registers.Statement (.cmdFetch desc) := by
  intro o h; cases h
theorem Registers.nop : Registers.Statement .nop := by
  intro o h; cases h
theorem Registers.loadTable (buf : List Word) (ok : Bool) : Registers.Statement (.loadTable buf ok) := by
  intro o h; cases h
theorem Registers.stitch : Registers.Statement .stitch := by
  intro o h; cases h
theorem Registers.fitting : Registers.Statement .fitting := by
  intro o h; cases h
theorem Registers.seamTest : Registers.Statement .seamTest := by
  intro o h; cases h
theorem Registers.power : Registers.Statement .power := by
  intro o h; cases h
theorem Registers.calApply (buf : List Byte) (ok : Bool) (mram : BitVec 8) : Registers.Statement (.calApply buf ok mram) := by
  intro o h; cases h
theorem Registers.peerFence : Registers.Statement .peerFence := by
  intro o h; cases h
theorem Registers.ringReset : Registers.Statement .ringReset := by
  intro o h; cases h
theorem Registers.portService : Registers.Statement .portService := by
  intro o h; cases h
theorem Registers.commandCompletion (idx : Word) : Registers.Statement (.commandCompletion idx) := by
  intro o h; cases h
theorem Registers.characterReceived (port : Fin 48) (falseStart : Bool) (data : BitVec 9) (par : Bool) (stop : Bool) (noisy : Bool) (early : Bool) (time : CharTime) : Registers.Statement (.characterReceived port falseStart data par stop noisy early time) := by
  intro o h; cases h
theorem Registers.linBreak (port : Fin 48) (bits : Nat) (age : Nat) : Registers.Statement (.linBreak port bits age) := by
  intro o h; cases h
theorem Registers.frameCharacter (port : Fin 48) : Registers.Statement (.frameCharacter port) := by
  intro o h; cases h
theorem Registers.idleGapEnd (port : Fin 48) : Registers.Statement (.idleGapEnd port) := by
  intro o h; cases h
theorem Registers.silenceTimeout (port : Fin 48) : Registers.Statement (.silenceTimeout port) := by
  intro o h; cases h
theorem Registers.rateWrite (agent : Fin 3) (port : Fin 48) (char : Bool) (val : Word) (rx : Bool) : Registers.Statement (.rateWrite agent port char val rx) := by
  intro o h; cases h; revert port char; decide +kernel
theorem Registers.rateApply (port : Fin 48) (tx : Bool) : Registers.Statement (.rateApply port tx) := by
  intro o h; cases h
theorem Registers.rateNow (agent : Fin 3) (port : Fin 48) (val : Word) (rx : Bool) : Registers.Statement (.rateNow agent port val rx) := by
  intro o h; cases h; revert port; decide +kernel
theorem Registers.transmitCharacter (port : Fin 48) (mismatch : Option (Fin 12)) : Registers.Statement (.transmitCharacter port mismatch) := by
  intro o h; cases h
theorem Registers.backoffRetry (port : Fin 48) : Registers.Statement (.backoffRetry port) := by
  intro o h; cases h
theorem Registers.linHeader (port : Fin 48) : Registers.Statement (.linHeader port) := by
  intro o h; cases h
theorem Registers.linScheduleSlot (slot : LinSlot) : Registers.Statement (.linScheduleSlot slot) := by
  intro o h; cases h
theorem Registers.linFrameSlotExpiry (port : Fin 48) : Registers.Statement (.linFrameSlotExpiry port) := by
  intro o h; cases h
theorem Registers.portWakeEdge (port : Fin 48) : Registers.Statement (.portWakeEdge port) := by
  intro o h; cases h
theorem Registers.wakeInEdge (rising : Bool) : Registers.Statement (.wakeInEdge rising) := by
  intro o h; cases h
theorem Registers.hostWake (agent : Fin 3) : Registers.Statement (.hostWake agent) := by
  intro o h; cases h; decide +kernel
theorem Registers.timerWake : Registers.Statement .timerWake := by
  intro o h; cases h
theorem Registers.canFrameReceived (cn : Fin 16) (kind : Fin 4) (ide : Bool) (id : BitVec 29) (dlc : BitVec 4) (sec : Bool) (vcid : Byte) (sdt : Byte) (af : Word) (data : List Byte) (own : Bool) (age : Nat) : Registers.Statement (.canFrameReceived cn kind ide id dlc sec vcid sdt af data own age) := by
  intro o h; cases h
theorem Registers.canFrameSent (cn : Fin 16) : Registers.Statement (.canFrameSent cn) := by
  intro o h; cases h
theorem Registers.arbitrationLost (cn : Fin 16) : Registers.Statement (.arbitrationLost cn) := by
  intro o h; cases h
theorem Registers.canError (cn : Fin 16) (kind : Fin 6) (tx : Bool) (flag : Bool) (except : Bool) : Registers.Statement (.canError cn kind tx flag except) := by
  intro o h; cases h
theorem Registers.recover (agent : Fin 3) (cn : Fin 16) : Registers.Statement (.recover agent cn) := by
  intro o h; cases h; revert cn; decide +kernel
theorem Registers.busRecovered (cn : Fin 16) : Registers.Statement (.busRecovered cn) := by
  intro o h; cases h
theorem Registers.t1sFrameReceived (ts : Fin 4) (bytes : List Byte) (fin : FrameEnd) (own : Bool) (age : Nat) : Registers.Statement (.t1sFrameReceived ts bytes fin own age) := by
  intro o h; cases h
theorem Registers.t1sFrameSent (sent : T1sEnd) : Registers.Statement (.t1sFrameSent sent) := by
  intro o h; cases h
theorem Registers.t1sCollision (ts : Fin 4) : Registers.Statement (.t1sCollision ts) := by
  intro o h; cases h
theorem Registers.plcaLost (ts : Fin 4) : Registers.Statement (.plcaLost ts) := by
  intro o h; cases h
theorem Registers.plcaBack (ts : Fin 4) : Registers.Statement (.plcaBack ts) := by
  intro o h; cases h
theorem Registers.uplinkFrameReceived (eu : Fin 2) (bytes : List Byte) (fin : FrameEnd) (age : Nat) : Registers.Statement (.uplinkFrameReceived eu bytes fin age) := by
  intro o h; cases h
theorem Registers.linkUp (eu : Fin 2) (found : LinkFound) : Registers.Statement (.linkUp eu found) := by
  intro o h; cases h
theorem Registers.linkDown (loss : LinkLoss) : Registers.Statement (.linkDown loss) := by
  intro o h; cases h
theorem Registers.speedChange (agent : Fin 3) (eu : Fin 2) (val : Word) : Registers.Statement (.speedChange agent eu val) := by
  intro o h; cases h; revert eu; decide +kernel
theorem Registers.frameCloseTimer (stream : Fin 16) : Registers.Statement (.frameCloseTimer stream) := by
  intro o h; cases h
theorem Registers.uplinkFrameSent (eu : Fin 2) (age : Nat) : Registers.Statement (.uplinkFrameSent eu age) := by
  intro o h; cases h
theorem Registers.txtsPop (agent : Fin 3) (eu : Fin 2) : Registers.Statement (.txtsPop agent eu) := by
  intro o h; cases h; revert eu; decide +kernel
theorem Registers.headerIssue (eng : Fin 3) : Registers.Statement (.headerIssue eng) := by
  intro o h; cases h
theorem Registers.decisionEntry (eng : Fin 3) (parityOk : Bool) : Registers.Statement (.decisionEntry eng parityOk) := by
  intro o h; cases h
theorem Registers.parkedResume (eng : Fin 3) (parityOk : Bool) : Registers.Statement (.parkedResume eng parityOk) := by
  intro o h; cases h
theorem Registers.seamRelease (eng : Fin 3) : Registers.Statement (.seamRelease eng) := by
  intro o h; cases h
theorem Registers.entryLateTimer : Registers.Statement .entryLateTimer := by
  intro o h; cases h
theorem Registers.seamDisagree : Registers.Statement .seamDisagree := by
  intro o h; cases h
theorem Registers.seamRoundEnd (aPass : Bool) (bPass : Bool) (agree : Bool) : Registers.Statement (.seamRoundEnd aPass bPass agree) := by
  intro o h; cases h
theorem Registers.selfFault (eng : Fin 3) : Registers.Statement (.selfFault eng) := by
  intro o h; cases h
theorem Registers.resyncCopyComplete : Registers.Statement .resyncCopyComplete := by
  intro o h; cases h
theorem Registers.resyncJoin : Registers.Statement .resyncJoin := by
  intro o h; cases h
theorem Registers.checkpointCut : Registers.Statement .checkpointCut := by
  intro o h; cases h
theorem Registers.checkpointCommit (ok : Bool) (blocks : List (Nat × BitVec 3)) : Registers.Statement (.checkpointCommit ok blocks) := by
  intro o h; cases h
theorem Registers.restartComplete (slotOk : Bool) (blocks : List (Nat × BitVec 3)) (replayOk : Bool) : Registers.Statement (.restartComplete slotOk blocks replayOk) := by
  intro o h; cases h
theorem Registers.splitEngineTimeout (eng : Fin 3) : Registers.Statement (.splitEngineTimeout eng) := by
  intro o h; cases h
theorem Registers.scrub (blocks : List (Nat × BitVec 3)) : Registers.Statement (.scrub blocks) := by
  intro o h; cases h
theorem Registers.seamTestEnd (pass : Bool) : Registers.Statement (.seamTestEnd pass) := by
  intro o h; cases h
theorem Registers.derivedRecordBuild : Registers.Statement .derivedRecordBuild := by
  intro o h; cases h
theorem Registers.sentenceBoundary (ep : Fin 76) : Registers.Statement (.sentenceBoundary ep) := by
  intro o h; cases h
theorem Registers.heldRelease : Registers.Statement .heldRelease := by
  intro o h; cases h
theorem Registers.tpStep (agent : Fin 3) (val : Word) : Registers.Statement (.tpStep agent val) := by
  intro o h; cases h; decide +kernel
theorem Registers.tpFreqWrite (agent : Fin 3) (val : Word) : Registers.Statement (.tpFreqWrite agent val) := by
  intro o h; cases h; decide +kernel
theorem Registers.dtValidSet (agent : Fin 3) : Registers.Statement (.dtValidSet agent) := by
  intro o h; cases h; decide +kernel
theorem Registers.discSourceWrite (agent : Fin 3) (val : Word) : Registers.Statement (.discSourceWrite agent val) := by
  intro o h; cases h; decide +kernel
theorem Registers.tpOffsSample (agent : Fin 3) (val : Word) : Registers.Statement (.tpOffsSample agent val) := by
  intro o h; cases h; decide +kernel
theorem Registers.ppsInEdge (age : Nat) : Registers.Statement (.ppsInEdge age) := by
  intro o h; cases h
theorem Registers.servoHold : Registers.Statement .servoHold := by
  intro o h; cases h
theorem Registers.ppsOutEdge : Registers.Statement .ppsOutEdge := by
  intro o h; cases h
theorem Registers.referenceEvent (ch : Fin 4) (kind : Fin 6) (age : Nat) : Registers.Statement (.referenceEvent ch kind age) := by
  intro o h; cases h
theorem Registers.holdover (ch : Fin 4) : Registers.Statement (.holdover ch) := by
  intro o h; cases h
theorem Registers.lost (ch : Fin 4) : Registers.Statement (.lost ch) := by
  intro o h; cases h
theorem Registers.qeStillStop (ch : Fin 4) : Registers.Statement (.qeStillStop ch) := by
  intro o h; cases h
theorem Registers.phaseChannelCfgWrite (agent : Fin 3) (ch : Fin 4) (cpr : Bool) (val : Word) : Registers.Statement (.phaseChannelCfgWrite agent ch cpr val) := by
  intro o h; cases h; revert ch cpr; decide +kernel
theorem Registers.extSampleWrite (agent : Fin 3) (ch : Fin 4) (val : Word) : Registers.Statement (.extSampleWrite agent ch val) := by
  intro o h; cases h; revert ch; decide +kernel
theorem Registers.strobeWrite (agent : Fin 3) (po : Fin 4) (reg : Fin 6) (val : Word) : Registers.Statement (.strobeWrite agent po reg val) := by
  intro o h; cases h; revert po reg; decide +kernel
theorem Registers.strobeEdge (po : Fin 4) : Registers.Statement (.strobeEdge po) := by
  intro o h; cases h
theorem Registers.cellDue (cell : Fin 1024) : Registers.Statement (.cellDue cell) := by
  intro o h; cases h
theorem Registers.cellEmission : Registers.Statement .cellEmission := by
  intro o h; cases h
theorem Registers.stitchTakesEffect : Registers.Statement .stitchTakesEffect := by
  intro o h; cases h
theorem Registers.rebaste : Registers.Statement .rebaste := by
  intro o h; cases h
theorem Registers.rebasteDone : Registers.Statement .rebasteDone := by
  intro o h; cases h
theorem Registers.fittingCapture (second : Bool) : Registers.Statement (.fittingCapture second) := by
  intro o h; cases h
theorem Registers.fittingRecordWritten (bank : Bool) : Registers.Statement (.fittingRecordWritten bank) := by
  intro o h; cases h
theorem Registers.leaseLapse (bob : Fin 512) : Registers.Statement (.leaseLapse bob) := by
  intro o h; cases h
theorem Registers.flush (agent : Fin 3) (bob : Fin 512) : Registers.Statement (.flush agent bob) := by
  intro o h; cases h; revert bob; decide +kernel
theorem Registers.backgroundScanRead (addr : Fin 2097152) (upset : Option (Fin 33)) : Registers.Statement (.backgroundScanRead addr upset) := by
  intro o h; cases h
theorem Registers.pinAged (addr : Fin 2097152) : Registers.Statement (.pinAged addr) := by
  intro o h; cases h
theorem Registers.ckStart (agent : Fin 3) (cu : Fin 16) : Registers.Statement (.ckStart agent cu) := by
  intro o h; cases h; revert cu; decide +kernel
theorem Registers.ckFinish (agent : Fin 3) (cu : Fin 16) : Registers.Statement (.ckFinish agent cu) := by
  intro o h; cases h; revert cu; decide +kernel
theorem Registers.ckClear (agent : Fin 3) (cu : Fin 16) : Registers.Statement (.ckClear agent cu) := by
  intro o h; cases h; revert cu; decide +kernel
theorem Registers.selftest (agent : Fin 3) (cu : Fin 16) : Registers.Statement (.selftest agent cu) := by
  intro o h; cases h; revert cu; decide +kernel
theorem Registers.selftestDone (cu : Fin 16) (pass : Bool) : Registers.Statement (.selftestDone cu pass) := by
  intro o h; cases h
theorem Registers.ckDataWrite (agent : Fin 3) (cu : Fin 16) (which : Fin 3) (val : Word) : Registers.Statement (.ckDataWrite agent cu which val) := by
  intro o h; cases h; revert cu which; decide +kernel
theorem Registers.ckCfgWrite (agent : Fin 3) (cu : Fin 16) (val : Word) : Registers.Statement (.ckCfgWrite agent cu val) := by
  intro o h; cases h; revert cu; decide +kernel
theorem Registers.ckOpenParamWrite (agent : Fin 3) (cu : Fin 16) (which : Fin 6) (val : Word) : Registers.Statement (.ckOpenParamWrite agent cu which val) := by
  intro o h; cases h; revert cu which; decide +kernel
theorem Registers.ckRunRestore (agent : Fin 3) (cu : Fin 16) (val : Word) : Registers.Statement (.ckRunRestore agent cu val) := by
  intro o h; cases h; revert cu; decide +kernel
theorem Registers.peerLinkEnable (agent : Fin 3) : Registers.Statement (.peerLinkEnable agent) := by
  intro o h; cases h; decide +kernel
theorem Registers.retrain (agent : Fin 3) : Registers.Statement (.retrain agent) := by
  intro o h; cases h; decide +kernel
theorem Registers.peerLinkUp (rank : Bool) (fl0 : Bool) (fl1 : Bool) : Registers.Statement (.peerLinkUp rank fl0 fl1) := by
  intro o h; cases h
theorem Registers.flitReceived (crcOk : Bool) (hdr : Word) (payload : List Word) (sub : Fin 8) : Registers.Statement (.flitReceived crcOk hdr payload sub) := by
  intro o h; cases h
theorem Registers.replayTimer : Registers.Statement .replayTimer := by
  intro o h; cases h
theorem Registers.peerLinkDown : Registers.Statement .peerLinkDown := by
  intro o h; cases h
theorem Registers.sentenceFrameReceived (sub : Fin 8) : Registers.Statement (.sentenceFrameReceived sub) := by
  intro o h; cases h
theorem Registers.sentenceFrameAcked (sub : Fin 8) : Registers.Statement (.sentenceFrameAcked sub) := by
  intro o h; cases h
theorem Registers.bridgeWrite (win : Fin 8) (off : Byte) (data : Word) (full : Bool) : Registers.Statement (.bridgeWrite win off data full) := by
  intro o h; cases h
theorem Registers.bridgeRead (win : Fin 8) (off : Byte) : Registers.Statement (.bridgeRead win off) := by
  intro o h; cases h
theorem Registers.inboundRequest (wr : Bool) (off : BitVec 16) (data : Word) (full : Bool) (tag : BitVec 10) (win : Fin 8) (posted : Bool) : Registers.Statement (.inboundRequest wr off data full tag win posted) := by
  intro o h; cases h
theorem Registers.bridgeTimeout (tag : BitVec 10) (rd : Bool) : Registers.Statement (.bridgeTimeout tag rd) := by
  intro o h; cases h
theorem Registers.writeAckTimer : Registers.Statement .writeAckTimer := by
  intro o h; cases h
theorem Registers.faultNotice (tag : BitVec 10) (reason : BitVec 4) (off : BitVec 16) : Registers.Statement (.faultNotice tag reason off) := by
  intro o h; cases h
theorem Registers.faultLogPop (agent : Fin 3) (inbound : Bool) : Registers.Statement (.faultLogPop agent inbound) := by
  intro o h; cases h; revert inbound; decide +kernel
theorem Registers.acquire (agent : Fin 3) (win : Fin 8) : Registers.Statement (.acquire agent win) := by
  intro o h; cases h; revert win; decide +kernel
theorem Registers.release (agent : Fin 3) (win : Fin 8) : Registers.Statement (.release agent win) := by
  intro o h; cases h; revert win; decide +kernel
theorem Registers.lockRequestReceived (win : Fin 8) : Registers.Statement (.lockRequestReceived win) := by
  intro o h; cases h
theorem Registers.lockGrantReceived (granted : Bool) : Registers.Statement (.lockGrantReceived granted) := by
  intro o h; cases h
theorem Registers.lockRetry : Registers.Statement .lockRetry := by
  intro o h; cases h
theorem Registers.lockTimeout (own : Bool) : Registers.Statement (.lockTimeout own) := by
  intro o h; cases h
theorem Registers.napEntry : Registers.Statement .napEntry := by
  intro o h; cases h
theorem Registers.hibernateEntry : Registers.Statement .hibernateEntry := by
  intro o h; cases h
theorem Registers.pwrGood (imageOk : Bool) (bist : BitVec 4) (seams : BitVec 3) (mram : BitVec 24) : Registers.Statement (.pwrGood imageOk bist seams mram) := by
  intro o h; cases h
theorem Registers.pmicTimeout : Registers.Statement .pmicTimeout := by
  intro o h; cases h
theorem Registers.persistWrite : Registers.Statement .persistWrite := by
  intro o h; cases h
theorem Registers.slowCheckpoint : Registers.Statement .slowCheckpoint := by
  intro o h; cases h
theorem Registers.thermalSample (t0 : BitVec 12) (t1 : BitVec 12) (t2 : BitVec 12) (t3 : BitVec 12) : Registers.Statement (.thermalSample t0 t1 t2 t3) := by
  intro o h; cases h
theorem Registers.supplyCheck (out : BitVec 9) : Registers.Statement (.supplyCheck out) := by
  intro o h; cases h
theorem Registers.vaonInRange : Registers.Statement .vaonInRange := by
  intro o h; cases h
theorem Registers.resetNLow : Registers.Statement .resetNLow := by
  intro o h; cases h
theorem Registers.headerSpanEnd (talker : Fin 84) (kind : Fin 4) (ide : Bool) (id : BitVec 29) (len : Nat) (sec : Bool) (vcid : Byte) (sdt : Byte) (head : List Byte) (age : Nat) : Registers.Statement (.headerSpanEnd talker kind ide id len sec vcid sdt head age) := by
  intro o h; cases h
theorem Registers.d0Return : Registers.Statement .d0Return := by
  intro o h; cases h
theorem Registers.busMasterEnable : Registers.Statement .busMasterEnable := by
  intro o h; cases h
theorem Registers.linkRetrain : Registers.Statement .linkRetrain := by
  intro o h; cases h
theorem Registers.ifsIdle (port : Fin 48) : Registers.Statement (.ifsIdle port) := by
  intro o h; cases h
theorem Registers.deLagEnd (port : Fin 16) : Registers.Statement (.deLagEnd port) := by
  intro o h; cases h
theorem Registers.strobePulseEnd (po : Fin 4) : Registers.Statement (.strobePulseEnd po) := by
  intro o h; cases h
theorem Registers.ppsOutPulseEnd : Registers.Statement .ppsOutPulseEnd := by
  intro o h; cases h
theorem Registers.t1sBackoffEnd (ts : Fin 4) : Registers.Statement (.t1sBackoffEnd ts) := by
  intro o h; cases h
theorem Registers.copyPathParity : Registers.Statement .copyPathParity := by
  intro o h; cases h
theorem Registers.apCtrlEnWrite (agent : Fin 3) (port : Fin 48) (val : Word) : Registers.Statement (.apCtrlEnWrite agent port val) := by
  intro o h; cases h; revert port; decide +kernel
theorem Registers.tapTckEdge (rising : Bool) (tms : Bool) (tdi : Bool) : Registers.Statement (.tapTckEdge rising tms tdi) := by
  intro o h; cases h
theorem Registers.trstNLow : Registers.Statement .trstNLow := by
  intro o h; cases h

end Sys2Proof.Laws
end

