-- ==== Sys2Proof/Laws/Store.lean ====
section
/-!
SUPPORT. The laws of the store (R220): a word reads as it was written, every other word as before, and every operation that writes it
keeps its canonical form.
-/
set_option Elab.async false
namespace Sys2Proof.Machine

/-- The store alone decides its form. -/
theorem storeWf_of_store {s t : State} (h : t.store = s.store) : storeWf t = storeWf s := by unfold storeWf; rw [h]

theorem storeWf_reset : storeWf State.reset = true := by decide

/-- A write of a word of the 2^21 keeps the form. -/
theorem storeWf_mapSet {s : State} {a : Nat} (w : StoreWord) (ha : a < 0x200000) (h : storeWf s = true) :
    storeWf { s with store := mapSet (dflt 0#33) s.store a w } = true := by
  unfold storeWf at h ⊢
  simp only [Bool.and_eq_true, List.all_eq_true, decide_eq_true_eq] at h ⊢
  refine ⟨mapWf_mapSet _ _ _ _ h.1, fun e he => ?_⟩
  unfold mapSet at he
  split at he
  · exact h.2 e (mem_mapDel he)
  · rcases mem_mapIns he with rfl | he
    · exact ha
    · exact h.2 e he

theorem storeWf_setWord {s : State} (a : Nat) (w : Word) (h : storeWf s = true) : storeWf (s.setWord a w) = true :=
  storeWf_mapSet _ (Nat.mod_lt _ (by decide)) h

theorem storeWf_pushWord {s : State} (b : Nat) (w : Word) (h : storeWf s = true) : storeWf (pushWord b w s) = true := by
  unfold pushWord
  exact storeWf_setWord _ w h

theorem storeWf_forAll {β : Type} (l : List β) (f : β → State → State) (hf : ∀ b s, storeWf s = true → storeWf (f b s) = true) :
    ∀ {s : State}, storeWf s = true → storeWf (forAll l f s) = true := by
  induction l with
  | nil => exact fun h => h
  | cons a t ih => exact fun h => ih (hf a _ h)

theorem storeWf_pushWords {s : State} (b : Nat) (ws : List Word) (h : storeWf s = true) : storeWf (pushWords b ws s) = true :=
  storeWf_forAll ws _ (fun w _ => storeWf_pushWord b w) h

theorem storeWf_whenDo {s : State} (c : Bool) (f : State → State) (hf : storeWf s = true → storeWf (f s) = true) (h : storeWf s = true) :
    storeWf (whenDo c f s) = true := by
  unfold whenDo; split
  · exact hf h
  · exact h

/-- A word pushed reads back at its position's address, with good parity. -/
theorem pushWord_word (s : State) (b a : Nat) (w : Word) :
    (pushWord b w s).word a = if a % 0x200000 = posAddr s b (s.bob b).wp % 0x200000 then withParity w else s.word a := by
  show (s.setWord (posAddr s b (s.bob b).wp) w).word a = _
  exact State.word_setWord s _ a w

end Sys2Proof.Machine
end

