-- ==== Sys2Proof/WellFormed.lean ====
section
/-!
DEFINITION. Which commands can come from outside: the lengths and ranges that the spec gives their operands. step does not ask:
the meanings are total, and a command that is not well formed is one that no agent or medium can send.
-/
namespace Sys2Proof

/-- The lengths of a CAN frame's data: 0 to 8 bytes for a classical frame, none for a remote frame, an FD length, 1 to 2,048
bytes for an XL frame (ISO 11898-1, R55). -/
def canDataOk (kind len : Nat) : Bool :=
  match kind with
  | 0 => decide (len ≤ 8)
  | 1 => decide (len = 0)
  | 2 => decide (len ≤ 8 ∨ len = 12 ∨ len = 16 ∨ len = 20 ∨ len = 24 ∨ len = 32 ∨ len = 48 ∨ len = 64)
  | _ => decide (1 ≤ len ∧ len ≤ 2048)

/-- A standard identifier has 11 bits, and FD and XL frames are never remote; an XL frame has no extended identifier. -/
def canIdOk (kind : Nat) (ide : Bool) (id : BitVec 29) : Bool :=
  (ide || decide (id.toNat < 2048)) && (decide (kind ≠ 3) || !ide)

/-- A command is well formed. -/
def Instr.wf : Instr → Bool
  | .imageReadComplete _ image => decide (image.length ≤ 1048576)
  | .poll off _ _ us => decide (off.toNat % 4 = 0 ∧ us < 2 ^ 32)
  | .write off _ => decide (off.toNat % 4 = 0)
  | .wait us => decide (us < 2 ^ 32)
  | .registerWrite _ _ _ size _ _ => decide (size = 1 ∨ size = 2 ∨ size = 4 ∨ size = 8)
  | .loReadLatch _ off wide => decide (off.toNat % (if wide then 8 else 4) = 0)
  | .htFetchComplete _ desc payload ok =>
    decide (desc.length = 4 ∨ (desc = [] ∧ ok = false)) && decide (payload.length ≤ 65535)
  | .hrDescriptorFetch _ desc => decide (desc.length = 3)
  | .cmdFetch desc => decide (desc.length = 8)
  | .linBreak _ bits _ => decide (1 ≤ bits)
  | .canFrameReceived _ kind ide id _ _ _ _ _ data _ _ => canDataOk kind.val data.length && canIdOk kind.val ide id
  | .canError _ kind tx _ _ => decide (kind.val ≠ 5) || tx
  | .t1sFrameReceived _ bytes _ _ _ => decide (bytes.length ≤ 65535)
  | .uplinkFrameReceived _ bytes _ _ => decide (bytes.length ≤ 65535)
  | .headerSpanEnd talker kind ide id _ _ _ _ _ _ => decide (0x30 ≤ talker.val) && (decide (0x40 ≤ talker.val) || canIdOk kind.val ide id)
  | .checkpointCommit _ blocks => blocks.all (fun x => decide (x.1 < 64))
  | .restartComplete _ blocks _ => blocks.all (fun x => decide (x.1 < 768))
  | .scrub blocks => blocks.all (fun x => decide (x.1 < 832))
  | .flitReceived _ _ payload _ => decide (payload.length = 14)
  | _ => true

end Sys2Proof
end

