-- ==== Sys2Proof/Tests/Slice0.lean ====
section
/-!
SUPPORT. Tests of the model: commands that are not well formed, states and operands that meet the hypotheses of each statement, the
worked examples of the spec, and single steps. Each expected value is the spec's own or follows from the rule named.
-/
set_option Elab.async false
open Sys2Proof Sys2Proof.Machine
namespace Sys2Proof.Tests

/-! ## Small states -/

/-- Out of reset, in RUN. -/
def up : State := { State.reset with inReset := false }
/-- Booted, not locked, with the host's Bus Master Enable. -/
def ran : State := { up with bme := true, boot := { phase := 3, done := true } }
/-- A boot script at a list of records. -/
def script (l : List SRec) : State := modBoot (fun b => { b with script := l, running := true }) up
/-- The link to the partner up, with room for requests and completions. -/
def linked : State := modPeer (fun p => { p with st := 2, credit := [(8, 32), (9, 32)] }) up
/-- A host-transmit, host-receive or command ring that is active with some entries. -/
def ringed (r : Nat) (g : Ring) : State :=
  { (ran.setRing r { g with active := true }).setReg (ringOff r + 8) 0x104#32 with wbWritten := true }
/-- A command that waits at the head of the list. -/
def command (w0 w1 : Word) : State := { ran with cmds := [{ w := [w0, w1, 0#32, 0#32, 0#32, 0#32, 0#32, 0#32] }] }

/-! ## Commands that are not well formed -/

theorem test_wf_image : Instr.wf (.imageReadComplete true (List.replicate 3 0#8)) = true := by decide +kernel
theorem test_wf_script : Instr.wf (.write 0x3#17 0#32) = false ∧ Instr.wf (.poll 0x2#17 0#32 0#32 1) = false ∧
    Instr.wf (.poll 0x4#17 0#32 0#32 (2 ^ 32)) = false ∧ Instr.wf (.wait (2 ^ 32)) = false ∧ Instr.wf (.wait (2 ^ 32 - 1)) = true := by
  decide +kernel
theorem test_wf_access : Instr.wf (.registerWrite 0 0x0#17 0#64 3 true false) = false ∧ Instr.wf (.loReadLatch 0 0x3012#17 false) = false ∧
    Instr.wf (.loReadLatch 0 0x300C#17 true) = false ∧ Instr.wf (.loReadLatch 0 0x3008#17 true) = true := by decide +kernel
theorem test_wf_descriptors : Instr.wf (.htFetchComplete 0 [0#32] [] true) = false ∧ Instr.wf (.htFetchComplete 0 [] [] false) = true ∧
    Instr.wf (.htFetchComplete 0 [] [] true) = false ∧ Instr.wf (.hrDescriptorFetch 0 [0#32]) = false ∧ Instr.wf (.cmdFetch [0#32]) = false := by
  decide +kernel
theorem test_wf_media : Instr.wf (.linBreak 0 0 0) = false ∧ Instr.wf (.canError 0 5 false false false) = false ∧
    Instr.wf (.flitReceived true 0#32 [0#32] 0) = false ∧
    Instr.wf (.headerSpanEnd ⟨0x2F, by decide⟩ 0 false 0#29 0 false 0#8 0#8 [] 0) = false := by decide +kernel
/-- Nine classical bytes, data in a remote frame, 9 FD bytes, an empty XL frame, a 12-bit standard identifier, an extended XL one. -/
theorem test_wf_can :
    let f := fun (kind : Fin 4) (ide : Bool) (id : BitVec 29) (n : Nat) =>
      Instr.wf (.canFrameReceived 0 kind ide id 0#4 false 0#8 0#8 0#32 (List.replicate n 0#8) false 0)
    f 0 false 1#29 9 = false ∧ f 1 false 1#29 1 = false ∧ f 2 false 1#29 9 = false ∧ f 3 false 1#29 0 = false ∧
    f 0 false 0x800#29 1 = false ∧ f 3 true 1#29 1 = false ∧ f 0 false 0x7FF#29 8 = true ∧ f 2 true 0x1FFFFFFF#29 64 = true := by
  decide +kernel
theorem test_wf_frames : Instr.wf (.t1sFrameReceived 0 (List.replicate 64 0#8) ⟨true, 0⟩ false 0) = true ∧
    Instr.wf (.uplinkFrameReceived 0 (List.replicate 60 0#8) ⟨true, 0⟩ 0) = true := by decide +kernel
theorem test_wf_blocks : Instr.wf (.checkpointCommit true [(64, 1#3)]) = false ∧ Instr.wf (.checkpointCommit true [(63, 1#3)]) = true ∧
    Instr.wf (.restartComplete true [(768, 1#3)] true) = false ∧ Instr.wf (.restartComplete true [(767, 1#3)] true) = true ∧
    Instr.wf (.scrub [(832, 1#3)]) = false ∧ Instr.wf (.scrub [(831, 1#3)]) = true := by decide +kernel

/-! ## States and operands that meet the hypotheses of the statements -/

theorem wit_StepRunsFront : ({ up with pending := [.nop, .stitch] } : State).pending = .nop :: [.stitch] := by decide +kernel
theorem wit_StepEnds : up.pending = [] ∧ up.awake = true := by decide +kernel
theorem wit_StepKeepsStore : storeWf (up.setWord 0x1FFFFF 1#32) = true ∧ (up.setWord 0x1FFFFF 1#32).store ≠ [] := by decide +kernel
theorem wit_ColdBootStarts : State.reset.inReset = true ∧ State.reset.testEn = false ∧ State.reset.pw.pwrReq = true ∧
    (1#4 : BitVec 4).getLsbD 0 = true := by decide +kernel
theorem wit_ImageJudged :
    let s := fun n => modBoot (fun b => { b with reading := some n, phase := 2 }) ran
    (s 0).awake = true ∧ (s 0).boot.reading = some 0 ∧ (s 1).boot.reading = some 1 ∧ (s 1).boot.phase ≠ 1 ∧
    (s 2).boot.reading = some 2 ∧ (s 2).hostUp = true ∧ imageError false [] ≠ 0 ∧
    imageScript ([0#8, 0#8, 0#8, 0#8, 0#8, 0#8, 0#8, 0#8, 0#8, 0#8, 0#8, 0#8, 20#8, 0#8, 0#8, 0#8, 4#8, 0#8, 0#8, 0#8] ++
      [0#8, 0#8, 0#8, 0#8]) = [.endRec, .bad] := by decide +kernel
theorem wit_RecoveryAsks : peerUp linked = true ∧ bit (linked.reg 0xC000) 2 = false := by decide +kernel
theorem wit_HostTransferStarts :
    let w := modBoot (fun b => { b with phase := 2, waiting := true }) ran
    let s := w.setReg 0xF010 0x200#32
    agentMayWrite 0 s 0xF014 1#32 = true ∧ hostMayLoad s = true ∧ imgLenOk (s.rf 0xF010 0 21) = true ∧
    agentMayWrite 0 w 0xF014 1#32 = true ∧ hostMayLoad w = true ∧ imgLenOk (w.rf 0xF010 0 21) = false ∧
    agentMayWrite 0 ran 0xF014 1#32 = true ∧ hostMayLoad ran = false := by decide +kernel
theorem wit_PartnerTransfer :
    let s := modPeer (fun p => { p with bootWait := true }) (modBoot (fun b => { b with waiting := true }) linked)
    let b := wordsBytes s.peer.bootWords
    peerUp s = true ∧ s.awake = true ∧ wordFits s = true ∧ wordFits linked = false ∧ s.peer.bootWait = true ∧ s.boot.waiting = true ∧
    s.boot.reading = none ∧ imageError true b ≠ 0 := by decide +kernel
theorem wit_ScriptRecordsRun :
    let s := fun r => script [r, .lock]
    SRec.lock ≠ .bad ∧ (s (.wait (w32 5))).boot.script = .wait (w32 5) :: .lock :: [] ∧ (s .lock).awake = true ∧ (s .lock).boot.running = true ∧
    locked (s (.write 0xF004 7#32)) = false ∧ (0xF004#17 : BitVec 17).toNat / 0x1000 = 0xF ∧ (0xF004#17 : BitVec 17).toNat ≠ 0xF000 ∧
    (regInfo 0xF040).any (·.rwb) = true ∧ (readReg (s (.poll 0 0xFFFF0000#32 0x74800000#32 1#32)) 2 0 &&& 0xFFFF0000#32 = 0x74800000#32) ∧
    (s .lock).rb 0xF040 0 = false ∧ locked ((s .stitch).setReg 0xF000 1#32) = true ∧ (s .stitch).cons.stitch = none ∧
    (s (.write 0xF000 1#32)).rb 0xF040 0 = false := by decide +kernel
theorem wit_ScriptLoads :
    let s := script [.load 7 0 [0x04000000#32, 0#32, 0#32, 0#32, 0#32], .endRec]
    s.awake = true ∧ s.boot.running = true ∧ SRec.endRec ≠ .bad ∧ s.cons.rebaste = false ∧ s.cons.stitch = none ∧
    s.boot.script = .load (7#4 : BitVec 4).toNat (0 : Fin 8) (0x04000000#32 :: [0#32, 0#32, 0#32, 0#32]) :: .endRec :: [] ∧
    field 0x04000000#32 24 6 = 4 ∧ field 0x04000000#32 17 7 = 0 ∧ field 0x04000000#32 30 2 = 0 ∧ (7#4 : BitVec 4) ≠ 10#4 ∧
    (loadEntry (reachOf s 0) s.cons.owners (bankOfDev s (stagingBank s)) (7#4 : BitVec 4).toNat (field 0x04000000#32 0 16)
      (bit 0x04000000#32 16) [0#32, 0#32, 0#32, 0#32]).1 ≤ 1 := by decide +kernel
theorem wit_ScriptEnds :
    let s := script [.endRec]
    let p := script [.poll 0 0#32 1#32 5#32]
    s.awake = true ∧ s.boot.running = true ∧ s.boot.script = .endRec :: [] ∧ locked s = false ∧ s.boot.phase ≠ 1 ∧
    locked (s.setReg 0xF000 1#32) = true ∧ s.pw.hibFail = false ∧ p.boot.script = .poll 0 0#32 1#32 5#32 :: [] ∧ p.boot.phase ≠ 1 := by
  decide +kernel
theorem wit_SelvageKeptFromHost : hostServed ran = true ∧ ran.awake = true ∧ (0xF040#17 : BitVec 17).toNat / 0x1000 = 0xF ∧
    (0xF040#17 : BitVec 17).toNat % 4 = 0 ∧ isRwb (0xF040#17 : BitVec 17).toNat = true := by decide +kernel

theorem wit_HostWriteChecks :
    let s := (ran.setReg 0xF000 1#32).setReg 0xF044 0#32
    hostServed s = true ∧ s.awake = true ∧ (0xFFFC#17 : BitVec 17).toNat < 0x10000 ∧ ¬ (2 = 4) ∧ 0x10000 ≤ (0x10000#17 : BitVec 17).toNat ∧
    (0x17FF8#17 : BitVec 17).toNat < 0x18000 ∧ hostServed up = true ∧ up.boot.done = false ∧ (0x8008#17 : BitVec 17).toNat / 0x1000 ≠ 0xF ∧
    s.boot.done = true ∧ locked s = true ∧ s.rb 0xF044 8 = false := by decide +kernel
/-- One for each agent. -/
theorem wit_RegisterWritten :
    agentMayWrite 0 ran 0x8008 3#32 = true ∧ agentMayWrite 1 linked 0x8008 3#32 = true ∧
    agentMayWrite 2 (script [.write 0x8008 3#32]) 0x8008 3#32 = true ∧ (0x8008#17 : BitVec 17).toNat / 0x1000 = 8 ∧
    (regInfo (0x8008#17 : BitVec 17).toNat).isSome = true ∧ ({ ran with hotAt := 1 } : State).hotAt ≠ ran.edge := by decide +kernel
theorem wit_ReadsLatch : hostMayRead ran 0x3008 = true ∧ hiOf (0x8010#17 : BitVec 17).toNat = some 0x8014 ∧ hostMayRead ran 0x8010 = true ∧
    (0x8010#17 : BitVec 17).toNat % 8 = 0 ∧ peerUp linked = true ∧ linked.awake = true ∧ linked.peer.inLock = none ∧
    linked.peer.bootWait = false ∧ (0x8010#17 : BitVec 17).toNat / 0x1000 ≠ 0xC := by decide +kernel
theorem wit_HostInterfaceResets : up.up? = true ∧ up.boot.reading ≠ some 2 ∧
    (modBoot (fun b => { b with reading := some 2 }) up).boot.reading = some 2 ∧ up.perst = true := by decide +kernel
theorem wit_PciStates : up.up? = true ∧ up.perst = true ∧ ({ up with d3hot := true } : State).d3hot = true ∧ up.d3hot = false := by
  decide +kernel
/-- HT ring 0 of domain 0, one of domain 1, and CPL. -/
theorem wit_DoorbellMoves :
    let s := ringed 0 {}
    hostServed s = true ∧ s.awake = true ∧ s.boot.done = true ∧ (0#12 : BitVec 12).toNat % 8 = 0 ∧ slotRing 0 = some 0 ∧
    slotRing (0x208#12 : BitVec 12).toNat = some 65 ∧ ringOwner (s.setReg 0xF060 0#32) 0 = (0 : Fin 8) ∧ ringOn (s.setReg 0xF060 0#32) 0 = true ∧
    dbValid (s.ring 0) 0 16#32 = true ∧ dbValid (s.ring 0) 0 17#32 = false ∧ ringOwner (s.setReg 0xF060 1#32) 0 ≠ (0 : Fin 8) := by
  decide +kernel
theorem wit_RingsSetUp :
    let s := { (ran.setReg 0x10 3#32) with genOffered := true, wbWritten := true }
    agentMayWrite 0 s (ringOff 0 + 8) 0x104#32 = true ∧ (s.ring 0).active = false ∧ bit 0x104#32 8 = true ∧ activateBad s 0 0x104#32 = false ∧
    activateBad s 0 0x103#32 = true ∧ activateBad s 0 0x110#32 = false ∧ activateBad s 64 0x104#32 = true ∧
    (let u := ringed 0 {}
     agentMayWrite 0 u (ringOff 0 + 8) 4#32 = true ∧ (u.ring 0).active = true ∧ field 4#32 0 8 = field (u.reg (ringOff 0 + 8)) 0 8) ∧
    agentMayWrite 0 ran 0x10 3#32 = true ∧ agentMayWrite 0 ran 0x1934 1#32 = true ∧ ran.rings.any (fun e => e.2.active) = false ∧
    agentMayWrite 0 (ringed 0 {}) 0x1934 1#32 = true ∧ (ringed 0 {}).rings.any (fun e => e.2.active) = true := by decide +kernel
theorem wit_TransmitDescriptor :
    let s := ringed 0 { h := 1#32, gen := 1, reads := 1 }
    let d := [0#32, 0#32, 4#32, 0#32]
    let x : HtDesc := { w := d, ok := true, pay := [1#8, 2#8, 3#8, 4#8] }
    let long : HtDesc := { x with w := [0#32, 0#32, 2049#32, 0#32] }
    s.awake = true ∧ hostFetches s = true ∧ ringOn s 0 = true ∧ (s.ring 0).reads ≠ 0 ∧ (s.ring 0).ht = [] ∧ dist (s.ring 0).h (s.ring 0).d ≠ 0 ∧ d ≠ [] ∧
    htError x = 0 ∧ nbit (s.mrg (engOf s 0x60 0)).refused (htClass x) = false ∧ htError long ≠ 0 ∧
    (addRecord [mkH0 0x30 0 false false false 4, mkH1 0x60 0, 0#32, 0#32, 0#32, 0#32] x.pay { noRefuse := true }
      ((s.setReg 0xF320 0#32).setLive 0x9000 0x120000#32)).2 = .recorded := by decide +kernel
theorem wit_HostReads :
    let s := ringed 32 { h := 1#32, reads := 1 }
    s.awake = true ∧ hostFetches s = true ∧ ringOn s (32 + 0) = true ∧ (s.ring 32).reads ≠ 0 ∧ (s.ring 32).active = true ∧ (s.ring 32).hr.length < 8 ∧
    (s.ring 32).hr.length < dist (s.ring 32).h (s.ring 32).d ∧ s.hostUp = true ∧
    (headCmd (command 1#32 0#32)).map (·.op) = some 1 ∧ (command 1#32 0#32).hostUp = true ∧
    (let u := (ringed 32 { done := 1 }).setReg (ringOff 32 + 0x14) 0x10001#32
     u.rf (ringOff 32 + 0x14) 16 16 ≠ 0 ∧ (u.ring 32).done ≠ 0) := by decide +kernel

theorem wit_CommandFetched :
    let s := (((ringed 64 { h := 1#32, size := 4, reads := 1 }).setRing 65 { active := true, size := 4 }).setReg (ringOff 65 + 8) 0x104#32).setReg
      0xF048 0x100#32
    let s := s.setReg 0xF628 0#32
    s.awake = true ∧ cmdReady s = true ∧ 9 < field 10#32 0 8 ∧ s.rb 0xF048 (8 + field 0x700#32 8 3) = false ∧ s.rb 0xF048 (8 + field 0#32 8 3) = true ∧
    opPriv 4 = some 2 ∧ s.rb (0xF628 + 0x40 * 0) 2 = false ∧ operandBad [0x800#32, 0#32] = true ∧ operandBad [0#32] = false := by
  decide +kernel
theorem wit_NopAndCompletion :
    let s := command 0#32 0#32
    let d := { (ringed 65 { size := 4 }) with cmds := [{ w := [0#32], started := true, done := some (0, 0#32, 0#32) }] }
    s.awake = true ∧ s.cmds.all (fun c => decide (c.op = 0 ∧ c.started = false ∧ c.done = none ∧ c.mute = false)) = true ∧ s.cmds ≠ [] ∧
    d.cmds.all (fun c => decide (c.done = some (0, 0#32, 0#32) ∧ c.mute = false)) = true ∧ d.cmds ≠ [] ∧ d.hostUp = true ∧ ringOn d 65 = true := by decide +kernel
theorem wit_LoadTableRuns :
    let s := command 1#32 7#32
    let r := fun (d : Word) => { ran with cmds := [{ w := [d, 7#32, 1#32, 0#32, 0#32, 0#32, 20#32, 0#32] }] }
    let im := [0x04000000#32, 0#32, 0#32, 0#32, 0#32]
    (headCmd s).map (·.op) = some 1 ∧ s.hostUp = true ∧ s.cons.rebaste = false ∧ s.cons.stitch = none ∧
    (loadTables 0 7 1 im (r 1#32)).2.short = false ∧ (loadTables 0 7 1 im (r 1#32)).2.refused = none ∧
    (loadTables 0 7 1 [0x03000000#32, 0#32, 0#32, 0#32] (r 1#32)).2.refused.isSome = true ∧
    (modCons (fun c => { c with rebaste := true }) s).cons.rebaste = true := by decide +kernel
theorem wit_StitchAndFittingStart :
    let s := command 2#32 0#32
    let f := { ran with cmds := [{ w := [3#32, 1#32, 5#32, 0#32, 0#32, 0#32, 87552#32, 0#32] }] }
    (headCmd s).map (·.op) = some 2 ∧ s.awake = true ∧ s.seam.dev ≠ 3 ∧ s.cons.stitch = none ∧
    (modCons (fun c => { c with stitch := some {} }) s).cons.stitch.isSome = true ∧
    (modSeam (fun x => { x with dev := 3 }) s).seam.dev = 3 ∧ (headCmd f).map (fun c => (c.op, (wordAt c.w 6).toNat)) = some (3, 87552) ∧
    f.cons.fits.length < 2 ∧ 2 ≤ (modCons (fun c => { c with fits := [{}, {}] }) f).cons.fits.length ∧
    (wordAt ((headCmd (command 3#32 0#32)).getD {}).w 6).toNat < 87552 ∧ field (0#32 : Word) 0 2 = 0 ∧ field (1#32 : Word) 0 2 = 1 := by
  decide +kernel
theorem wit_SeamTestStarts :
    let s := command 4#32 0#32
    (headCmd s).map (·.op) = some 4 ∧ s.awake = true ∧ testBusy s false (testSet s 0 false) = false ∧
    testBusy (modSeam (fun x => { x with test := [0] }) s) false (testSet s 0 false) = true ∧ (modSeam (fun x => { x with dev := 3 }) s).seam.dev = 3 := by decide +kernel
theorem wit_PowerStarts :
    let s := fun p => command 5#32 p
    let high := (s 0x48#32).setLive 0x9000 (0x100000#32 ||| 0x4000#32 ||| 0x8000#32)
    (headCmd (s 0#32)).map (·.op) = some 5 ∧ (s 0#32).awake = true ∧
    powerBusy (modCons (fun c => { c with stitch := some {} }) (s 3#32)) 3#32 = true ∧
    bit 0x48#32 3 = true ∧ bit 0x48#32 6 = true ∧ bobEn high 0 = true ∧
    0x100000 < 64 * field (high.liveReg (carveOff 0)) 0 15 + bobDepth high 0 ∧
    powerBusy (s 8#32) 8#32 = false ∧ bit 8#32 3 = true ∧ field 8#32 0 3 = 0 ∧
    powerBusy (s 2#32) 2#32 = false ∧ bit 2#32 3 = false ∧ field 2#32 0 3 = 2 ∧ (s 2#32).pw.st ≠ 2 ∧
    powerBusy (s 4#32) 4#32 = false ∧ field 4#32 0 3 = 4 ∧ (s 4#32).pw.st ≠ 4 := by decide +kernel
/-- A user record whose first offset is the given byte and every other one 0, with its check value. -/
def userImage (v : Byte) : List Byte :=
  let b := [0x51#8, 0x57#8, 0x4B#8, 0x43#8, 0x01#8, 0#8, 138#8, 0#8, 1#8, 0#8, 0#8, 0#8, 0#8, 0#8, 0#8, 0#8, v] ++ List.replicate 275 0#8
  b ++ wordBytes (crc32c (natBytes 4 1 ++ b))
set_option maxRecDepth 100000 in
theorem wit_CalApplyAndRingReset :
    let s := { ran with cmds := [{ w := [6#32, 0#32, 0#32, 0#32, 0#32, 0#32, 296#32, 0#32] }] }
    let h := (command 8#32 0#32).setRing 0 { reads := 1 }
    let e := { h with cmds := [{ w := [8#32, 0#32], started := true }] }
    (headCmd s).map (fun c => (c.op, bit (wordAt c.w 1) 0, (wordAt c.w 6).toNat)) = some (6, false, 296) ∧ s.hostUp = true ∧ s.awake = true ∧
    (userImage 0#8).length = 296 ∧ (userRecord ((userImage 0#8).take 296)).map (fun r => (r.gen, offsetsBad r)) = some (1, false) ∧
    (userRecord ((userImage 0x7F#8).take 296)).map offsetsBad = some true ∧ userRecord [] = none ∧
    (headCmd (command 6#32 1#32)).map (fun c => (c.op, bit (wordAt c.w 1) 0)) = some (6, true) ∧
    latestSlot (validSlots (2#8 : BitVec 8).toNat [(0, ((4 : Nat), ({} : UserRec))), (1, (5, {}))]) = some (4, {}) ∧ offsetsBad {} = false ∧
    (headCmd (command 8#32 0#32)).map (·.op) = some 8 ∧ ((command 8#32 0#32).ring 0).reads = 0 ∧ (headCmd h).map (·.op) = some 8 ∧
    (h.ring 0).reads ≠ 0 ∧ hostFetches e = true ∧ (e.ring (0 : Fin 32)).active = false ∧ (e.ring (0 : Fin 32)).reads = 1 ∧
    (e.cmds.find? (fun y => decide (y.op = 8 ∧ field (wordAt y.w 1) 0 6 = (0 : Fin 32).val ∧ y.done = none) && y.started)).isSome = true := by
  decide +kernel
theorem wit_FenceAndService :
    (headCmd (command 7#32 0#32)).map (·.op) = some 7 ∧ peerUp (command 7#32 0#32) = false ∧
    peerUp (modPeer (fun p => { p with st := 2 }) (command 7#32 0#32)) = true ∧ (headCmd (command 9#32 0x12F#32)).map (·.op) = some 9 ∧
    bit 0x12F#32 8 = true ∧ outOfService (command 9#32 0x12F#32) 0x2F = false ∧
    outOfService ((command 9#32 0x2F#32).setPort 0x2F { oos := true }) 0x2F = true ∧ bit 0x2F#32 8 = false := by decide +kernel

/-! ### Ports and media -/

/-- Port 0 enabled. -/
def portOn : State := ran.setReg (apOff 0 0) 1#32
/-- Port 0 enabled, with a unit of a framing in progress. -/
def inUnit (u : UnitSt) : State := portOn.setPort 0 { unit := some u }
/-- A sentence of four bytes at egress point ep. -/
def sending (ep : Nat) (c : Cur) (s : State) : State := s.setEg ep { cur := some c }
/-- A sentence of two characters. -/
def twoChars : Cur := { lq := 0, bob := 0, ref := {}, idx := 0, bytes := [0x41#8, 0x42#8] }

theorem wit_ReceiveWordStored :
    let p := fun n => portOn.setPort 0 { q := List.replicate n { w := 0#33 } }
    ((p 63).port 0).q.length < 64 ∧ 64 ≤ ((p 64).port 0).q.length ∧ portOn.awake = true ∧ portOn.rb (apOff 0 0) 0 = true ∧
    (portOn.port 0).oos = false ∧ linMode portOn 0 = false ∧ lineMode portOn 0 = 0 ∧ linMode (portOn.setReg (apOff 0 0x40) 6#32) 0 = true ∧
    lineMode (portOn.setReg (apOff 0 0) 3#32) 0 ≠ 0 ∧ txActive (portOn.setReg (apOff 0 0) 3#32) 0 = false ∧
    bit (rxWord 8#32 false 0x41 false true false false) 12 = false ∧
    (let l := ((portOn.setReg (apOff 0 0x40) 6#32).setReg (apOff 0 0x2C) 4#32).setPort 0 { linSync := true }
     (l.port 0).linSync = true ∧ linMode l 0 = true ∧ l.rb (apOff 0 0x2C) 0 = false ∧ l.rb (apOff 0 0x2C) 2 = true) := by decide +kernel
theorem wit_FramerRuns :
    let off := portOn.setPort 0 { q := [{ w := 0#33 }] }
    let line : UnitSt := { ctrl := 1#32, len := 0xFF#32, gap := 0x10000#32 }
    let slip : UnitSt := { ctrl := 2#32, len := 0xFF#32, pay := [1#8] }
    let gap : UnitSt := { ctrl := 4#32, pay := [1#8] }
    let lin : UnitSt := { ctrl := 6#32, linPh := 2 }
    (off.port 0).unit = none ∧ off.rf (apOff 0 0x40) 0 3 = 0 ∧ frmMode slip.ctrl ≠ 6 ∧ bit slip.ctrl 8 = false ∧
    (rxChar { w := withParity 0x41#32 }).bk = false ∧ (rxChar { w := withParity 0x41#32 }).err = false ∧
    (match unitChar slip 0x41 with | .more _ => true | _ => false) = true ∧
    (match unitChar slip 0xC0 with | .done _ _ true => true | _ => false) = true ∧
    frmMode gap.ctrl = 4 ∧ gap.st = 0 ∧ gap.early = none ∧ gap.dead = false ∧
    (addRecord (unitHead 0 gap 1 0#32) (unitPay gap) { status := 0, hits := 0 } ((inUnit gap).setLive 0x9000 0x120000#32)).2 = .recorded ∧
    frmMode line.ctrl = 1 ∧ field line.gap 8 16 ≠ 0 ∧ line.malf = false ∧ frmMode lin.ctrl = 6 ∧ lin.linPh = 2 ∧ lin.pay = [] := by
  decide +kernel
theorem wit_RatesApply :
    let busy := sending 0 twoChars portOn
    agentMayWrite 0 (rxSeen 0 true portOn) (apOff 0 4) 8#32 = true ∧ agentMayWrite 0 (rxSeen 0 false busy) (apOff 0 8) 8#32 = true ∧
    txBusy busy 0 = true ∧ txBusy portOn 0 = false ∧ agentMayWrite 0 (rxSeen 0 false portOn) (apOff 0 4) 8#32 = true ∧
    ((portOn.setPort 0 { pendRx := true }).port 0).pendRx = true ∧ ((portOn.setPort 0 { pendTx := true }).port 0).pendTx = true ∧
    agentMayWrite 0 (rxSeen 0 false portOn) (apOff 0 8) (8#32 ||| 0x80000000#32) = true := by decide +kernel
theorem wit_CharacterSent :
    let s := sending 0 twoChars portOn
    let l := sending 0 { twoChars with sent := 1 } portOn
    let c := sending 0 { twoChars with ref := { cut := true } } portOn
    let hdx := (s.setReg (apOff 0 0) 3#32).setReg (apOff 0 0x14) 0x20000#32
    let lin := s.setReg (apOff 0 0x40) 6#32
    s.awake = true ∧ s.rb (apOff 0 0) 0 = true ∧ (s.port 0).oos = false ∧ (s.port 0).linTx = [] ∧ (s.eg 0).cur = some twoChars ∧
    curShift s 0 twoChars = some (0x41, 1) ∧ curShift l 0 { twoChars with sent := 1 } = some (0x42, 1) ∧ twoChars.sent + 1 < twoChars.bytes.length ∧
    (l.eg 0).cur = some { twoChars with sent := 1 } ∧ (curShift c 0 { twoChars with ref := { cut := true }, shift := some (0x41, 1) }).isSome = true ∧
    lineMode lin 0 = 0 ∧ linMode lin 0 = true ∧ (hdx.eg 0).cur = some twoChars ∧ lineMode hdx 0 ≠ 0 ∧ (9 : Fin 12).val ≤ stopIndex (hdx.port 0).txChar ∧
    twoChars.tries + 1 < hdx.rf (apOff 0 0x14) 16 4 := by decide +kernel
theorem wit_LineTimes :
    let s := sending 0 { twoChars with backoff := true } portOn
    agentMayWrite 0 portOn (apOff 0 0) 0#32 = true ∧ portOn.rb (apOff 0 0) 0 = true ∧ agentMayWrite 0 ran (apOff 0 0) 1#32 = true ∧
    ran.rb (apOff 0 0) 0 = false ∧ portOn.rb (apOff 0 0) 0 = bit 3#32 0 ∧ (s.eg 0).cur = some { twoChars with backoff := true } ∧
    lineMode (portOn.setReg (apOff 0 0) 3#32) 0 ≠ 0 ∧ txActive (portOn.setReg (apOff 0 0) 3#32) 0 = false ∧ (portOn.port 0).rxBusy = false ∧
    ((portOn.setPort 15 { de := true }).port (15 : Fin 16)).de = true ∧ ((portOn.setPort 15 { de := true }).eg (15 : Fin 16)).cur = none := by
  decide +kernel
theorem wit_LinTraffic :
    let u : UnitSt := { ctrl := 6#32, linPh := 2, linPid := linPid 5 }
    let p : Port := { unit := some u, lin := [(5, 0x40#32)], buf := [(5, [1#8])] }
    let s := portOn.setPort 0 p
    let m := ((portOn.setReg (apOff 0 0x40) 6#32).setReg (apOff 0 0x2C) 3#32).setPort 0 { lin := [(64, 0x45#32)] }
    field (linEntry s 0 ((linPid 5).toNat % 64)) 5 2 = 2 ∧ mapFind p.buf ((linPid 5).toNat % 64) = some [1#8] ∧
    mapFind ({ p with buf := [] } : Port).buf 5 = none ∧ linMode m 0 = true ∧ m.rb (apOff 0 0x2C) 0 = true ∧ m.rb (apOff 0 0x2C) 1 = true ∧
    (m.port 0).unit = none ∧ (m.port 0).oosPend = false ∧ p.oosPend = false ∧ (0 : Fin 26).val < 13 ∧ (m.port 0).linPos = none ∧ (linSlots m 0).head? = some 0 := by decide +kernel

/-- CAN controller 0 on its bus. -/
def canUp : State := ran.setReg (cnOff 0 0) 1#32
/-- A CAN frame on its way out. -/
def canSending : State := sending 48 { twoChars with frame := some (.canFrame 0 0 1#32 [1#8] false false) } canUp
theorem wit_CanReceives :
    canOn canUp 0 = true ∧ (canUp.can 0).oos = false ∧ canEnabled canUp 0 2 = false ∧ canEnabled canUp 0 0 = true ∧
    mapFind canUp.early 0x30 = none ∧ canAccept canUp 0 0 false 1 0 = true ∧
    canAccept (canUp.setReg (cnOff 0 0) 0x101#32) 0 0 false 1 0 = false ∧ (canUp.can 0).rcv = 0 ∧
    0 < ((canUp.setCan 0 { rcv := 1 }).can 0).rcv ∧ ((canUp.setCan 0 { rcv := 127 }).can 0).rcv ≤ 127 ∧
    (addRecord [mkH0 (canFmt 0) 0 false false false 1, mkH1 0x30 0, 0#32, 0#32, 0#32, 1#32] [1#8] {}
      (canUp.setLive 0x9000 0x120000#32)).2 = .recorded := by decide +kernel
theorem wit_CanTransmits :
    let off := canUp.setCan 0 { tec := 255, st := 2 }
    canOn canSending 0 = true ∧ ((canSending.eg 48).cur.any (fun c => c.frame.isSome)) = true ∧
    canSending.rb (cnOff 0 0x14) 8 = false ∧ (canSending.setReg (cnOff 0 0x14) 0x100#32).rb (cnOff 0 0x14) 8 = true ∧
    (canSending.rf (cnOff 0 0x14) 0 8 = 0) ∧ 96 ≤ ((canUp.setCan 0 { tec := 127 }).can 0).tec ∧ ((canUp.setCan 0 { tec := 127 }).can 0).st = 0 ∧
    ((canUp.setCan 0 { tec := 255, st := 1 }).can 0).st = 1 ∧ canUp.rb (cnOff 0 0) 5 = false ∧
    agentMayWrite 0 off (cnOff 0 0) (off.reg (cnOff 0 0) ||| 0x40#32) = true ∧ (off.can 0).st = 2 ∧
    (off.setCan 0 { st := 2, recovering := true }).rb (cnOff 0 0) 0 = true ∧
    ((off.setCan 0 { st := 2, recovering := true }).can 0).recovering = true := by decide +kernel
/-- 10BASE-T1S port 0 enabled, taking every destination, with PLCA as node 1. -/
def tsUp : State := (ran.setReg (tsOff 0 0) 7#32).setReg (tsOff 0 0x0C) 1#32
/-- A frame of 60 bytes and its FCS. -/
def frame64 : List Byte := List.replicate 64 0#8
theorem wit_T1sRuns :
    let s := sending 64 { twoChars with frame := some (.ether 0 frame64) } tsUp
    let csma := tsUp.setReg (tsOff 0 0) 5#32
    let w := sending 64 { twoChars with frame := some (.ether 0 frame64), backoff := true } csma
    tsOn tsUp 0 = true ∧ (tsUp.ts 0).oos = false ∧ mapFind tsUp.early 0x40 = none ∧ (frame64.drop 1).length < 64 ∧
    1522 < (List.replicate 1523 0#8).length ∧ 64 ≤ frame64.length ∧ macAccept (tsMac tsUp 0) (frame64.take 60) (tsUp.rb (tsOff 0 0) 2) = true ∧
    macAccept (tsMac (tsUp.setReg (tsOff 0 4) 2#32) 0) (frame64.take 60) false = false ∧
    (addRecord [mkH0 0x20 0 false false false 60, mkH1 0x40 0, 0#32, 0#32, 0#32, etherH5 frame64] (frame64.take 60) {}
      (tsUp.setLive 0x9000 0x130000#32)).2 = .recorded ∧
    ((s.eg 64).cur.any (fun c => !c.backoff && c.frame.isSome)) = true ∧ plcaActive csma 0 = false ∧
    ((w.eg 64).cur.any (fun c => c.backoff && c.frame.isSome)) = true ∧ plcaOn tsUp 0 = true ∧ tsUp.rf (tsOff 0 0x0C) 0 8 ≠ 0 ∧
    (tsUp.ts 0).lost = false ∧ (tsUp.ts 0).beacon = false := by decide +kernel
/-- Uplink 0 up, taking every destination, with stream 0 of the given configuration. -/
def euUpS (cfg : Word) : State :=
  ((ran.setReg (euOff 0 0) 0x31#32).setReg (stOff 0 0) cfg).setUp 0 { link := true }
/-- A frame of 60 bytes of the EtherType that a raw stream takes, 0. -/
def raw60 : List Byte := List.replicate 60 0#8
/-- An IPv4 packet of 20 bytes of UDP data to port 0, with its header checksum. -/
def udp60 : List Byte :=
  List.replicate 12 0#8 ++ [0x08#8, 0#8, 0x45#8, 0#8, 0#8, 46#8, 0#8, 0#8, 0#8, 0#8, 1#8, 17#8, 0xB9#8, 0xC0#8] ++ List.replicate 8 0#8 ++
    [0#8, 0#8, 0#8, 0#8, 0#8, 26#8, 0#8, 0#8] ++ List.replicate 18 0#8
/-- A PAUSE frame. -/
def pause60 : List Byte :=
  [0x01#8, 0x80#8, 0xC2#8, 0#8, 0#8, 1#8, 0#8, 0#8, 0#8, 0#8, 0#8, 0#8, 0x88#8, 0x08#8, 0#8, 1#8, 0#8, 1#8] ++ List.replicate 42 0#8
theorem wit_UplinkReceives :
    let s := euUpS 1#32
    let mac := macBytes (s.reg (euOff 0 8)) (s.reg (euOff 0 0x0C))
    euOn s 0 = true ∧ raw60.length = 60 ∧ pause60.length = 60 ∧ udp60.length = 60 ∧ macAccept mac raw60 (s.rb (euOff 0 0) 5) = true ∧
    macAccept mac (2#8 :: raw60) false = false ∧ isPause mac pause60 = true ∧ s.rb (euOff 0 0) 4 = true ∧ isPause mac raw60 = false ∧
    streamOf (euUpS 0#32) 0 raw60 (List.range 8) = none ∧ streamOf s 0 raw60 (List.range 8) = some (some 0) ∧
    streamOf (euUpS 2#32) 0 udp60 (List.range 8) = some (some 0) ∧ streamOf (euUpS 3#32) 0 udp60 (List.range 8) = some (some 0) ∧
    streamOf (euUpS 2#32) 0 (udp60.set 24 0#8) (List.range 8) = some none ∧ raw60.length ≤ 2048 ∧ mapFind s.early 0x44 = none ∧
    (addRecord [mkH0 0x21 0 false false false 60, mkH1 0x44 0, 0#32, 0#32, 0#32, etherH5 raw60] raw60 {}
      (s.setLive 0x9000 0x130000#32)).2 = .recorded := by decide +kernel
theorem wit_HeaderSpanEnds :
    let c := (canUp.setReg (cnOff 0 0) 0x81#32).setLive 0x9000 0x130000#32
    let n := (tsUp.setReg (tsOff 0 0) 0xF#32).setLive 0x9000 0x130000#32
    let e := (euUpS 5#32).setLive 0x9000 0x130000#32
    let hd := fun (f t : Nat) => [mkH0 f 0 false false false 0, mkH1 t 0, 0#32, 0#32, 0#32, 1#32]
    mapFind c.early 0x30 = none ∧ canOn c 0 = true ∧ c.rb (cnOff 0 0) 7 = true ∧ canEnabled c 0 0 = true ∧ canAccept c 0 0 false 1 0 = true ∧
    (earlyBegin (hd (canFmt 0) 0x30) [] 0 1 false c).2.2 = .recorded ∧ tsOn n 0 = true ∧ n.rb (tsOff 0 0) 3 = true ∧
    macAccept (tsMac n 0) raw60 (n.rb (tsOff 0 0) 2) = true ∧ (earlyBegin (hd 0x20 0x40) raw60 0 0 false n).2.2 = .recorded ∧ euOn e 0 = true ∧
    bit (streamReg e 0 0) 2 = true ∧ rawMatch e 0 raw60 = true ∧
    macAccept (macBytes (e.reg (euOff 0 8)) (e.reg (euOff 0 0x0C))) raw60 (e.rb (euOff 0 0) 5) = true ∧
    streamOf e 0 raw60 (List.range 8) = some (some 0) ∧ (earlyBegin (hd 0x21 0x44) raw60 0 0 false e).2.2 = .recorded := by decide +kernel
theorem wit_UplinkLinkFalls : (ran.up 0).link = false ∧ ((euUpS 1#32).up 0).link = true ∧ ran.awake = true := by decide +kernel
theorem wit_UplinkSends :
    let f := fun (k : Word) => ({ stream := 0, sents := [{ lq := 0, ref := {}, body := [] }], bytes := raw60, cfg := [k] } : UpFrame)
    let s := fun k => (euUpS 1#32).setUp 0 { link := true, closed := [f k] }
    bit ((ran.setReg (euOff 0 0) 1#32).reg (euOff 0 0)) 0 = true ∧ agentMayWrite 0 ran (euOff 0 0) 1#32 = true ∧
    ((s 1#32).up 0).link = true ∧ euPaused (s 1#32) 0 0 = false ∧ euPaused ((s 1#32).setUp 0 { pauseEnd := 5 }) 0 0 = true ∧
    bit ((s 1#32).reg (euOff 0 0)) 0 = true ∧ ((s 1#32).up 0).closed = [f 1#32] ∧ (f 1#32).cut = false ∧
    field (wordAt (f 1#32).cfg 0) 0 2 = 1 ∧ field (wordAt (f 2#32).cfg 0) 0 2 = 2 ∧ field (wordAt (f 3#32).cfg 0) 0 2 = 3 ∧ (f 1#32).sents ≠ [] ∧
    hostMayRead ran (euOff 0 0x24) = true ∧ ((ran.setUp 0 { txts := [{ h1 := 1#32, dt := 2 }] }).up 0).txts ≠ [] := by decide +kernel

/-! ### Engines, seam, checkpoints -/

/-- A header of index 0 of talker 0 and class 0. -/
def hd0 : Header := { h := [0#32, 0#32, 0#32, 0#32, 0#32, 0#32] }
/-- An entry that decides nothing, and one that drops. -/
def entry0 : DecEntry := { hdr := hd0, dec := {}, bank := 0 }
def entry1 : DecEntry := { hdr := hd0, dec := { drop := .ruleDrop }, bank := 0 }
def entry2 : DecEntry := { hdr := hd0, dec := { lset := 1#128 }, bank := 0 }
/-- Engines with entries at their heads. -/
def heads (a b c : List DecEntry) (s : State) : State := ((s.setEng 0 { align := a }).setEng 1 { align := b }).setEng 2 { align := c }
/-- Split. -/
def splitUp : State := modSeam (fun x => { x with split := true }) ran
theorem wit_HeadersDecided :
    let q : State := ((ran.setLive 0x9000 0x120000#32).setPin 0 { words := 7, wait := 1 }).setMrg 0 { q := [.head 0 hd0 none] }
    let s := ran.setEng 0 { inbox := [.head hd0 0] }
    let p := ran.setEng 0 { inbox := [.token 0 1 true], parked := [{ hdr := hd0, bank := 0 }] }
    let x := splitUp.setEng 0 { inbox := [.head hd0 0] }
    mayIssue q 0 = true ∧ q.cons.stitch = none ∧ (q.pin 0).isSome = true ∧ (q.mrg 0).q = [.head 0 hd0 none] ∧
    (readWords 0 6 0 (q.setMrg 0 { q := [] })).2.2 = [true, true, true, true, true, true] ∧ engWorks s 0 = true ∧ s.awake = true ∧
    ((pull 0 s).eng 0).inbox = [.head hd0 0] ∧ ((pull 0 s).eng 0).align.length < 64 ∧
    (engDecide (pull 0 s) ((pull 0 s).eng 0) hd0 0 0 false).isSome = true ∧
    ((pull 0 (mergeTokens 0 0 p)).eng 0).inbox = [.token 0 1 true] ∧
    ((pull 0 (mergeTokens 0 0 p)).eng 0).parked.any (fun y => y.hdr.addr = 0) = true ∧ (engDecide p (p.eng 0) hd0 0 1 true).isSome = true ∧
    x.split = true ∧ seamOpen x = true ∧ restarting x 0 = false ∧ (x.eng 0).inbox = [.head hd0 0] ∧ (ran.eng 0).join = none ∧
    (ran.eng 0).owed = [] := by decide +kernel
/-- A talker's extractor takes a bit of the payload that has not come yet. -/
theorem wit_HeadersDecided_parks :
    let hd : Header := { hd0 with early := true }
    let b : Bank := [(tkey 0 0, { img := [0#32, 1#32] }), (tkey 1 0, { img := [0#32, 0#32, 0x200#32, 0#32] }),
      (tkey 2 0, { img := [2#32, 0#32, 0#32, 0#32] })]
    let g : Eng := { inbox := [.head hd 0], bank0 := b }
    (engDecide ran g hd 0 0 false).isNone = true ∧ (engDecide ran g hd 0 0 true).isSome = true ∧ engWorks (ran.setEng 0 g) 0 = true := by
  decide +kernel
theorem wit_DecisionsReleased :
    let s := heads [entry0] [entry0] [entry0] ran
    let d := heads [entry0] [entry1] [entry2] ran
    let two := (heads [entry0] [entry0] [] ran).setEng 2 { st := 1 }
    let dis := (heads [entry0] [entry1] [] ran).setEng 2 { st := 1 }
    let x := splitUp.setEng 0 { align := [entry0] }
    let one := heads [entry0] [] [] ran
    let t := fun r => modSeam (fun y => { y with dev := 1, round := r }) ran
    s.awake = true ∧ seamOpen s = true ∧ s.split = false ∧ badHeads s = [] ∧ 3 ≤ (ballot s).length ∧ (ran.eng 0).join = none ∧
    voters s = [(0, entry0), (1, entry0), (2, entry0)] ∧ agrees entry0 entry0 = true ∧ (laneDiff entry0 entry1).isSome = true ∧
    voters d = [(0, entry0), (1, entry1), (2, entry2)] ∧ agrees entry0 entry1 = false ∧ agrees entry0 entry2 = false ∧ agrees entry1 entry2 = false ∧
    (ballot two).length < 3 ∧ voters two = [(0, entry0), (1, entry0)] ∧ voters dis = [(0, entry0), (1, entry1)] ∧ badHeads dis = [] ∧
    x.split = true ∧ restarting x 0 = false ∧ (x.eng 0).align = [entry0] ∧ seamOpen x = true ∧ voters one = [(0, entry0)] ∧
    badHeads one = [] ∧ (goodEngs one 0).find? (fun i => decide ((one.eng i).owed ≠ [])) = none ∧
    (t 2).awake = true ∧ (t 2).engRun = true ∧ (t 2).seam.dev = 1 ∧ (t 2).seam.sa = 0 ∧ (t 2).seam.sb = 0 ∧ (t 2).seam.round < 3 ∧
    3 ≤ (t 3).seam.round := by decide +kernel
theorem wit_EnginesMended :
    let r := ran.setEng 1 { st := 2 }
    let j := ran.setEng 1 { st := 2, copied := true }
    let t := modSeam (fun x => { x with test := [0], sa := 1 }) ran
    let c := ({ ran with cuts := [(0, { idx := 0, pos := [] })] } : State).setEng 0 { snap := some ({}, []) }
    let c := (c.setEng 1 { snap := some ({}, []) }).setEng 2 { snap := some ({}, []) }
    let w := { (modSeam (fun x => { x with restarting := 7, dev := 2 }) ran) with ckpts := [(0, ({} : Ckpt))] }
    ran.awake = true ∧ ran.engRun = true ∧ ran.seam.dev ≠ 3 ∧ restarting ran 0 = false ∧ ran.split = false ∧ (ran.eng 0).st = 0 ∧ (r.eng 1).st = 2 ∧
    ran.rf 0x8008 0 16 ≠ 0 ∧ ran.seam.restarting = 0 ∧ (goodEngs ran 0).filter (nbit (0#3 : BitVec 3).toNat) = [] ∧
    (goodEngs ran 0).filter (nbit (2#3 : BitVec 3).toNat) = [1] ∧ (goodEngs r 0).filter (nbit (1#3 : BitVec 3).toNat) = [0] ∧
    (goodEngs r 0).length = 2 ∧ (goodEngs ran 0).filter (nbit (6#3 : BitVec 3).toNat) = [1, 2] ∧ mrgFresh ran 0 = true ∧ goodEngs ran 0 ≠ [] ∧ [0, 1, 2].find? (fun e => decide ((r.eng e).st = 2)) = some 1 ∧
    lowestGood r = some 0 ∧ (r.eng 1).copied = false ∧ (j.eng 1).copied = true ∧ seamOpen j = true ∧
    (j.eng 0).inbox.length ≤ (j.eng 1).inbox.length ∧ t.seam.test = [0] ∧ t.seam.sa = 1 ∧ t.seam.readmit = false ∧
    cutReady (forAll [0, 1, 2] (fun e s => whenDo (engWorks s e) (pull e) s) c) = some (0, { idx := 0, pos := [] }) ∧
    (goodEngs c 0).filter (nbit (0#3 : BitVec 3).toNat) = [] ∧ (goodEngs c 0).filter (nbit (2#3 : BitVec 3).toNat) = [1] ∧
    (goodEngs c 0).length = 3 ∧ c.split = false ∧ goodEngs (c.setEng 2 { st := 3 }) 0 = [0, 1] ∧
    (liveEngs w).all (nbit (7#3 : BitVec 3).toNat) = true ∧ (liveEngs w).all (nbit (3#3 : BitVec 3).toNat) = false ∧ w.seam.restarting ≠ 0 ∧ w.split = false ∧ (mapFind w.ckpts 0).isSome = true ∧
    w.cons.stitch = none ∧ w.seam.restarting = 7 ∧ w.seam.dev = 2 ∧ (restartMerger 0 [] {} w).cons.stitch = none ∧ (restartMerger 0 [] {} w).seam = w.seam ∧
    3 ≤ (goodEngs ran 0).length ∧ (ran.eng 0).join = none := by decide +kernel

/-! ### Routing, the store, cells, staged configuration -/

/-- A rate cell with its due emission, and a template of nothing. -/
def cellUp (im : List Word) (x : CellSt) : State :=
  { (((ran.setEng 0 { bank0 := [(tkey 8 0, { img := [0#32, 0#32] }), (tkey 9 1023, { img := im })] }).setCell 1023 x).setLive 0x9000 0x120000#32)
    with tape := { clk := 3 * 2 ^ 40 * 1000000 } }
theorem wit_SentencesPlaced :
    let j : FanJob := { mrg := 0, ent := entry0, derive := true }
    let s := { ran with fan := [j] }
    let h : Held := { mrg := 0, idx := 0, addr := 0, orig := 0, dec := {}, bank := 0, target := .dt 0 }
    let u := fun n => { ran with tape := { held := [{ h with need := n }] } }
    let p := (ran.setPin 0 {}).setPin 64 { idx := 5 }
    let c : Nat → Cand := fun k => { lq := 0, bob := 0, ref := { addr := 64, cls := k } }
    let l := ((((ran.setReg (apOff 0 0) 1#32).setLive 0x9000 0x120000#32).setLive (lqOff 0) 0x80000000#32).setPin 0 { refs := 1 }).setBob 0 { wp := 2 }
    let l := { l with laneLq := [(0, 0)] }
    s.awake = true ∧ nextDerive s s.fan = some j ∧ j.later = false ∧ (((ran.setPin 0 { bad := true }).pin 0).map (·.bad)).getD false = true ∧
    ((ran.pin 0).map (·.bad)).getD false = false ∧
    (deriveRecord ran { entry0 with dec := { tmpl := some 0 } } (checkRecord 2 0 0 ran).2).isNone = true ∧ stitchFirstDue (u true) = false ∧
    fitFirstDue (u true) = false ∧ (heldDue (u true)).map (·.need) = [true] ∧ (heldDue (u false)).map (·.need) = [false] ∧
    epReady (serviceBoundary 0 l) 0 = true ∧ (choose (egRefresh 0 (serviceBoundary 0 l)) 0).1.isSome = true ∧
    (lowestIdx p 0 [c 0]).isSome = true ∧ (lowestIdx p 0 [c 1]).isNone = true ∧ (lowestIdx p 1 [c 1, c 1]).isSome = true := by decide +kernel
theorem wit_StoreKept :
    let b := ((ran.setLive 0x9000 0x160000#32).setBob 0 { wp := 9, notch := some 4, lease := 0x10000#32 })
    let b2 := ran.setLive 0x9000 0x120000#32
    let f := b2.setBob 0 { wp := 9, rp := 3 }
    let sc := (ran.setReg 0x8F10 1#32).setLive 0x9000 0x120000#32
    ran.awake = true ∧ (b.bob 0).notch.isSome = true ∧ classL b 0 = true ∧ field (b.bob 0).lease 16 2 = 1 ∧ agentMayWrite 0 b 0x900C 1#32 = true ∧
    agentMayWrite 0 f 0x900C 1#32 = true ∧ classL f 0 = false ∧ mapFind f.laneLq 0 = none ∧ (f.bob 0).rp < (f.bob 0).wp ∧
    sc.rb 0x8F10 0 = true ∧ sc.scan < 0x100000 ∧ sc.scan ≤ 5 ∧ 5 < ({ sc with scan := 7 } : State).scan ∧ storeWf sc = true ∧
    parityOk (sc.word 0) = true ∧ parityOk (sc.word 0 ^^^ BitVec.ofNat 33 (2 ^ (32 : Fin 33).val)) = false ∧
    bobOfAddr { sc with store := mapSet (dflt 0#33) sc.store 0 1#33 } 0 512 = some 0 ∧
    (let p : Pin := { refs := 1 }; (ran.setPin 2097150 p).pin (2097150 : Fin 2097152) = some p ∧ p.complete = true ∧ p.holds = 0 ∧ p.wait = 0 ∧ p.refs ≠ 0) := by
  decide +kernel
theorem wit_CellsRun :
    let im := [4#32, 1000#32, 0#32, 0#32, 0#32, 0x10#32]
    let drop := [0xC#32, 1000#32, 0#32, 1#32, 0#32, 0x10#32]
    let d := cellUp im { nextDt := some 1000000 }
    let e := cellUp im { v0 := { wr := true }, due := some (5, 5000) }
    let g := cellUp drop { v0 := { wr := true, time := 0 }, due := some (1000000, 5000) }
    stitchFirstDue d = false ∧ fitFirstDue d = false ∧ heldDue d = [] ∧ (cellFalls d 1023).isSome = true ∧ (d.cell 1023).due = none ∧
    ((cellUp im { nextDt := some 1000000, due := some (1, 1) }).cell 1023).due = some (1, 1) ∧ cellEn d 1023 = true ∧ cellTrig d 1023 = 0 ∧
    dueCells e = [(1023, 5, 5000)] ∧ (reqSlots im).any (fun i => !((cellUp im {}).cell 1023 |>.slot i).wr) = true ∧ reqSlots im = [0] ∧
    ((e.cell 1023).slot 0).wr = true ∧ slotStale im 5 ((e.cell 1023).slot 0) = false ∧ slotStale drop 1000000 ((g.cell 1023).slot 0) = true ∧
    bit (wordAt drop 0) 3 = true ∧ img (devBank e) 8 0 ≠ [] ∧ (cellUp im { v0 := { wr := true }, due := some (5, 999999999999) }).now ≤ 999999999999 + 1000000 ∧
    (addRecord [mkH0 0x40 0 false false false 8, mkH1 0x7FF 0, 0#32, 0#32, 0#32, 0#32] (List.replicate 8 0#8) {} e).2 = .recorded := by decide +kernel
theorem wit_StagedChanges :
    let s := modCons (fun c => { c with stitch := some {} }) ran
    let r := modCons (fun c => { c with rebaste := true, rebasteGo := true }) ran
    let f : Fit := {}
    let c : Fit := { captured := true }
    let a := modCons (fun x => { x with fits := [f, { bank := 1 }] }) ran
    let w := modCons (fun x => { x with fits := [c], shadow := [(0, [])] }) ran
    stitchFree s = true ∧ stitchDue s = true ∧ s.cons.stitch.isSome = true ∧ r.cons.rebaste = true ∧ r.cons.rebasteGo = true ∧
    r.cons.rebasteRun = false ∧ oldBankWork r = false ∧ (modCons (fun c => { c with rebasteRun := true }) r).cons.rebasteRun = true ∧
    a.cons.fits.drop 1 = [{ bank := 1 }] ∧ stitchFirstDue a = false ∧ fitDue a f = true ∧ a.seam.restarting = 0 ∧ f.status = 0 ∧
    w.cons.fits.find? (fun f => decide (f.bank = 0)) = some c ∧ mapFind w.cons.shadow 0 = some [] ∧ c.captured = true ∧ w.hostUp = true := by
  decide +kernel

/-! ### The tape unit and the check units -/

/-- An EXT or other channel 0 in a state. -/
def chanAt (mode : Word) (st : Nat) (c : Chan) : State :=
  (ran.setReg (prOff 0 0) mode).setChan 0 { c with segs := [{ st := st }] }
theorem wit_ClockKept :
    let srv := fun k st => ({ ran.setReg 0x3020 k with tape := { servo := st } } : State)
    let pps := { ran.setReg 0x3030 1#32 with tape := { ppsNext := some 0, ppsActive := true } }
    agentMayWrite 0 ran 0x301C 1#32 = true ∧ agentMayWrite 0 ran 0x3010 1#32 = true ∧ ran.rf 0x3020 0 2 = 0 ∧ (srv 1#32 1).rf 0x3020 0 2 ≠ 0 ∧
    agentMayWrite 0 (srv 1#32 1) 0x3010 1#32 = true ∧ sInt 0x20C49BA5#32 ≤ 0x20C49BA5 ∧ -0x20C49BA5 ≤ sInt 0xDF3B645B#32 ∧
    0x20C49BA5 < sInt 0x20C49BA6#32 ∧ sInt 0xDF3B645A#32 < -0x20C49BA5 ∧ agentMayWrite 0 ran 0x3000 1#32 = true ∧
    agentMayWrite 0 ran 0x3020 1#32 = true ∧ agentMayWrite 0 ran 0x3024 1#32 = true ∧ (srv 1#32 2).tape.servo = 2 ∧
    2 ^ ((srv 1#32 2).rf 0x3020 5 3) * 1000 < (1001 : Int).natAbs ∧ 2 ^ ((srv 1#32 2).rf 0x3020 8 4) < (1001 : Int).natAbs ∧ (srv 1#32 3).tape.servo = 3 ∧ (srv 1#32 1).tape.servo = 1 ∧
    (srv 2#32 2).rf 0x3020 0 2 ≠ 1 ∧ (srv 1#32 2).rf 0x3020 0 2 = 1 ∧ (srv 1#32 2).awake = true ∧ pps.tape.ppsNext = some 0 ∧ 0 ≤ pps.dt ∧
    pps.rb 0x3030 0 = true ∧ pps.tape.ppsActive = true := by decide +kernel
theorem wit_PhaseChannels :
    let z := fun st => chanAt 1#32 st { lastEv := some 0 }
    prMode ((z 4).reg (prOff 0 0)) = 1 ∧ field ((z 4).chan 0).cfg 16 2 = 0 ∧ chanSt ((z 4).chan 0) = 4 ∧ chanSt ((z 1).chan 0) = 1 ∧
    chanSt ((z 3).chan 0) = 3 ∧ (phaseErr 0 0).natAbs < 0x400000000000000 ∧ chanSt ((z 2).chan 0) = 2 ∧
    prMode ((chanAt 2#32 2 {}).reg (prOff 0 0)) = 2 ∧ chanSt ((chanAt 2#32 2 {}).chan 0) ≠ 0 ∧ bit ((chanAt 2#32 2 {}).reg (prOff 0 0)) 7 = false ∧
    chanSt ((z 3).chan 0) = 3 ∧ bit ((chanAt 0x82#32 2 {}).reg (prOff 0 0)) 7 = true ∧ agentMayWrite 0 (z 2) (prOff 0 0) 1#32 = true ∧
    prMode (1#32 &&& 0x0FFFFFFF#32) = prMode ((z 2).reg (prOff 0 0)) ∧ prMode (2#32 &&& 0x0FFFFFFF#32) ≠ prMode ((z 2).reg (prOff 0 0)) ∧
    prMode (2#32 &&& 0x0FFFFFFF#32) ≠ 0 ∧ agentMayWrite 0 (chanAt 4#32 2 {}) (prOff 0 0x1C) 0#32 = true ∧
    prMode ((chanAt 4#32 2 {}).reg (prOff 0 0)) = 4 ∧ ((chanAt 4#32 2 { extDt := some 0 }).chan 0).extDt = some 0 ∧ ((chanAt 4#32 2 {}).chan 0).extDt = none ∧
    prMode ((chanAt 2#32 2 {}).reg (prOff 0 0)) = 2 := by decide +kernel
theorem wit_StrobesFire :
    let s := fun cfg a => ((ran.setReg (poOff 0 0) cfg).setReg (poOff 0 0x0C) 100#32).setStrobe 0 { next := some 0, active := a }
    agentMayWrite 0 (s 1#32 false) (poOff 0 0) 0#32 = true ∧ bit (0#32 : Word) 0 = false ∧ agentMayWrite 0 (s 1#32 false) (poOff 0 8) 5#32 = true ∧
    (s 3#32 false).rb (poOff 0 0) 0 = true ∧ timedFirst (s 3#32 false) = false ∧ ((s 3#32 false).strobe 0).next = some 0 ∧ 0 ≤ (s 3#32 false).dt ∧
    poMode (s 3#32 false) 0 = 1 ∧ ((s 3#32 false).reg (poOff 0 0x0C)).toNat ≠ 0 ∧ ((s 3#32 false).strobe 0).active = false ∧
    poMode (s 5#32 true) 0 = 2 ∧ ((s 5#32 true).strobe 0).active = true := by decide +kernel
theorem wit_CheckUnits :
    let o := fun n => cuOff 0 n
    let c := fun (k : CkCtx) => ran.setCtx 0 k
    let boot := modBoot (fun b => { b with stage := 1, phase := 0 }) ran
    (ran.cu 0).testing = false ∧ agentMayWrite 0 ran (o 0x40) 1#32 = true ∧ agentMayWrite 0 ran (o 0x40) 2#32 = true ∧ (ran.ctx 0).started = false ∧
    ((c { started := true }).ctx 0).started = true ∧ bit ((c { started := true, cfg := 0x20#32 }).ctx 0).cfg 5 = true ∧
    (let k : CkCtx := { started := true, cfg := 0x20#32 }
     let m : CkCtx := { k with exp := BitVec.ofNat 64 (k.final 0) }
     m.final m.run.toNat = maskW m.width m.exp.toNat ∧ k.final k.run.toNat ≠ maskW k.width (m.exp + 1#64).toNat) ∧ agentMayWrite 0 ran (o 0x40) 8#32 = true ∧ agentMayWrite 0 ran (o 0x40) 4#32 = true ∧
    (mapGet (dflt ({} : CkCtx)) [(15, { started := true })] (16 * 0 + 15)).started = true ∧ (mapGet (dflt ({} : CkCtx)) ran.cuCtx 15).started = false ∧
    ((ran.setCu 0 { testing := true }).cu 0).testing = true ∧ agentMayWrite 0 ran (o 0x34) 1#32 = true ∧ agentMayWrite 0 ran (o 0x3C) 1#32 = true ∧
    agentMayWrite 0 ran (o 4) 1#32 = true ∧ bit (1#32 : Word) 0 = true ∧ openOk ran = false ∧ openOk boot = true ∧
    agentMayWrite 0 ran (o 8) 1#32 = true ∧ agentMayWrite 0 boot (o 0x14) 1#32 = true ∧ agentMayWrite 0 ran (o 0x24) 1#32 = true := by
  decide +kernel

/-! ### The peer link -/

theorem wit_PeerLinkRuns :
    let en := (ran.setReg 0xC000 1#32)
    let up := { linked with boot := { phase := 3, done := true } }.setReg 0xC000 1#32
    let tr := modPeer (fun p => { p with st := 1 }) (ran.setReg 0xC000 3#32)
    let un := modPeer (fun p => { p with unacked := [{ hdr := 0#32, pay := [] }], replays := 7 }) up
    agentMayWrite 0 ran 0xC000 (ran.reg 0xC000 ||| 1#32) = true ∧ ran.peer.st = 0 ∧ bit (ran.reg 0xC000) 2 = false ∧
    agentMayWrite 0 up 0xC000 (up.reg 0xC000 ||| 4#32) = true ∧ up.peer.st = 2 ∧ bit (up.reg 0xC000) 0 = true ∧ en.awake = true ∧
    tr.rb 0xC000 0 = true ∧ tr.rb 0xC000 1 = true ∧ peerUp tr = false ∧ tr.peer.retraining = false ∧ tr.peer.bootWait = false ∧ peerUp up = true ∧
    field (0#32 : Word) 0 2 ≠ 3 ∧ field (0#32 : Word) 2 10 = (flitHeader 0#32 up).peer.rxSeq ∧ un.peer.unacked ≠ [] ∧ peerUp un = true ∧ 8 ≤ un.peer.replays + 1 ∧
    (let f := mkH0 0x21 0 false false false 0 :: List.replicate 6 0#32
     let s := (ran.setLive 0x9000 0x120000#32)
     let g := [w32 (7 * 64), 0#32] ++ f
     (frameRecord 0 g s).2 = true) ∧
    (let s := modPeer (fun p => { p with sent := [(0, [(0, {}, 5)])] }) up
     mapGet (dflt []) s.peer.sent 0 = [(0, {}, 5)] ∧ s.peer.unacked.any (fun f => field f.hdr 2 10 = 5) = false) ∧
    (let f := [0#32, 0#32]; bit (wordAt f 1) 16 = false ∧ trailerOf ((f.drop 1).take 6) ((f.drop 7).take 0) ≠ wordAt f 0) := by decide +kernel
theorem wit_BridgeServes :
    let up := { ran with peer := linked.peer }
    let w := fun c => up.setReg 0xC040 c
    let rd := modPeer (fun p => { p with reads := [(3, 0xC800)], writes := [{ tag := 4, win := 0, addr := 0, posted := false }], inUnacked := 1 }) up
    let lg := modPeer (fun p => { p with olog := [{ tag := 0, reason := 5, win := 0, addr := 0 }], ilog := [{ tag := 0, reason := 1, win := 0, addr := 0 }] }) up
    hostServed up = true ∧ up.boot.done = true ∧ locked up = false ∧ bit (winCfg (w 0#32) 0) 0 = false ∧ bit (winCfg (w 3#32) 0) 0 = true ∧
    bridgeBusy (w 3#32) = false ∧ (w 3#32).peer.lockFault.contains 0 = false ∧ peerUp (ran.setReg 0xC040 1#32) = false ∧ bit (winCfg (ran.setReg 0xC040 1#32) 0) 0 = true ∧
    peerUp (w 3#32) = true ∧ reqRoom (w 3#32) = true ∧ bit (winCfg (w 3#32) 0) 1 = true ∧ lockState (w 3#32) 0 ≠ 2 ∧
    (w 3#32).peer.writes.length < 256 ∧ bit (winCfg (w 1#32) 0) 1 = false ∧ npRoom 1 (w 1#32) = true ∧ npRoom 1 (w 3#32) = true ∧
    (modPeer (fun p => { p with lockFault := [0] }) (w 1#32)).peer.lockFault.contains 0 = true ∧ bridgeBusy (w 1#32) = false ∧ bit (winCfg (w 1#32) 0) 0 = true ∧ up.peer.inLock = none ∧
    up.peer.bootWait = false ∧ (0x8008#16 : BitVec 16).toNat / 0x1000 ≠ 0xC ∧ (0xC000#16 : BitVec 16).toNat / 0x1000 = 0xC ∧
    inboundError 0x8008 true (count (ctPb 30) 1 up) = 0 ∧ (regInfo 0x8008).isSome = true ∧ inboundError 0x8009 true (count (ctPb 30) 1 up) = 3 ∧
    rd.peer.reads.find? (fun r => r.1 = (3#10 : BitVec 10).toNat) = some (3, 0xC800) ∧
    (rd.peer.writes.find? (fun w => w.tag = (4#10 : BitVec 10).toNat && !w.posted)).isSome = true ∧ rd.peer.inUnacked ≠ 0 ∧ peerUp rd = true ∧
    hostMayRead lg 0xC084 = true ∧ hostMayRead lg 0xC094 = true ∧ lg.peer.olog ≠ [] ∧ lg.peer.ilog ≠ [] := by decide +kernel
theorem wit_LocksHeld :
    let up := ({ ran with peer := linked.peer } : State).setReg 0xC078 4#32
    let held := fun st t => modPeer (fun p => { p with lockWin := some 7, lockSt := [(7, st)], lockTry := [(7, t)] }) up
    let w := modPeer (fun p => { p with lockWin := some 7, lockWait := true, lockSt := [(7, 1)] }) up
    agentMayWrite 0 up (0xC044 + 8 * 7) 1#32 = true ∧ up.peer.lockWin = none ∧ bit (winCfg up 7) 2 = true ∧ peerUp up = true ∧
    peerUp (ran.setReg 0xC078 4#32) = false ∧ bit (winCfg (ran.setReg 0xC078 4#32) 7) 2 = true ∧
    agentMayWrite 0 (modPeer (fun p => { p with lockWin := some 0 }) up) (0xC044 + 8 * 7) 1#32 = true ∧
    agentMayWrite 0 (held 2 0) (0xC044 + 8 * 7) 2#32 = true ∧ (held 1 0).peer.lockWin = some 7 ∧ lockState (held 1 0) 7 = 1 ∧ (held 1 0).rank = false ∧
    ({ up with rank := true } : State).rank = true ∧ (held 1 0).peer.lockWait = false ∧
    mapGet (dflt 0) (held 1 0).peer.lockTry 7 + 1 < ((held 1 0).setReg 0xC010 0x300#32).rf 0xC010 8 4 ∧
    ((held 1 2).setReg 0xC010 0x300#32).rf 0xC010 8 4 ≤ mapGet (dflt 0) (held 1 2).peer.lockTry 7 + 1 ∧ w.peer.lockWait = true ∧ npRoom 1 w = true ∧ npRoom 1 (agentPre 0 up) = true ∧
    npRoom 1 (agentPre 0 (setCredit 8 0 up)) = false ∧ agentMayWrite 0 (setCredit 8 0 up) (0xC044 + 8 * 7) 1#32 = true ∧
    lockState (held 2 0) 7 = 2 ∧ (held 2 0).awake = true := by decide +kernel

/-! ### Power, resets, monitors, the test access port -/

theorem wit_PowerMoves :
    let z := fun k => ({ ran with pw := { st := k } } : State)
    let h := fun k => (z k).setReg 0x2004 0x3C#32
    let hib : State := { ran with pw := { st := 4, waking := true, hib := some {} } }
    wakeAllowed ((z 2).setReg (apOff 0 0x20) 1#32) true = true ∧ ((z 2).setReg (apOff 0 0x20) 1#32).rb (apOff 0 0x20) 0 = true ∧
    wakeAllowed (h 2) true = true ∧ (h 2).rb 0x2004 2 = true ∧ (h 2).rb 0x2004 3 = true ∧ agentMayWrite 0 (h 2) 0x2010 1#32 = true ∧
    (h 2).rb 0x2004 4 = true ∧ wakeAllowed (h 2) false = true ∧ hostServed (h 3) = true ∧ wakeAllowed (h 3) false = true ∧ (h 3).rb 0x2004 5 = true ∧
    (h 3).tape.wakeDone = false ∧ (mkD ((h 3).reg 0x200C) ((h 3).reg 0x2008)).toNat ≤ (h 3).dt ∧ (h 2).pw.req = none ∧ (h 2).rf 0x2004 0 2 ≠ 2 ∧
    (h 3).pw.waking = false ∧ (z 4).pw.waking = false ∧ ({ ran with pw := { req := some 3 } } : State).awake = true ∧
    (ran.eg 69).cur = none ∧ hibReady ({ ran with pw := { req := some 4 } } : State) = true ∧ ran.pw.latched = none ∧ hib.pw.waking = true ∧
    hib.pw.hib.isSome = true := by decide +kernel
theorem wit_ResetsAndMonitors :
    ran.inReset = false ∧ ran.testEn = false ∧ ran.pw.st ≠ 4 ∧ ({ ran with pw := { pwrReq := false } } : State).pw.pwrReq = false ∧ ran.awake = true ∧
    nextSlot ran.pw.pers = (0, 1) ∧ (nextSlot [(7, (3, 0))]) = (0, 4) ∧ nextSlot ran.pw.slow = (0, 1) ∧ (ran.setReg 0x2028 1#32).rf 0x2028 0 16 ≠ 0 ∧
    ({ ran with tap := { st := 1 } } : State).tap.st ≠ 3 ∧ ({ ran with tap := { st := 4 } } : State).tap.st = 4 ∧
    ({ ran with tap := { st := 3, ir := 1 } } : State).tap.ir = 1 ∧ ({ ran with tap := { st := 15 } } : State).tap.st = 15 := by decide +kernel

/-! ## The worked examples of the spec -/

/-- The state after one step that runs a command. -/
def after (c : Instr) (s : State) : State :=
  match step (s.withCommand c) with
  | .next t => t
  | _ => State.reset
/-- The characters of a string. -/
def text (s : String) : List Byte := s.toList.map asc
/-- A sentence through the IEC 61162-1 parser: payload, status and type code. -/
def parse (g : IecCfg) : Iec → List Byte → List Byte × Nat × Word
  | i, [] => (i.pay, 8, 0#32)
  | i, c :: t =>
    match iecChar g i c with
    | .more j => parse g j t
    | .done j st _ => (j.pay, st, iecH5 j)

/-- The speed log on AP14 of 04_ingress_framing.md: U1 has status OK, U2 CHECKSUM, U3 is ended by the start of U4. -/
theorem test_speed_log :
    let g : IecCfg := { cks := 2, tag := 0, lenient := false, maxlen := 82, tagmax := 0 }
    let u := fun l => parse g (iecBegin false 0x24#8) (text l)
    u "VWVBW,4.5,0.1,A*2F\r\n" = (text "$VWVBW,4.5,0.1,A", 0, 0x36DF68B7#32) ∧
    u "VWVBW,4.6,0.1,A*2F\r\n" = (text "$VWVBW,4.6,0.1,A", 1, 0x36DF68B7#32) ∧ u "VWVBW,4.$" = (text "$VWVBW,4.", 7, 0x36DF68B7#32) := by
  decide +kernel
/-- The heading sentence on AP5 of 02_sentence_record.md: its type code and the tail that egress puts behind it. -/
theorem test_heading :
    parse { cks := 2, tag := 0, lenient := false, maxlen := 82, tagmax := 0 } (iecBegin false 0x24#8) (text "HEHDT,274.5,T*2B\r\n") =
      (text "$HEHDT,274.5,T", 0, 0x28968934#32) ∧
    asyncStream false 0x01 (text "$HEHDT,274.5,T") true = some (text "$HEHDT,274.5,T*2B\r\n") ∧
    bytesWords (text "$HEHDT,274.5,T") = [0x48454824#32, 0x322C5444#32, 0x352E3437#32, 0x0000542C#32] ∧
    mkH0 1 3 false false false 14 = 0x0160000E#32 ∧ mkH1 5 0x3A41C = 0x0053A41C#32 := by decide +kernel
/-- The charger's CAN FD frame on CN2 of 02_sentence_record.md: H0, H1, H5 and the payload words. -/
theorem test_charger_frame :
    let d := [0x34#8, 0x30#8, 0#8, 0#8, 0x18#8, 0xE8#8, 0xFF#8, 0xFF#8, 0xC3#8, 0xE7#8, 0xFF#8, 0xFF#8, 7#8, 1#8, 0#8, 0#8]
    mkH0 (canFmt 2) 2 false false false 16 = 0x11400010#32 ∧ mkH1 0x32 0x8C5E = 0x03208C5E#32 ∧
    canType 2 false 0x2A4 false 0#8 0#8 = 0x400002A4#32 ∧
    bytesWords (canPay 2 0 0#32 d) = [0x00003034#32, 0xFFFFE818#32, 0xFFFFE7C3#32, 0x107#32] := by decide +kernel
/-- R47: three after 0xF_FFFE is 0x0_0001, with two numbers missing; half a range on is out of order. -/
theorem test_gap : seqGap 0xFFFFE 0x00001 = some 2 ∧ seqGap 5 5 = none ∧ seqGap 0 0x80000 = none ∧ seqGap 0 0x7FFFF = some 0x7FFFE := by
  decide +kernel
/-- Templates T41 and T7 of 06_translation_rate_cells.md. -/
theorem test_templates :
    let t41 := [0x00050E01#32, 0x30C77AE3#32, 0x7001#32, 0x4583#32, 0x1061#32, 0x4593#32, 0x1061#32, 0x45A3#32, 0x57515024#32, 0x002C434B#32]
    let t7 := [0x00020B10#32, 0x318#32, 0x00F00005#32, 0x00F00415#32, 0x01020036#32, 0#32, 0#32]
    tmplOk t41 = true ∧ tmplOk t7 = true ∧
    runTemplate t41 { vals := [some 12340#32, some 0xFFFFE818#32, some 0xFFFFE7C3#32, none], bind := 0#32 } = text "$PQWKC,12.3,-6.1,-6.2" ∧
    runTemplate t7 { vals := [some 860#32, some 5470#32, none, none], bind := 0#32 } = [0x5C#8, 0x03#8, 0x5E#8, 0x15#8, 0xA3#8] ∧
    asyncStream false 0x01 (text "$PQWKC,12.3,-6.1,-6.2") true = some (text "$PQWKC,12.3,-6.1,-6.2*6F\r\n") := by decide +kernel
/-- The bound CRC-8 on CU3 of 11_check_units.md: START, DATA4 and FINISH, each one step. -/
theorem test_bound_crc8 :
    let k : CkCtx := { cfg := 0x36#32, bind := 0x52C00007#32, exp := 0xC6#64 }
    let s := (ran.setReg (cuOff 3 0) 5#32).setCtx 3 k
    ((after (.ckStart 0 3) s).ctx 3).run = 0x95#64 ∧
    ((after (.ckDataWrite 0 3 2 0x155E035C#32) (s.setCtx 3 { k with run := 0x95#64, started := true })).ctx 3).run = 0x39#64 ∧
    (let f := after (.ckFinish 0 3) (s.setCtx 3 { k with run := 0x39#64, started := true })
     (f.ctx 3).res = 0xC6#64 ∧ (f.cu 3).isMatch = true ∧ f.counter (ctCk 9) = 1#64) := by decide +kernel
/-- The doorbell of HR4 of 13_host_interface.md, and a complement that does not hold. -/
theorem test_doorbell :
    let s := (((ran.setRing 36 { active := true, gen := 3, size := 10, h := 0x12403#32, d := 0x12403#32 }).setReg (ringOff 36 + 8) 0x10A#32).setReg
      0xF070 0x20000#32)
    ((after (.doorbellWrite 2 0x120#12 0x12800#32 0xFFFED7FF#32) s).ring 36).h = 0x12800#32 ∧
    ((after (.doorbellWrite 2 0x120#12 0x12800#32 0xFFFED7FE#32) s).ring 36).h = 0x12403#32 := by decide +kernel
/-- The lapse of a notch on B120 of 08_bobbins.md. -/
theorem test_lapse :
    let s := (ran.setLive (carveOff 120) 0x160000#32).setBob 120 { wp := 4096, rp := 2, notch := some 0, lease := 0x20005#32 }
    let t := after (.leaseLapse 120) s
    bobFree s 120 = 0 ∧ t.bob 120 = { wp := 4096, rp := 2, lp := 2, lapsed := true, lease := 0x20005#32 } ∧ bobFree t 120 = 2 ∧
    t.counter (ctBb 120 2) = 1#64 := by decide +kernel
/-- The lanes of LQ9 of 07_routing_emission.md, and the offsets of 17_register_map.md. -/
theorem test_places :
    [0, 1, 2, 4, 5, 7].map (laneOf 9 0x8CC8A950#32) = [0, 0, 1, 1, 2, 2] ∧ laneBob 9 0x8CC8A950#32 2 = 202 ∧
    stOff 11 0x14 = 0x7DD4 ∧ regReset 0x7DD4 = 0x5C0#32 ∧ lqOff 71 = 0x8638 ∧ carveOff 120 + 4 = 0x9784 := by decide +kernel
/-- The bundle of 10_can_t1s_ethernet.md: three entries of 44 bytes behind 24 bytes in an untagged frame. -/
theorem test_bundle_size : (udpFrame ran 0 (streamCfg ran 3) 0 (List.replicate 156 0#8)).length + 4 = 202 := by decide +kernel

/-! ## Single steps -/

/-- R440: no doorbell and no register outside pages 0 and F before boot has ended. -/
theorem test_early_access :
    (after (.doorbellWrite 0 0#12 1#32 0xFFFFFFFE#32) up).counter (ctHi 335) = 1#64 ∧
    (after (.registerWrite 0 0x8008#17 5#64 4 true false) up).reg 0x8008 = up.reg 0x8008 := by decide +kernel
/-- R444: the host's write of SELVAGE_LOCK is ignored and raises LOCK_DENY; the boot script's sets it. -/
theorem test_selvage :
    locked (after (.selvageLock 0) ran) = false ∧ (after (.selvageLock 0) ran).rb 0xF020 2 = true ∧
    locked (after (.selvageLock 2) (script [.write 0xF000 1#32, .endRec])) = true := by decide +kernel
/-- An idle step with no command: one ECLK cycle of 1 ns. -/
theorem test_idle : (match step ran with | .next t => t.elapsedNs | _ => 0) = 1 ∧ (match step State.reset with | .next t => t.tape.clk | _ => 1) = 0 := by
  decide +kernel
/-- R258: a character leaves as its data bits, and the sentence goes on with the next. -/
theorem test_character :
    let t := after (.transmitCharacter 0 none) (sending 0 twoChars portOn)
    t.out.map (fun o => match o with | .char p v l _ _ => (p, v, l) | _ => (0, 0, [])) =
      [(0, 0x41, [false, true, false, false, false, false, false, true, false, true])] ∧ (t.eg 0).cur.any (fun c => c.sent = 1) = true := by decide +kernel
/-- R384: a cause that its masks let through asserts IRQ_N, and the assertion is counted once. -/
theorem test_irq :
    let s := ((ran.setReg 0x192C 0x40#32).setReg 0x404 1#32).setReg 0x408 1#32
    (after .linkRetrain s).irq = true ∧ (after .linkRetrain s).counter (ctHi 339) = 1#64 ∧ (after .linkRetrain ran).irq = false := by
  decide +kernel
/-- The table gives bits for no command. -/
theorem test_decode : decodeTableWord 16 0 = none ∧ up.withFetchWord 16 0 = up := by decide +kernel
end Sys2Proof.Tests
end

section
/-!
SUPPORT. POWER (R25, R26, R448, R449): what the start of a head command does, what POWER does in each of its outcomes, and the
carvings that forbid STORE4.
-/
namespace Sys2Proof.Machine

/-! ## The start of a head command (R378) -/

/-- The head command that has the opcode asked for starts with the effect given. -/
theorem startHead_of_headCmd {s : State} {c : Cmd} {op : Nat} (f : Cmd → State → State) (hw : s.awake = true)
    (hc : headCmd s = some c) (hop : c.op = op) :
    startHead op f s = f c (modCmd c.idx (fun x => { x with started := true }) s) := by
  simp [startHead, hc, hw, hop]

theorem exec_power_of_headCmd {s : State} {c : Cmd} (hw : s.awake = true) (hc : headCmd s = some c) (hop : c.op = 5) :
    exec .power s = .next (settle s (powerStart c (modCmd c.idx (fun x => { x with started := true }) s))) :=
  calc exec .power s = done s (core (startHead 5 powerStart) s) := rfl
    _ = done s (powerStart c (modCmd c.idx (fun x => { x with started := true }) s)) := by
      rw [core_awake hw, startHead_of_headCmd powerStart hw hc hop]
    _ = _ := done_eq ..

/-! ## Carvings above word 1,048,575 (R26) -/

/-- A value listed at a key is an entry of the map. -/
theorem mem_of_mapFind {α : Type} {m : SMap α} {a : Nat} {v : α} (h : mapFind m a = some v) : (a, v) ∈ m := by
  induction m with
  | nil => simp [mapFind] at h
  | cons e t ih =>
    obtain ⟨k, w⟩ := e
    simp only [mapFind] at h
    split at h
    next hk => cases h; exact hk ▸ List.mem_cons_self
    next => exact List.mem_cons_of_mem _ (ih h)

/-- A value that is not the default stands in the map. -/
theorem mem_of_mapGet_ne {α : Type} {d : Nat → α} {m : SMap α} {a : Nat} (h : mapGet d m a ≠ d a) :
    (a, mapGet d m a) ∈ m := by
  unfold mapGet at h ⊢
  cases hf : mapFind m a with
  | none => simp [hf] at h
  | some v => exact mem_of_mapFind hf

/-- At reset no bobbin is carved (R473). -/
theorem regReset_carveOff {b : Nat} (hb : b < 512) : regReset (carveOff b) = 0#32 := by
  have hpage : carveOff b / 0x1000 = 9 ∨ carveOff b / 0x1000 = 0xA := by unfold carveOff; omega
  have h4 : carveOff b % 4 = 0 := by unfold carveOff; omega
  have h16 : carveOff b % 0x10 = 0 := by unfold carveOff; omega
  have hreg : regInfo (carveOff b) = rRw 0x1FFFFF := by
    rcases hpage with h | h <;> simp [regInfo, h, h4, h16]
  rw [regReset, hreg]; rfl

/-- The live carving of an enabled bobbin is listed. -/
theorem carve_mem_live {s : State} {b : Nat} (hb : b < 512) (hen : bobEn s b = true) :
    (carveOff b, s.liveReg (carveOff b)) ∈ s.live := by
  refine mem_of_mapGet_ne fun h => ?_
  have h0 : s.liveReg (carveOff b) = 0#32 := h.trans (regReset_carveOff hb)
  simp [bobEn, h0, bit] at hen

theorem carvedHigh_of_bobEn {s : State} {b : Nat} (hb : b < 512) (hen : bobEn s b = true)
    (hhigh : 0x100000 < 64 * field (s.liveReg (carveOff b)) 0 15 + bobDepth s b) : carvedHigh s = true := by
  have hoff : 0x9000 ≤ carveOff b ∧ carveOff b < 0xB000 ∧ carveOff b % 16 = 0 := by unfold carveOff; omega
  refine List.any_eq_true.mpr ⟨_, carve_mem_live hb hen, ?_⟩
  simp only [Bool.and_eq_true, decide_eq_true_eq]
  exact ⟨⟨hoff, hen⟩, hhigh⟩

theorem powerBusy_of_carvedHigh {s : State} {w : Word} (h3 : bit w 3 = true) (h6 : bit w 6 = true)
    (hc : carvedHigh s = true) : powerBusy s w = true := by
  simp [powerBusy, h3, h6, hc]

/-! ## The outcomes of POWER (R25, R26, R448, R449) -/

/-- The list of pending commands has no part in POWER's refusal. -/
@[simp] theorem powerBusy_modCmd (idx : Word) (f : Cmd → Cmd) (s : State) (w : Word) :
    powerBusy (modCmd idx f s) w = powerBusy s w := (rfl)

theorem powerStart_busy {s : State} {c : Cmd} (h : powerBusy s (wordAt c.w 1) = true) :
    powerStart c s = doneCmd c.idx 2 0#32 0#32 s := by
  simp only [powerStart, h, if_true]

theorem powerStart_stage {s : State} {c : Cmd} (h : powerBusy s (wordAt c.w 1) = false)
    (h3 : bit (wordAt c.w 1) 3 = true) (hst : field (wordAt c.w 1) 0 3 = 0) :
    powerStart c s = doneCmd c.idx 0 (w32 s.pw.st) 0#32
      { s with pw := { s.pw with
        staged := some (bit (wordAt c.w 1) 4, bit (wordAt c.w 1) 5, bit (wordAt c.w 1) 6) } } := by
  simp [powerStart, h, h3, hst]

/-- POWER without a profile that names a state other than the present one: RUN and DOZE are entered, a lower state is asked for. -/
theorem powerStart_move {s : State} {c : Cmd} {k : Nat} (h : powerBusy s (wordAt c.w 1) = false)
    (h3 : bit (wordAt c.w 1) 3 = false) (hst : field (wordAt c.w 1) 0 3 = k) (hk : k ≠ 0) (hne : s.pw.st ≠ k) :
    powerStart c s =
      if k ≤ 2 then enterPower k (doneCmd c.idx 0 (w32 k) 0#32 s)
      else { doneCmd c.idx 0 (w32 k) 0#32 s with pw := { s.pw with req := some k } } := by
  simp [powerStart, h, h3, hst, hk, hne.symm]

/-- Settles O29: one lemma of powerStart for each outcome; the refusal of STORE4 (R26) finds the bobbin's carving in the live map. -/
theorem powerStarts : Obligations.PowerStarts := by
  intro s c hw hc
  refine ⟨fun hop hb => ?busy, fun b hop h3 h6 hb hen hhigh => ?store4, fun hop hb h3 hst => ?stage,
    fun k hop hb h3 hst hk hne => ?now, fun k hop hb h3 hst hk hne => ?later⟩
  all_goals rw [exec_power_of_headCmd hw hc hop]
  case busy => rw [powerStart_busy (by simpa using hb)]
  case store4 =>
    have hbusy := powerBusy_of_carvedHigh h3 h6 (carvedHigh_of_bobEn hb hen hhigh)
    rw [powerStart_busy (by simpa using hbusy)]
  case stage => rw [powerStart_stage (by simpa using hb) h3 hst]; rfl
  case now => rw [powerStart_move (by simpa using hb) h3 hst (by omega) (by simpa using hne), if_pos (by omega)]
  case later => rw [powerStart_move (by simpa using hb) h3 hst (by omega) (by simpa using hne), if_neg (by omega)]; rfl

end Sys2Proof.Machine
end

section
/-!
SUPPORT. The loss of an uplink's link (R292): what euDown and LINK_DOWN do, and an uplink without its link as an egress point.
-/
namespace Sys2Proof.Machine

/-- The egress point of an uplink without its link is not ready (R292). -/
theorem epReady_uplink_of_link_down {s : State} (eu : Fin 2) (h : (s.up eu).link = false) : epReady s (68 + eu) = false := by
  have h48 : ¬ 68 + (eu : Nat) < 48 := by omega
  have h64 : ¬ 68 + (eu : Nat) < 64 := by omega
  have h68 : ¬ 68 + (eu : Nat) < 68 := by omega
  have h70 : 68 + (eu : Nat) < 70 := by omega
  simp [epReady, h48, h64, h68, h70, h]

/-- The fall of a link that is up: the closed frames go and are counted, their references end, and the cause is raised (R292). -/
theorem euDown_of_link {s : State} {u : Nat} (h : (s.up u).link = true) :
    euDown u s = raise (euOff u 0x18) 2 (count (ctEu u 22) 1 (count (ctEu u 19) (s.up u).closed.length
      (forAll ((s.up u).closed.flatMap (·.sents)) (fun e => dropRef e.ref.addr)
        (s.setUp u { s.up u with link := false, anDone := false, pauseAt := 0, pauseEnd := 0, closed := [] })))) := by
  simp [euDown, h]

/-- LINK_DOWN while the core's clocks run: the fall, the remote fault as the operand says, and flow control. -/
theorem exec_linkDown_of_awake {s : State} (eu : Fin 2) (remote : Bool) (hw : s.awake = true) :
    exec (.linkDown ⟨eu, remote⟩) s = .next (settle s (flow
      ((euDown eu s).setUp eu { (euDown eu s).up eu with remote := remote }))) :=
  calc exec (.linkDown ⟨eu, remote⟩) s = done s (core (fun s => flow (euLost eu remote s)) s) := rfl
    _ = done s (flow (euLost eu remote s)) := by rw [core_awake hw]
    _ = _ := done_eq ..

/-- Settles O43: an uplink without its link is no ready egress point, and LINK_DOWN takes a link that is up through euDown's fall. -/
theorem uplinkLinkFalls : Obligations.UplinkLinkFalls := by
  intro s eu remote hw
  refine ⟨epReady_uplink_of_link_down eu, fun hlink => ?_⟩
  rw [exec_linkDown_of_awake eu remote hw, euDown_of_link hlink]

end Sys2Proof.Machine
end

section
/-!
SUPPORT. The check units (R306 to R314, R322): a let-through write of a unit's register is the register's effect, and what each
operation of a unit does in each of its outcomes.
-/
namespace Sys2Proof.Machine

/-! ## A write of a check unit's register -/

/-- The registers of the sixteen check units below their cause and mask are written by wrCk. -/
theorem writeReg_cuOff {n r : Nat} (v : Word) (s : State) (hn : n < 16) (hr : r < 0x50) :
    writeReg (cuOff n r) v s = wrCk n r v s := by
  have hpage : cuOff n r / 0x1000 = 0xB := by unfold cuOff; omega
  have hdated : dated (cuOff n r) = false := decide_eq_false (by unfold cuOff; omega)
  have hunit : (cuOff n r - 0xB000) / 0x80 = n := by unfold cuOff; omega
  have hreg : cuOff n r % 0x80 = r := by unfold cuOff; omega
  have hlow : cuOff n r < 0xB800 := by unfold cuOff; omega
  simp [writeReg, hpage, hdated, hunit, hreg, hlow, hr]

/-- A command that is an agent's let-through write of a check unit's register. -/
theorem done_unitWrite {s : State} {a : Fin 3} {cu : Fin 16} {r : Nat} {v : Word} (hr : r < 0x50)
    (h : agentMayWrite a s (cuOff cu r) v = true) :
    done s (core (agentWrite a (cuOff cu r) v) s) =
      .next (settle s (agentDone a (cuOff cu r) s (wrCk cu r v (agentPre a s)))) := by
  rw [core_awake (agentMayWrite_awake h), agentWrite_served h, writeReg_cuOff v _ cu.isLt hr, done_eq]

theorem wrCk_data (n : Nat) (w : Fin 3) (v : Word) (s : State) : wrCk n (0x34 + 4 * w) v s = wrCkData n (2 ^ w.val) v s :=
  match w with
  | 0 | 1 | 2 => rfl

theorem wrCk_param (n : Nat) (w : Fin 6) (v : Word) (s : State) : wrCk n (8 + 4 * w) v s = wrCkParam n w v s :=
  match w with
  | 0 | 1 | 2 | 3 | 4 | 5 => rfl

/-! ## The check units in the state in which a let-through write acts -/

@[simp] theorem agentPre_cu (a : Nat) (s : State) (n : Nat) : (agentPre a s).cu n = s.cu n := by unfold agentPre; split <;> rfl
@[simp] theorem agentPre_ctx (a : Nat) (s : State) (n : Nat) : (agentPre a s).ctx n = s.ctx n := by unfold agentPre; split <;> rfl
@[simp] theorem agentPre_cuSel (a : Nat) (s : State) (n : Nat) : cuSel (agentPre a s) n = cuSel s n := by
  unfold agentPre; split <;> rfl
@[simp] theorem agentPre_openOk (a : Nat) (s : State) : openOk (agentPre a s) = openOk s := by unfold agentPre; split <;> rfl

/-! ## FINISH on a started context (R308, R310) -/

/-- The state in which FINISH has stored the result of the selected context and counted it. -/
def cuFinished (n : Nat) (s : State) : State :=
  count (ctCk (3 * n)) 1 (s.setCtx n
    { s.ctx n with res := BitVec.ofNat 64 ((s.ctx n).final (s.ctx n).run.toNat), valid := true, started := false })

theorem cuFinish_refused {s : State} {n : Nat} (h : (s.ctx n).started = false) : cuFinish n s = cuRefused n s := by
  simp [cuFinish, h]

section
variable {s : State} {n : Nat} (hs : (s.ctx n).started = true)
include hs

theorem cuFinish_plain (hcmp : bit (s.ctx n).cfg 5 = false) : cuFinish n s = cuFinished n s := by
  simp [cuFinish, cuFinished, hs, hcmp]

theorem cuFinish_match (hcmp : bit (s.ctx n).cfg 5 = true)
    (heq : (s.ctx n).final (s.ctx n).run.toNat = maskW (s.ctx n).width (s.ctx n).exp.toNat) :
    cuFinish n s = (cuFinished n s).setCu n { s.cu n with isMatch := true } := by
  simp only [cuFinish, hs, hcmp, if_pos heq]; rfl

theorem cuFinish_mismatch (hcmp : bit (s.ctx n).cfg 5 = true)
    (hne : (s.ctx n).final (s.ctx n).run.toNat ≠ maskW (s.ctx n).width (s.ctx n).exp.toNat) :
    cuFinish n s = raise (cuOff n 0x50) 1 (count (ctCk (3 * n + 1)) 1
      ((cuFinished n s).setCu n { s.cu n with isMatch := false, misCtx := cuSel s n })) := by
  simp only [cuFinish, hs, hcmp, if_neg hne]; rfl
end

/-! ## SELFTEST and its end (R322) -/

theorem cuSelftest_busy {s : State} {n : Nat}
    (h : ∃ i, i < 16 ∧ (mapGet (dflt ({} : CkCtx)) s.cuCtx (16 * n + i)).started = true) :
    cuSelftest n s = count (ctCk 62) 1 (s.setCu n { s.cu n with result := 3 }) := by
  have hused : (List.range 16).any (fun i => (mapGet (dflt ({} : CkCtx)) s.cuCtx (16 * n + i)).started) = true := by
    simpa only [List.any_eq_true, List.mem_range] using h
  simp only [cuSelftest, hused, if_true]

theorem cuSelftest_idle {s : State} {n : Nat}
    (h : ∀ i, i < 16 → (mapGet (dflt ({} : CkCtx)) s.cuCtx (16 * n + i)).started = false) :
    cuSelftest n s = s.setCu n { s.cu n with testing := true } := by
  have hfree : (List.range 16).any (fun i => (mapGet (dflt ({} : CkCtx)) s.cuCtx (16 * n + i)).started) = false := by
    simpa only [List.any_eq_false, List.mem_range, Bool.not_eq_true] using h
  simp only [cuSelftest, hfree, Bool.false_eq_true, if_false]

theorem exec_selftestDone_of_awake {t : State} (cu : Fin 16) (pass : Bool) (hw : t.awake = true) :
    exec (.selftestDone cu pass) t = .next (settle t (cuTestEnd cu pass t)) :=
  calc exec (.selftestDone cu pass) t = done t (core (cuTestEnd cu pass) t) := rfl
    _ = _ := by rw [core_awake hw, done_eq]

theorem cuTestEnd_pass {t : State} {n : Nat} (h : (t.cu n).testing = true) :
    cuTestEnd n true t = raise (cuOff n 0x50) 8 (count (ctCk 60) 1
      (t.setCu n { t.cu n with testing := false, result := 1 })) := by
  simp [cuTestEnd, h]

theorem cuTestEnd_fail {t : State} {n : Nat} (h : (t.cu n).testing = true) :
    cuTestEnd n false t = raise (cuOff n 0x50) 0x10 (count (ctCk 61) 1 (raise (cuOff n 0x50) 8 (count (ctCk 60) 1
      (t.setCu n { t.cu n with testing := false, result := 2 })))) := by
  simp [cuTestEnd, h]

/-! ## The writes of a unit's registers (R308, R309, R313) -/

theorem wrCkData_refused {s : State} {n : Nat} (k : Nat) (v : Word) (hs : (s.ctx n).started = false) :
    wrCkData n k v s = cuRefused n s := by
  simp [wrCkData, hs]

section
variable {s : State} {n : Nat} (ht : (s.cu n).testing = false)
include ht

theorem wrCkCmd_start : wrCkCmd n 1#32 s = cuStart n s := by simp [wrCkCmd, ht, bit]
theorem wrCkCmd_finish : wrCkCmd n 2#32 s = cuFinish n s := by simp [wrCkCmd, ht, bit]
theorem wrCkCmd_selftest : wrCkCmd n 4#32 s = cuSelftest n s := by simp [wrCkCmd, ht, bit]
theorem wrCkCmd_clear : wrCkCmd n 8#32 s = cuClear n s := by simp [wrCkCmd, ht, bit]

theorem wrCkData_started (k : Nat) (v : Word) (hs : (s.ctx n).started = true) :
    wrCkData n k v s = s.setCtx n { s.ctx n with
      run := BitVec.ofNat 64 ((s.ctx n).fold (s.ctx n).run.toNat ((wordBytes v).take k))
      bytes := min 65535 ((s.ctx n).bytes + k) } := by
  simp [wrCkData, ht, hs]

theorem wrCkCfg_accepted {v : Word} (h : bit v 0 = false ∨ openOk s = true) :
    wrCkCfg n v s = s.setCtx n { s.ctx n with cfg := v &&& 0x3FFF#32, started := false, valid := false } := by
  have hok : ¬ (bit v 0 = true ∧ openOk s = false) := by rcases h with h | h <;> simp [h]
  simp only [wrCkCfg, ht, Bool.false_eq_true, if_false, if_neg hok]

theorem wrCkCfg_rejected {v : Word} (hopen : bit v 0 = true) (hrun : openOk s = false) :
    wrCkCfg n v s = cuOpenReject n s := by
  simp [wrCkCfg, ht, hopen, hrun]

theorem wrCkParam_rejected (i : Nat) (v : Word) (hrun : openOk s = false) : wrCkParam n i v s = cuOpenReject n s := by
  simp [wrCkParam, ht, hrun]

theorem wrCkParam_polyLo (v : Word) (hok : openOk s = true) :
    wrCkParam n 0 v s = s.setCtx n { s.ctx n with poly := mkD (hiW (s.ctx n).poly) v } := by
  simp [wrCkParam, ht, hok, setHalf]

theorem wrCkParam_initHi (v : Word) (hok : openOk s = true) :
    wrCkParam n 3 v s = s.setCtx n { s.ctx n with init := mkD v (loW (s.ctx n).init) } := by
  simp [wrCkParam, ht, hok, setHalf]

theorem wrCkRunLo_restores (v : Word) :
    wrCkRunLo n v s = s.setCtx n { s.ctx n with
      run := BitVec.ofNat 64 (maskW (s.ctx n).width (mkD (s.ctx n).runHi v).toNat), started := true, valid := false } := by
  simp [wrCkRunLo, ht]
end

/-! ## The commands of a unit as the writes they are -/

section
variable {s : State} {a : Fin 3} {cu : Fin 16}

theorem exec_ckStart (h : agentMayWrite a s (cuOff cu 0x40) 1#32 = true) :
    exec (.ckStart a cu) s = .next (settle s (agentDone a (cuOff cu 0x40) s (wrCkCmd cu 1#32 (agentPre a s)))) :=
  done_unitWrite (by decide) h

theorem exec_ckFinish (h : agentMayWrite a s (cuOff cu 0x40) 2#32 = true) :
    exec (.ckFinish a cu) s = .next (settle s (agentDone a (cuOff cu 0x40) s (wrCkCmd cu 2#32 (agentPre a s)))) :=
  done_unitWrite (by decide) h

theorem exec_selftest (h : agentMayWrite a s (cuOff cu 0x40) 4#32 = true) :
    exec (.selftest a cu) s = .next (settle s (agentDone a (cuOff cu 0x40) s (wrCkCmd cu 4#32 (agentPre a s)))) :=
  done_unitWrite (by decide) h

theorem exec_ckClear (h : agentMayWrite a s (cuOff cu 0x40) 8#32 = true) :
    exec (.ckClear a cu) s = .next (settle s (agentDone a (cuOff cu 0x40) s (wrCkCmd cu 8#32 (agentPre a s)))) :=
  done_unitWrite (by decide) h

theorem exec_ckDataWrite {w : Fin 3} {v : Word} (h : agentMayWrite a s (cuOff cu (0x34 + 4 * w)) v = true) :
    exec (.ckDataWrite a cu w v) s =
      .next (settle s (agentDone a (cuOff cu (0x34 + 4 * w)) s (wrCkData cu (2 ^ w.val) v (agentPre a s)))) := by
  rw [← wrCk_data]
  exact done_unitWrite (by omega) h

theorem exec_ckCfgWrite {v : Word} (h : agentMayWrite a s (cuOff cu 4) v = true) :
    exec (.ckCfgWrite a cu v) s = .next (settle s (agentDone a (cuOff cu 4) s (wrCkCfg cu v (agentPre a s)))) :=
  done_unitWrite (by decide) h

theorem exec_ckOpenParamWrite {w : Fin 6} {v : Word} (h : agentMayWrite a s (cuOff cu (8 + 4 * w)) v = true) :
    exec (.ckOpenParamWrite a cu w v) s =
      .next (settle s (agentDone a (cuOff cu (8 + 4 * w)) s (wrCkParam cu w v (agentPre a s)))) := by
  rw [← wrCk_param]
  exact done_unitWrite (by omega) h

theorem exec_ckRunRestore {v : Word} (h : agentMayWrite a s (cuOff cu 0x24) v = true) :
    exec (.ckRunRestore a cu v) s = .next (settle s (agentDone a (cuOff cu 0x24) s (wrCkRunLo cu v (agentPre a s)))) :=
  done_unitWrite (by decide) h
end

/-- Settles O55: each command is a let-through write of the unit's register, and each outcome one lemma of the register's effect. -/
theorem checkUnits : Obligations.CheckUnits := by
  intro s a cu ht
  have hu : ((agentPre a s).cu cu).testing = false := by simpa using ht
  refine ⟨fun h => ?start, fun h => ⟨fun hs => ?finishRefused, fun hs hc => ?finish, fun hs hc heq => ?finishMatch,
      fun hs hc hne => ?finishMismatch⟩, fun h => ?clear, fun h => ⟨fun hbusy => ?busy, fun hidle => ?idle⟩,
    fun t hw htest => ⟨?pass, ?fail⟩, fun w v h => ⟨fun hs => ?data, fun hs => ?dataRefused⟩,
    fun v h => ⟨fun hok => ?cfg, fun hopen hrun => ?cfgRejected⟩,
    fun w v h => ⟨fun hrun => ?paramRejected, fun hok hwhich => ?polyLo, fun hok hwhich => ?initHi⟩, fun v h => ?restore⟩
  case start => rw [exec_ckStart h, wrCkCmd_start hu, cuStart, CkCtx.begun, agentPre_ctx]
  case finishRefused => rw [exec_ckFinish h, wrCkCmd_finish hu, cuFinish_refused (by simpa using hs), cuRefused]
  case finish =>
    rw [exec_ckFinish h, wrCkCmd_finish hu, cuFinish_plain (by simpa using hs) (by simpa using hc), cuFinished, agentPre_ctx]
  case finishMatch =>
    rw [exec_ckFinish h, wrCkCmd_finish hu, cuFinish_match (by simpa using hs) (by simpa using hc) (by simpa using heq),
      cuFinished, agentPre_ctx, agentPre_cu]
  case finishMismatch =>
    rw [exec_ckFinish h, wrCkCmd_finish hu, cuFinish_mismatch (by simpa using hs) (by simpa using hc) (by simpa using hne),
      cuFinished, agentPre_ctx, agentPre_cu, agentPre_cuSel]
  case clear => rw [exec_ckClear h, wrCkCmd_clear hu, cuClear]
  case busy => rw [exec_selftest h, wrCkCmd_selftest hu, cuSelftest_busy (by simpa using hbusy), agentPre_cu]
  case idle => rw [exec_selftest h, wrCkCmd_selftest hu, cuSelftest_idle (by simpa using hidle), agentPre_cu]
  case pass => rw [exec_selftestDone_of_awake cu true hw, cuTestEnd_pass htest]
  case fail => rw [exec_selftestDone_of_awake cu false hw, cuTestEnd_fail htest]
  case data => rw [exec_ckDataWrite h, wrCkData_started hu _ v (by simpa using hs), agentPre_ctx]
  case dataRefused => rw [exec_ckDataWrite h, wrCkData_refused _ v (by simpa using hs), cuRefused]
  case cfg => rw [exec_ckCfgWrite h, wrCkCfg_accepted hu (by simpa using hok), agentPre_ctx]
  case cfgRejected => rw [exec_ckCfgWrite h, wrCkCfg_rejected hu hopen (by simpa using hrun), cuOpenReject]
  case paramRejected => rw [exec_ckOpenParamWrite h, wrCkParam_rejected hu _ v (by simpa using hrun), cuOpenReject]
  case polyLo => rw [exec_ckOpenParamWrite h, hwhich, wrCkParam_polyLo hu v (by simpa using hok), agentPre_ctx]
  case initHi => rw [exec_ckOpenParamWrite h, hwhich, wrCkParam_initHi hu v (by simpa using hok), agentPre_ctx]
  case restore => rw [exec_ckRunRestore h, wrCkRunLo_restores hu v, agentPre_ctx]

end Sys2Proof.Machine
end

section
/-!
SUPPORT. Flow control (R204, R371, R372, R392, R397) leaves the tape unit alone, and every command ends in a next state: what a step
does to the queue, to IRQ_N and, with nothing waiting, to the clock.
-/
namespace Sys2Proof.Machine

/-! ## What flow control keeps of the tape unit -/

@[simp] theorem touch_tape (o m : Nat) (s : State) : (touch o m s).tape = s.tape := rfl
@[simp] theorem countTalker_tape (t sub off n : Nat) (s : State) : (countTalker t sub off n s).tape = s.tape := by
  unfold countTalker; split <;> simp
@[simp] theorem pushWords_tape (b : Nat) (ws : List Word) (s : State) : (pushWords b ws s).tape = s.tape :=
  forAll_keep (·.tape) (pushWord b) (fun _ _ => rfl) ws s
@[simp] theorem admUpdate_tape (m : Nat) (s : State) : (admUpdate m s).tape = s.tape :=
  whenDo_keep (·.tape) _ _ _ rfl
@[simp] theorem mergePut_tape (m : Nat) (e : MEnt) (s : State) : (mergePut m e s).tape = s.tape := by simp [mergePut]

@[simp] theorem addRecord_tape (h : List Word) (pay : List Byte) (x : RecMeta) (s : State) :
    (addRecord h pay x s).1.tape = s.tape := by
  unfold addRecord
  dsimp only
  split_ifs <;> simp

theorem hostWrites_go_tape (n a : Nat) (bs : List Byte) (s : State) : (hostWrites.go n a bs s).tape = s.tape := by
  induction n generalizing a bs s with
  | zero => rfl
  | succ n ih => unfold hostWrites.go; split <;> simp [ih]
@[simp] theorem hostWrites_tape (a : Nat) (bs : List Byte) (s : State) : (hostWrites a bs s).tape = s.tape :=
  hostWrites_go_tape ..
theorem hostReads_go_tape (n a l : Nat) (s : State) : (hostReads.go n a l s).tape = s.tape := by
  induction n generalizing a l s with
  | zero => rfl
  | succ n ih => unfold hostReads.go; split <;> simp [ih]
@[simp] theorem hostReads_tape (a l : Nat) (s : State) : (hostReads a l s).tape = s.tape := hostReads_go_tape ..

@[simp] theorem wbIndex_tape (r : Nat) (s : State) : (wbIndex r s).tape = s.tape :=
  whenDo_keep (·.tape) _ _ _ (by simp)
@[simp] theorem raiseDone_tape (r : Nat) (s : State) : (raiseDone r s).tape = s.tape := by
  unfold raiseDone; split_ifs <;> simp
@[simp] theorem ringCompleted_tape (r : Nat) (s : State) : (ringCompleted r s).tape = s.tape := by
  unfold ringCompleted; dsimp only; split <;> simp
@[simp] theorem ringErr_tape (r code idx : Nat) (s : State) : (ringErr r code idx s).tape = s.tape := by
  unfold ringErr; dsimp only; split_ifs <;> simp
@[simp] theorem htConsume_tape (r : Nat) (x : HtDesc) (st seq : Nat) (s : State) :
    (htConsume r x st seq s).tape = s.tape := by
  have h := whenDo_keep (·.tape) (decide (2 ≤ (s.ring r).gen) && bit (wordAt x.w 2) 29)
  simp [htConsume, h]

@[simp] theorem htEnter_tape (r : Nat) (x : HtDesc) (s : State) : (htEnter r x s).1.tape = s.tape := by
  unfold htEnter
  dsimp only
  split
  · simp
  · split
    · rfl
    · have hrec := fun h => addRecord_tape h x.pay { hits := x.cap.hits, noRefuse := true } s
      split
      · rfl
      next heq => simpa using (congrArg (·.1.tape) heq).symm.trans (hrec _)

theorem htDrain_tape (r n : Nat) (s : State) : (htDrain r n s).tape = s.tape := by
  induction n generalizing s with
  | zero => rfl
  | succ n ih =>
    have hx := fun x => htEnter_tape r x s
    unfold htDrain
    split
    · rfl
    next x _ _ =>
      split_ifs
      · split
        next heq => rw [ih, ← hx x, heq]
        next heq => rw [← hx x, heq]
      · rfl

@[simp] theorem htRefresh_tape (s : State) : (htRefresh s).tape = s.tape := by
  unfold htRefresh
  split
  · rfl
  · exact forAll_keep (·.tape) _ (fun r u => (whenDo_keep (·.tape) _ _ _ (by simp)).trans (by simp [htDrain_tape])) _ _

theorem readMore_tape (n : Nat) (s : State) : (readMore n s).tape = s.tape := by
  induction n generalizing s with
  | zero => rfl
  | succ n ih =>
    unfold readMore
    split
    · rfl
    · split
      · rfl
      · simp [ih, readDesc]

@[simp] theorem creditsBack_tape (s : State) : (creditsBack s).tape = s.tape :=
  forAll_keep (·.tape) (fun _ s => modPeer _ s) (fun _ _ => rfl) _ _

/-- Flow control moves records, references and credits; device time is none of its business. -/
@[simp] theorem flow_tape (s : State) : (flow s).tape = s.tape := by
  have hr : (issueReads (htRefresh s)).tape = s.tape := by
    unfold issueReads; split <;> simp [readMore_tape]
  unfold flow; dsimp only; split <;> simp [hr]

/-! ## A step -/

/-- Every command ends in a next state, and its end is settle's. -/
theorem exec_settles (c : Instr) (s : State) : ∃ u, exec c s = .next (settle s u) := by
  cases c <;> exact ⟨_, rfl⟩

theorem step_nil {s : State} (h : s.pending = []) : step s = .next (settle s (idle s)) := by
  unfold step; rw [h]; rfl

theorem step_cons {s : State} {c : Instr} {rest : List Instr} (h : s.pending = c :: rest) :
    step s = exec c { s with pending := rest } := by
  unfold step; rw [h]

/-- A step's end is settle's, on the queue's rest. -/
theorem step_settles (s : State) : ∃ u, step s = .next (settle { s with pending := s.pending.tail } u) := by
  match h : s.pending with
  | [] => exact ⟨idle s, by rw [step_nil h, List.tail_nil, ← h]⟩
  | c :: rest =>
    obtain ⟨u, hu⟩ := exec_settles c { s with pending := rest }
    exact ⟨u, by rw [step_cons h, hu, List.tail_cons]⟩

/-! ## The tick of an idle device (R69) -/

/-- The correction never makes a cycle negative. -/
theorem freqInt_lower (s : State) : -0x80000000 ≤ freqInt s := by
  unfold freqInt sInt signed; split <;> simp only [Int.ofNat_eq_natCast] <;> omega

theorem tickUnits_of_awake {s : State} (h : s.awake = true) :
    (tickUnits s : Int) = (if s.pw.lean then 5 else 3) * (0x10000000000 + freqInt s) := by
  have hnap : s.pw.st ≠ 3 := by simp [State.awake] at h; exact h.2
  have hf := freqInt_lower s
  unfold tickUnits
  rw [if_neg hnap]
  dsimp only
  split <;> simp only [Int.ofNat_eq_natCast] <;> omega

theorem idle_clk_of_awake {s : State} (h : s.awake = true) : (idle s).tape.clk = s.tape.clk + tickUnits s := by
  have hup : s.up? = true := by simp [State.awake] at h; exact h.1
  have hstalls (n : Nat) (u : State) : (stalls n u).tape = u.tape := by
    unfold stalls
    refine (whenDo_keep (·.tape) _ _ _ rfl).trans ?_
    split
    · rfl
    · exact forAll_keep (·.tape) (fun e => count (ctEng e 11) n) (fun _ _ => rfl) _ _
  have hsec (u v : State) : (runSecond u v).tape = v.tape := whenDo_keep (·.tape) _ _ _ rfl
  simp [idle, hup, h, hsec, hstalls]

/-- Settles O3: every command ends in settle, which gives the queue back and sets IRQ_N, and an idle step moves the clock alone by
tickUnits, since flow control leaves the tape unit alone. -/
theorem stepEnds : Obligations.StepEnds := by
  intro s
  obtain ⟨u, hu⟩ := step_settles s
  obtain ⟨hirq, hpend⟩ := done_settled (s := { s with pending := s.pending.tail }) (t := u) rfl
  refine ⟨_, hu, hpend, hirq, fun hq hw => ?_⟩
  have ht : settle { s with pending := s.pending.tail } u = settle s (idle s) :=
    Host.Outcome.next.inj (hu.symm.trans (step_nil hq))
  rw [ht, settle_tape, idle_clk_of_awake hw, ← tickUnits_of_awake hw, Nat.cast_add]

end Sys2Proof.Machine
end

section
/-!
SUPPORT. The front of the queue, the end of every command (R384, R386, R244, R262), and the state after reset (R473).
-/
namespace Sys2Proof.Machine

/-- Settles O1: step's equation for a queue with a front. -/
theorem stepRunsFront : Obligations.StepRunsFront := fun _ _ _ h => step_cons h

/-! ## What settle drives -/

@[simp] theorem forAll_nil {β : Type} (f : β → State → State) (s : State) : forAll [] f s = s := rfl
@[simp] theorem forAll_cons {β : Type} (a : β) (l : List β) (f : β → State → State) (s : State) :
    forAll (a :: l) f s = forAll l f (f a s) := rfl

/-- What one run over a list of changes adds to the outputs, each change adds. -/
theorem mem_out_forAll {β : Type} {P : β → Output → Prop} {f : β → State → State}
    (h : ∀ b u, ∀ x ∈ (f b u).out, x ∈ u.out ∨ P b x) (l : List β) :
    ∀ u : State, ∀ x ∈ (forAll l f u).out, x ∈ u.out ∨ ∃ b ∈ l, P b x := by
  induction l with
  | nil => exact fun u x hx => .inl hx
  | cons a r ih =>
    intro u x hx
    rcases ih _ x hx with hx | ⟨b, hb, hp⟩
    · exact (h a u x hx).imp id fun hp => ⟨a, List.mem_cons_self, hp⟩
    · exact .inr ⟨b, List.mem_cons_of_mem _ hb, hp⟩

/-- What each change leaves among the outputs, a run over a list leaves. -/
theorem out_subset_forAll {β : Type} {f : β → State → State} (h : ∀ b u, u.out ⊆ (f b u).out) (l : List β) :
    ∀ u : State, u.out ⊆ (forAll l f u).out := by
  induction l with
  | nil => exact fun u => List.Subset.refl _
  | cons a r ih => exact fun u => List.Subset.trans (h a u) (ih _)

/-- An APn_DE ball driven where its level changes. -/
def deDrive (s t : State) (n : Nat) (u : State) : State :=
  whenDo (deLevel s n != deLevel t n) (emit (.pin (16 + n) (deLevel t n))) u

theorem dePins_eq_forAll (s t : State) : dePins s t = forAll (List.range 16) (deDrive s t) t := rfl

theorem deDrive_of_ne {s t u : State} {n : Nat} (hne : deLevel s n ≠ deLevel t n) (hu : u.cutOff = false) :
    (deDrive s t n u).out = .pin (16 + n) (deLevel t n) :: u.out := by
  simp [deDrive, bne_iff_ne.mpr hne, emit_out, hu]

theorem out_subset_deDrive (s t : State) (n : Nat) (u : State) : u.out ⊆ (deDrive s t n u).out := by
  unfold deDrive whenDo
  split
  · rw [emit_out]; split <;> simp
  · simp

theorem mem_out_deDrive (s t : State) (n : Nat) (u : State) (x : Output) (hx : x ∈ (deDrive s t n u).out) :
    x ∈ u.out ∨ (deLevel s n ≠ deLevel t n ∧ x = .pin (16 + n) (deLevel t n)) := by
  by_cases hne : deLevel s n = deLevel t n
  · exact .inl (by simpa [deDrive, hne] using hx)
  · simp only [deDrive, bne_iff_ne.mpr hne, whenDo_true, emit_out] at hx
    split at hx
    · exact .inl hx
    · exact (List.mem_cons.mp hx).symm.imp id fun h => ⟨hne, h⟩

theorem deDrive_eq (s t : State) (n : Nat) (u : State) : ∃ o, deDrive s t n u = { u with out := o } := by
  unfold deDrive whenDo emit
  split_ifs
  · exact ⟨u.out, rfl⟩
  · exact ⟨_, rfl⟩
  · exact ⟨u.out, rfl⟩

/-- A ball whose level changed is driven while the balls are connected. -/
theorem mem_deFold {s t : State} {n : Nat} (hne : deLevel s n ≠ deLevel t n) (l : List Nat) :
    ∀ u : State, u.cutOff = false → n ∈ l → (.pin (16 + n) (deLevel t n) : Output) ∈ (forAll l (deDrive s t) u).out := by
  induction l with
  | nil => intro u _ h; cases h
  | cons a r ih =>
    intro u hu hn
    rcases List.mem_cons.mp hn with rfl | hn
    · exact out_subset_forAll (out_subset_deDrive s t) r _ (by simp [deDrive_of_ne hne hu])
    · exact ih _ ((whenDo_keep State.cutOff _ _ _ (by simp [State.cutOff])).trans hu) hn

/-- dePins drives outputs and changes nothing else. -/
theorem dePins_eq (s t : State) : ∃ o, dePins s t = { t with out := o } := by
  have hl (l : List Nat) : ∀ u : State, ∃ o, forAll l (deDrive s t) u = { u with out := o } := by
    induction l with
    | nil => exact fun u => ⟨u.out, rfl⟩
    | cons a r ih =>
      intro u
      obtain ⟨o, ho⟩ := deDrive_eq s t a u
      obtain ⟨o', ho'⟩ := ih (deDrive s t a u)
      exact ⟨o', by rw [forAll_cons, ho', ho]⟩
  exact hl _ t

theorem settle_ctr (s t : State) :
    (settle s t).ctr = if irqWanted t && !t.irq then (count (ctHi 339) 1 t).ctr else t.ctr := by
  have hd : irqWanted (dePins s t) = irqWanted t := irqWanted_dePins s t
  show (irqPin (dePins s t)).ctr = _
  rw [irqPin_eq, hd, dePins_irq]
  obtain ⟨o, ho⟩ := dePins_eq s t
  rw [ho]
  split <;> rfl

/-- Settles O2: settle's fields one by one; the outputs by what one APn_DE ball drives. -/
theorem settleTouches : Obligations.SettleTouches := by
  intro s t
  have hout : (settle s t).out = (forAll (List.range 16) (deDrive s t) t).out := settle_out s t
  refine ⟨settle_irq s t, settle_pending s t, ?asserted, fun i hi => settle_counter s t hi, ?frame,
    fun hsame => ?quiet, fun n hn hcut hne => ?driven, fun x hx => ?only⟩
  case asserted =>
    rw [State.counter, settle_ctr]
    split
    · exact (State.counter_count ..).trans (if_pos rfl)
    · rfl
  case frame =>
    obtain ⟨o, ho⟩ := dePins_eq s t
    unfold settle
    rw [irqPin_eq, ho]
    split <;> rfl
  case quiet => rw [settle_out, dePins_same hsame]
  case driven => exact hout ▸ mem_deFold hne _ t hcut (List.mem_range.mpr hn)
  case only =>
    refine (mem_out_forAll (mem_out_deDrive s t) _ t x (hout ▸ hx)).imp id ?_
    rintro ⟨n, hn, hne, rfl⟩
    exact ⟨n, List.mem_range.mp hn, hne, rfl⟩

/-- Settles O4: every map is empty at reset, so a lookup gives its default. -/
theorem resetState : Obligations.ResetState :=
  ⟨rfl, rfl, storeWf_reset, rfl, fun _ => rfl, fun _ => rfl⟩

end Sys2Proof.Machine
end

section
/-!
SUPPORT. Accesses to BAR0: what a command of the core and an agent's let-through write come to, the host's writes and their checks
(R359, R362, R440, R444, R445), and the transfer of a boot image that GO starts (R439).
-/
namespace Sys2Proof.Machine

/-! ## Commands of the core and let-through writes -/

/-- A command of the core, while the core's clocks run. -/
theorem done_core {s : State} (f : State → State) (h : s.awake = true) : done s (core f s) = .next (settle s (f s)) := by
  rw [core_awake h, done_eq]

/-- A command that is an agent's let-through write of a register. -/
theorem done_agentWrite {s : State} {a : Fin 3} {o : Nat} {v : Word} (h : agentMayWrite a s o v = true) :
    done s (core (agentWrite a o v) s) = .next (settle s (agentDone a o s (writeReg o v (agentPre a s)))) := by
  rw [done_core _ (agentMayWrite_awake h), agentWrite_served h]

@[simp] theorem hiW_mkD (hi lo : Word) : hiW (mkD hi lo) = hi := by
  unfold hiW mkD
  apply BitVec.eq_of_toNat_eq
  have := hi.isLt
  have := lo.isLt
  simp only [BitVec.toNat_ofNat]
  omega

/-- A let-through REGISTER_WRITE of 4 bytes is the agent's write. -/
theorem accessWrite_plain (a : Fin 3) (o : Nat) (v : Word) (s : State) :
    accessWrite a o (mkD 0#32 v) 4 true false s = agentWrite a o v s :=
  match a with
  | 0 => by simp [accessWrite, agentWrite]
  | 1 => by simp [accessWrite, agentWrite, loW_mkD]
  | 2 => by simp [accessWrite, agentWrite, loW_mkD]

theorem exec_registerWrite {s : State} {a : Fin 3} {off : BitVec 17} {v : Word} (h : agentMayWrite a s off.toNat v = true) :
    exec (.registerWrite a off (mkD 0#32 v) 4 true false) s =
      .next (settle s (agentDone a off.toNat s (writeReg off.toNat v (agentPre a s)))) :=
  calc exec (.registerWrite a off (mkD 0#32 v) 4 true false) s
      = done s (accessWrite a off.toNat (mkD 0#32 v) 4 true false s) := rfl
    _ = _ := by rw [accessWrite_plain, agentWrite_served h, done_eq]

/-! ## The bits that the device has just changed -/

@[simp] theorem hotBits_agentPre (a o : Nat) (s : State) : (agentPre a s).hotBits o = s.hotBits o := by
  unfold agentPre; split <;> rfl
@[simp] theorem hotBits_noteWas (o : Nat) (c : Bool) (p : Nat) (v : Word) (s : State) :
    (whenDo c (noteWas p v) s).hotBits o = s.hotBits o := by cases c <;> rfl
@[simp] theorem reg_noteWas (o : Nat) (c : Bool) (p : Nat) (v : Word) (s : State) :
    (whenDo c (noteWas p v) s).reg o = s.reg o := by cases c <;> rfl

/-- Page 8 holds no register with an effect of its own (R5). -/
theorem writeReg_page8 {o : Nat} {i : RegInfo} (v : Word) (s : State) (hp : o / 0x1000 = 8) (hi : regInfo o = some i) :
    writeReg o v s = (whenDo (dated o) (noteWas o (s.reg o)) s).setReg o
      (((s.reg o &&& ~~~(w32 i.rw ||| (v &&& w32 i.w1c)) ||| (v &&& w32 i.rw)) &&& ~~~s.hotBits o) ||| (s.reg o &&& s.hotBits o)) := by
  simp [writeReg, hp, wrPlain, hi]

/-- Settles O16: a let-through write of a register of page 8 is wrPlain's. -/
theorem registerWritten : Obligations.RegisterWritten := by
  intro s a off v i h hp hi
  refine ⟨?_, fun hne => if_neg hne⟩
  rw [exec_registerWrite h, writeReg_page8 v _ hp hi, agentPre_at_reg, hotBits_agentPre]

/-! ## The host's writes and their checks (R359, R440, R444) -/

section
variable {s : State} (hs : hostServed s = true) (hw : s.awake = true)
include hs hw

theorem hostWrite_poisoned (o : Nat) (data : DWord) (size : Nat) (full : Bool) :
    hostWrite o data size full true s = aerPoison (raise 0x1928 0x80 (count (ctHi 338) 1 s)) := by
  simp [hostWrite, hs, hw]

theorem hostWrite_badForm {o : Nat} {data : DWord} {size : Nat} {full : Bool} (ho : o < 0x10000)
    (h : ¬ (size = 4 ∧ full = true ∧ o % 4 = 0)) : hostWrite o data size full false s = badAccess s := by
  simp [hostWrite, hs, hw, Nat.not_le.mpr ho, show ¬ 0x18000 ≤ o by omega, h]

theorem hostWrite_reg {o : Nat} (data : DWord) (ho : o < 0x10000) (h4 : o % 4 = 0) :
    hostWrite o data 4 true false s = hostRegWrite o (loW data) s := by
  simp [hostWrite, hs, hw, Nat.not_le.mpr ho, show ¬ 0x18000 ≤ o by omega, h4]

theorem hostWrite_badDoorbell {o : Nat} {data : DWord} {size : Nat} {full : Bool} (ho : 0x10000 ≤ o) (hlt : o < 0x18000)
    (h : ¬ (size = 8 ∧ full = true ∧ o % 8 = 0)) : hostWrite o data size full false s = badAccess s := by
  simp [hostWrite, hs, hw, ho, Nat.not_le.mpr hlt, h]

theorem hostWrite_doorbell {o : Nat} (data : DWord) (ho : 0x10000 ≤ o) (hlt : o < 0x18000) (h8 : o % 8 = 0) :
    hostWrite o data 8 true false s = doorbell ((o - 0x10000) / 0x1000) (o % 0x1000) (loW data) (hiW data) s := by
  simp [hostWrite, hs, hw, ho, Nat.not_le.mpr hlt, h8]
end

theorem hostServed_d3hot {s : State} (h : hostServed s = true) : s.d3hot = false := by
  simp only [hostServed, Bool.and_eq_true, Bool.not_eq_true'] at h; exact h.1.2
theorem hostServed_perst {s : State} (h : hostServed s = true) : s.perst = true := by
  simp only [hostServed, Bool.and_eq_true, Bool.not_eq_true'] at h; exact h.1.1.2

/-- No doorbell before boot has ended (R440). -/
theorem doorbell_early {s : State} (hs : hostServed s = true) (hw : s.awake = true) (hb : s.boot.done = false) (d o : Nat)
    (lo hi : Word) : doorbell d o lo hi s = badAccess s := by
  simp [doorbell, hostServed_d3hot hs, hw, hostServed_perst hs, hb]

theorem hostRegWrite_early {s : State} {o : Nat} (v : Word) (hb : s.boot.done = false) (h0 : o / 0x1000 ≠ 0)
    (hF : o / 0x1000 ≠ 0xF) : hostRegWrite o v s = badAccess s := by
  simp [hostRegWrite, hb, h0, hF]

theorem hostRegWrite_denied {s : State} {o : Nat} (v : Word) (hb : s.boot.done = true) (hl : locked s = true)
    (h0 : o / 0x1000 ≠ 0) (hF : o / 0x1000 ≠ 0xF) (hg : s.rb 0xF044 (o / 0x1000) = false) :
    hostRegWrite o v s = pageDeny s := by
  simp [hostRegWrite, hb, hl, h0, hF, hg]

/-- Settles O15: one lemma of the host's write for each check, in the order of the checks. -/
theorem hostWriteChecks : Obligations.HostWriteChecks := by
  intro s off data size full hs hw
  have hexec (data : DWord) (size : Nat) (full p : Bool) : exec (.registerWrite 0 off data size full p) s =
      .next (settle s (hostWrite off.toNat data size full p s)) := rfl
  refine ⟨?poisoned, fun ho hform => ?form, fun ho hlt hform => ?doorbellForm, fun ho h4 hb h0 hF => ?early,
    fun ho hlt hb => ?doorbellEarly, fun ho h4 hb hl h0 hF hg => ?page⟩
  case poisoned => rw [hexec, hostWrite_poisoned hs hw]
  case form => rw [hexec, hostWrite_badForm hs hw ho hform]
  case doorbellForm => rw [hexec, hostWrite_badDoorbell hs hw ho hlt hform]
  case early => rw [hexec, hostWrite_reg hs hw data ho h4, hostRegWrite_early _ hb h0 hF]
  case doorbellEarly =>
    by_cases hform : size = 8 ∧ full = true ∧ off.toNat % 8 = 0
    · obtain ⟨rfl, rfl, h8⟩ := hform
      rw [hexec, hostWrite_doorbell hs hw data ho hlt h8, doorbell_early hs hw hb]
    · rw [hexec, hostWrite_badDoorbell hs hw ho hlt hform]
  case page => rw [hexec, hostWrite_reg hs hw data ho h4, hostRegWrite_denied _ hb hl h0 hF hg]

/-- A register with RWB fields is listed (R473). -/
theorem regInfo_isSome_of_isRwb {o : Nat} (h : isRwb o = true) : (regInfo o).isSome = true := by
  unfold isRwb at h; cases hr : regInfo o <;> simp_all

/-- The host's write of an RWB register of page F is denied (R444). -/
theorem hostWrite_rwb {s : State} {o : Nat} (v : Word) (hs : hostServed s = true) (hw : s.awake = true)
    (hp : o / 0x1000 = 0xF) (h4 : o % 4 = 0) (hr : isRwb o = true) :
    hostWrite o (mkD 0#32 v) 4 true false s = lockDeny o s := by
  have hi := regInfo_isSome_of_isRwb hr
  rw [hostWrite_reg hs hw _ (by omega) h4]
  simp [hostRegWrite, hp, hr, show ¬ (0xC800 ≤ o ∧ o < 0xD000) by omega, Option.isNone_eq_false_iff.mpr hi]

/-- Settles O14: REGISTER_WRITE and SELVAGE_LOCK of the host are writes of RWB registers of page F. -/
theorem selvageKeptFromHost : Obligations.SelvageKeptFromHost := by
  intro s off val hs hw hp h4 hr
  refine ⟨?_, ?_⟩
  · calc exec (.registerWrite 0 off (mkD 0#32 val) 4 true false) s
        = done s (hostWrite off.toNat (mkD 0#32 val) 4 true false s) := rfl
      _ = _ := by rw [hostWrite_rwb val hs hw hp h4 hr, done_eq]
  · calc exec (.selvageLock 0) s = done s (core (hostWrite 0xF000 (mkD 0#32 1#32) 4 true false) s) := rfl
      _ = _ := by rw [done_core _ hw, hostWrite_rwb 1#32 hs hw rfl rfl (by decide)]

/-! ## A host transfer (R439) -/

theorem writeReg_bootCtrl (v : Word) (s : State) : writeReg 0xF014 v s = bootGo v s := rfl

theorem hostMayLoad_agentPre (a : Nat) (s : State) : hostMayLoad (agentPre a s) = hostMayLoad s := by
  unfold agentPre; split <;> rfl

theorem exec_go {s : State} {a : Fin 3} (h : agentMayWrite a s 0xF014 1#32 = true) :
    exec (.go a) s = .next (settle s (agentDone a 0xF014 s (bootGo 1#32 (agentPre a s)))) := done_agentWrite h

section
variable {s : State} (hm : hostMayLoad s = true)
include hm

theorem bootGo_reads (hl : imgLenOk (s.rf 0xF010 0 21) = true) :
    bootGo 1#32 s = whenDo s.hostUp (hostReads ((s.reg 0xF00C).toNat * 0x100000000 + (s.reg 0xF008).toNat) (s.rf 0xF010 0 21))
      (modBoot (fun x => { x with result := 1, reading := some 2 }) s) := by
  have hb : bit 1#32 0 = true := rfl
  simp only [bootGo, hb, hm, hl, bootReads, Bool.true_eq_false, if_false, modBoot_boot, decide_true, Bool.and_true]
  rfl

theorem bootGo_badLen (hl : imgLenOk (s.rf 0xF010 0 21) = false) :
    bootGo 1#32 s = modBoot (fun x => { x with error := 2, result := 3, reading := none, waiting := true }) (pcount 13 s) := by
  have hb : bit 1#32 0 = true := rfl
  simp only [bootGo, hb, hm, hl, if_true, Bool.true_eq_false, if_false]
  rfl
end

theorem bootGo_busy {s : State} (hm : hostMayLoad s = false) : bootGo 1#32 s = modBoot (fun b => { b with result := 4 }) s := by
  simp [bootGo, bit, hm]

/-- Settles O9: GO is a let-through write of SV_BOOT_CTRL, in each of bootGo's three outcomes. -/
theorem hostTransferStarts : Obligations.HostTransferStarts := by
  intro s a h
  have hu : s.hostUp = (agentPre a s).hostUp := by unfold agentPre; split <;> rfl
  refine ⟨fun hm hl => ?_, fun hm hl => ?_, fun hm => ?_⟩ <;> rw [exec_go h]
  · rw [bootGo_reads (by rw [hostMayLoad_agentPre, hm]) (by rw [agentPre_at_rf, hl]), hu]
    simp
  · rw [bootGo_badLen (by rw [hostMayLoad_agentPre, hm]) (by rw [agentPre_at_rf, hl])]
  · rw [bootGo_busy (by rw [hostMayLoad_agentPre, hm])]

end Sys2Proof.Machine
end

section
/-!
SUPPORT. The host interface: reads that latch (R470, R471), its resets (R360, R477), its identity (R1, R472), doorbells (R363, R364)
and the set-up of rings (R365, R367, R368).
-/
namespace Sys2Proof.Machine

/-! ## Reads that latch (R470, R471) -/

/-- A LO register's HI register is the next one, and the LO register stands in pages 2, 3, 8, B or D. -/
theorem hiOf_cases {o h : Nat} (hh : hiOf o = some h) : h = o + 4 ∧
    ((o = 0x3028 ∨ o = 0x8010 ∨ o = 0xD008 ∨ o = 0xD010 ∨ o = 0xD01C ∨ o = 0x2034) ∨
      (0x3300 ≤ o ∧ o < 0x3380 ∧ o % 0x20 = 0x18) ∨ (0xB000 ≤ o ∧ o < 0xB800 ∧ (o % 0x80 = 0x24 ∨ o % 0x80 = 0x44))) := by
  unfold hiOf at hh
  split_ifs at hh with h1 h2 h3 <;> cases hh
  · exact ⟨rfl, .inl h1⟩
  · exact ⟨rfl, .inr (.inl h2)⟩
  · exact ⟨rfl, .inr (.inr h3)⟩

/-- A read of a LO register latches its HI register and does nothing else. -/
theorem readEffect_lo {o h : Nat} (a : Nat) (s : State) (hh : hiOf o = some h) : readEffect a o s = setLatch a h (hiLive s h) s := by
  obtain ⟨rfl, ho⟩ := hiOf_cases hh
  unfold readEffect
  rw [if_neg (by omega), if_neg (by omega), if_neg (by omega), if_neg (by omega), hh]

/-- A HI register is listed (R473). -/
theorem regInfo_hi {o h : Nat} (hh : hiOf o = some h) : (regInfo h).isSome = true := by
  obtain ⟨rfl, ho⟩ := hiOf_cases hh
  rcases ho with (rfl | rfl | rfl | rfl | rfl | rfl) | ⟨h1, h2, h3⟩ | ⟨h1, h2, h3⟩
  all_goals try rfl
  · obtain ⟨k, hk, rfl⟩ : ∃ k < 4, o = 0x3318 + 0x20 * k := ⟨(o - 0x3318) / 0x20, by omega, by omega⟩
    interval_cases k <;> rfl
  · obtain ⟨k, hk, d, hd, rfl⟩ : ∃ k < 16, ∃ d ∈ [0x24, 0x44], o = 0xB000 + 0x80 * k + d :=
      ⟨(o - 0xB000) / 0x80, by omega, o % 0x80, by simpa using h3, by omega⟩
    fin_cases hd <;> interval_cases k <;> rfl

/-- A HI register reads as the reading agent's latch. -/
theorem readReg_hi {o h : Nat} (s : State) (a : Nat) (hh : hiOf o = some h) : readReg s a h = s.latchOf a h := by
  have hi := regInfo_hi hh
  obtain ⟨rfl, ho⟩ := hiOf_cases hh
  have hl : latched (o + 4) = true := by simp [latched, hh]
  simp [readReg, hl, Option.isNone_eq_false_iff.mpr hi]

/-- The read of a HI register outside the media pages changes latches of later registers alone. -/
theorem readEffect_hi {o h : Nat} (a : Nat) (s : State) (hh : hiOf o = some h) :
    (readEffect a h s).out = s.out ∧ (readEffect a h s).latchOf a h = s.latchOf a h := by
  obtain ⟨rfl, ho⟩ := hiOf_cases hh
  unfold readEffect
  rw [if_neg (by omega), if_neg (by omega), if_neg (by omega), if_neg (by omega)]
  split
  next h' hh' => obtain ⟨rfl, -⟩ := hiOf_cases hh'; simp
  · exact ⟨rfl, rfl⟩

theorem hostMayRead_served {s : State} {o : Nat} (h : hostMayRead s o = true) : hostServed s = true ∧ s.awake = true ∧
    o < 0x10000 ∧ o % 4 = 0 ∧ ¬ (0xC800 ≤ o ∧ o < 0xD000) := by
  simp only [hostMayRead, Bool.and_eq_true, decide_eq_true_eq, Bool.not_eq_true', decide_eq_false_iff_not] at h
  obtain ⟨⟨⟨hs, hw⟩, ho, h4⟩, hc⟩ := h
  exact ⟨hs, hw, ho, h4, hc⟩

/-- The host's 4-byte read of a register. -/
theorem hostRead_reg {s : State} {o : Nat} (h : hostMayRead s o = true) :
    hostRead o false s = emit (.readData 0 o (mkD 0#32 (readReg s 0 o))) (readEffect 0 o s) := by
  obtain ⟨hs, hw, ho, h4, hc⟩ := hostMayRead_served h
  simp [hostRead, hs, hw, h4, show ¬ 0x18000 ≤ o by omega, Nat.not_le.mpr ho, hc, regRead]

/-- The host's 8-byte read of a pair of registers. -/
theorem hostRead_pair {s : State} {o : Nat} (h : hostMayRead s o = true) (h8 : o % 8 = 0) :
    hostRead o true s = emit (.readData 0 o (mkD (readReg (readEffect 0 o s) 0 (o + 4)) (readReg s 0 o)))
      (readEffect 0 (o + 4) (readEffect 0 o s)) := by
  obtain ⟨hs, hw, ho, h4, hc⟩ := hostMayRead_served h
  simp [hostRead, hs, hw, h8, show ¬ 0x18000 ≤ o by omega, Nat.not_le.mpr ho, hc, regRead, regRead8]

theorem emit_readData (a o : Nat) (v : DWord) (s : State) :
    emit (.readData a o v) s = { s with out := .readData a o v :: s.out } := by
  simp [emit, Output.onBall]
@[simp] theorem emit_readData_out (a o : Nat) (v : DWord) (s : State) :
    (emit (.readData a o v) s).out = .readData a o v :: s.out := by
  simp [emit_out, Output.onBall]
@[simp] theorem emit_latchOf (x : Output) (s : State) (a o : Nat) : (emit x s).latchOf a o = s.latchOf a o := by
  simp [State.latchOf]

theorem deLevel_emit (x : Output) (s : State) (n : Nat) : deLevel (emit x s) n = deLevel s n := by
  unfold emit; split <;> rfl

/-- A command that changes no level of an APn_DE drives what it has driven itself. -/
theorem settle_out_of_deLevel {s t : State} (h : ∀ n, deLevel t n = deLevel s n) : (settle s t).out = t.out := by
  rw [settle_out, dePins_same fun n _ => (h n).symm]

/-- A run of latch writes changes the latches alone. -/
theorem forAll_setLatch_eq (a : Nat) (o p : Nat → Nat) (v w : Nat → Word) (s : State) (l : List Nat) (t : State)
    (ht : ∃ k, t = { s with latch := k }) :
    ∃ k, forAll l (fun n u => setLatch a (o n) (v n) (setLatch a (p n) (w n) u)) t = { s with latch := k } := by
  induction l generalizing t with
  | nil => exact ht
  | cons n l ih =>
    obtain ⟨k, rfl⟩ := ht
    exact ih _ ⟨_, rfl⟩

theorem latchDt_eq (a : Nat) (s : State) : ∃ k, latchDt a s = { s with latch := k } :=
  forAll_setLatch_eq a _ _ _ _ s [0, 1, 2, 3] _ ⟨_, rfl⟩

theorem deLevel_latch (s : State) (k : List (Nat × Word)) (n : Nat) : deLevel { s with latch := k } n = deLevel s n := rfl

/-- A read of TP_DT_LO latches TP_DT_HI and each channel's cycle and angle (R471). -/
theorem latchDt_latches (s : State) : (latchDt 0 s).latchOf 0 0x300C = w32 (s.dt / 0x100000000) ∧
    ∀ n, n < 4 → (latchDt 0 s).latchOf 0 (prOff n 0x10) = w32 (cycNow s n) ∧
      (latchDt 0 s).latchOf 0 (prOff n 0x14) = prAng s n := by
  simp only [latchDt, forAll_cons, forAll_nil, State.latchOf_setLatch, prOff]
  refine ⟨by norm_num, fun n hn => ?_⟩
  interval_cases n <;> norm_num

theorem readReg_dtLo (s : State) (a : Nat) : readReg s a 0x3008 = w32 s.dt := by
  have hi : (regInfo 0x3008).isNone = false := by decide
  have hl : latched 0x3008 = false := by decide
  simp [readReg, hi, hl, rdTape]

theorem exec_loReadLatch_host (off : BitVec 17) (wide : Bool) (s : State) :
    exec (.loReadLatch 0 off wide) s = .next (settle s (hostRead off.toNat wide s)) := rfl

/-- The partner's 4-byte read of a register outside page C, with no lock and no image transfer pending (R401). -/
theorem inbound_read {s : State} {o : Nat} (hp : peerUp s = true) (hw : s.awake = true) (hl : s.peer.inLock = none)
    (hb : s.peer.bootWait = false) (ho : o / 0x1000 ≠ 0xC) :
    inbound false o 0#32 true 0 0 false s =
      sendCpl [cplWord 1 0 0, readReg (count (ctPb 30) 1 s) 1 o] (readEffect 1 o (count (ctPb 30) 1 s)) := by
  simp [inbound, hp, hw, hl, inboundRead, ho, hb, regRead]

/-- Settles O17: a host read is its value and readEffect's latches; the pair's high half reads the latch just set. -/
theorem readsLatch : Obligations.ReadsLatch := by
  refine ⟨fun s h => ?dt, fun s off hi hh => ⟨fun h => ?host, fun h h8 => ?wide, fun hp hw hl hb hc => ?partner⟩⟩
  case dt =>
    have he : exec (.tpDtLoRead 0 false) s = .next (settle s
        (emit (.readData 0 0x3008 (mkD 0#32 (w32 s.dt))) (latchDt 0 s))) :=
      calc exec (.tpDtLoRead 0 false) s = done s (core (hostRead 0x3008 false) s) := rfl
        _ = _ := by rw [done_core _ (hostMayRead_served h).2.1, hostRead_reg h, readReg_dtLo]; rfl
    obtain ⟨hdt, hch⟩ := latchDt_latches s
    refine ⟨_, he, ?_, by simpa using hdt, by simpa using hch, ?_⟩
    · obtain ⟨l, hl⟩ := latchDt_eq 0 s
      rw [settle_out_of_deLevel fun n => by rw [deLevel_emit, hl, deLevel_latch], emit_readData_out, hl]
    · obtain ⟨l, hl⟩ := latchDt_eq 0 s
      obtain ⟨o, ho⟩ := dePins_eq s (emit (.readData 0 0x3008 (mkD 0#32 (w32 s.dt))) (latchDt 0 s))
      unfold settle
      rw [irqPin_eq, ho, hl, emit_readData]
      split <;> rfl
  case host => rw [exec_loReadLatch_host, hostRead_reg h, readEffect_lo 0 s hh]
  case wide =>
    have hr := hostRead_pair h h8
    obtain ⟨hout, hlatch⟩ := readEffect_hi 0 (setLatch 0 hi (hiLive s hi) s) hh
    have hval := readReg_hi (setLatch 0 hi (hiLive s hi) s) 0 hh
    rw [readEffect_lo 0 s hh, ← (hiOf_cases hh).1, hval] at hr
    refine ⟨_, exec_loReadLatch_host off true s, ?_, ?_⟩
    · rw [settle_at_latchOf, hr, emit_latchOf, hlatch]; simp
    · have hde : ∀ n, deLevel (hostRead off.toNat true s) n = deLevel s n := fun n => by
        rw [hr, deLevel_emit]
        obtain ⟨rfl, ho⟩ := hiOf_cases hh
        unfold readEffect
        rw [if_neg (by omega), if_neg (by omega), if_neg (by omega), if_neg (by omega)]
        split <;> rfl
      rw [settle_out_of_deLevel hde, hr, emit_readData_out, hout]; simp
  case partner =>
    obtain ⟨rfl, ho⟩ := hiOf_cases hh
    have ha : ¬ (false = true ∨ 0x10000 ≤ off.toNat) := by simp; omega
    calc exec (.loReadLatch 1 off false) s = done s (agentRead 1 off.toNat false s) := rfl
      _ = done s (inbound false off.toNat 0#32 true 0 0 false s) := by simp only [agentRead, if_neg ha, hl]; rfl
      _ = _ := by rw [inbound_read hp hw hl hb hc, readEffect_lo 1 _ hh, done_eq]

/-! ## Resets of the host interface (R360, R477) -/

theorem exec_hostInterfaceReset {s : State} (kind : Fin 3) (h : s.up? = true) :
    exec (.hostInterfaceReset kind) s = .next (settle s (hostReset s)) :=
  calc exec (.hostInterfaceReset kind) s = done s (whenDo s.up? hostReset s) := rfl
    _ = _ := by rw [h, whenDo_true, done_eq]

theorem exec_perst {s : State} (level : Bool) (h : s.up? = true) :
    exec (.perst level) s = .next (settle s (perstTo level s)) :=
  calc exec (.perst level) s = done s (if s.up? then perstTo level s else { s with perst := level }) := rfl
    _ = _ := by rw [if_pos h, done_eq]

/-- Settles O18: hostReset's equation without an image read, and the boot controller after one that has an image read. -/
theorem hostInterfaceResets : Obligations.HostInterfaceResets := by
  intro s hup
  refine ⟨fun kind hr => ?plain, fun kind hr => ?image, fun hp => ?low, ?high⟩
  case plain =>
    rw [exec_hostInterfaceReset kind hup, hostReset, decide_eq_false hr]
    rfl
  case image =>
    have hboot : (hostReset s).boot = (hostImageRejected 8 s).boot := by simp only [hostReset, hr, decide_true]; rfl
    refine ⟨_, exec_hostInterfaceReset kind hup, ?_, ?_, ?_, ?_⟩
    · rw [settle_boot, hboot]; rfl
    · rw [settle_boot, hboot]; rfl
    · rw [settle_boot, hboot]; rfl
    · rw [settle_bme]; rfl
  case low => rw [exec_perst false hup]; simp [perstTo, hp]
  case high => rw [exec_perst true hup]; simp [perstTo]

/-! ## The identity (R1, R472) -/

/-- A device out of reset whose register file holds 0 at HI_ID's offset; no rule of the model forbids such a state. -/
def blankId : State := { inReset := false, regs := [(0, 0#32)] }

/-- Refutes O19: it asks for HI_ID's value in every state, but a read of HI_ID gives what the register file holds at offset 0, and
blankId, which meets the hypotheses, holds 0 there, so that HI_ID.PART reads 0 and not 0x7480. -/
theorem not_pciStates : ¬ Obligations.PciStates := by
  intro h
  have hup : blankId.up? = true := by decide
  obtain ⟨-, -, -, -, -, hid, -⟩ := h blankId hup rfl
  exact absurd hid (by decide +kernel)

/-! ## Doorbells (R363, R364) -/

section
variable {s : State} {page : Fin 8} {slot : BitVec 12} (lo hi : Word) (hs : hostServed s = true) (hw : s.awake = true)
include hs hw

theorem exec_doorbellWrite (h8 : slot.toNat % 8 = 0) :
    exec (.doorbellWrite page slot lo hi) s = .next (settle s (doorbell page slot.toNat lo hi s)) := by
  have hp := page.isLt
  have hslot := slot.isLt
  have hpage : (0x10000 + 0x1000 * page.val + slot.toNat - 0x10000) / 0x1000 = page := by omega
  have hoff : (0x10000 + 0x1000 * page.val + slot.toNat) % 0x1000 = slot.toNat := by omega
  calc exec (.doorbellWrite page slot lo hi) s
      = done s (hostWrite (0x10000 + 0x1000 * page.val + slot.toNat) (mkD hi lo) 8 true false s) := rfl
    _ = _ := by
      rw [hostWrite_doorbell hs hw _ (by omega) (by omega) (by omega), hpage, hoff, loW_mkD, hiW_mkD, done_eq]
end

/-- A doorbell of a slot of a ring once boot has ended (R364). -/
theorem doorbell_ring {s : State} {o r : Nat} (d : Nat) (lo hi : Word) (hs : hostServed s = true) (hw : s.awake = true)
    (hb : s.boot.done = true) (h8 : o % 8 = 0) (hr : slotRing o = some r) :
    doorbell d o lo hi s =
      if ringOwner s r ≠ d then raise 0x1928 0x10 (count (ctHi (326 + d)) 1 s)
      else if ringOn s r = false ∨ hi ≠ ~~~lo ∨ dbValid (s.ring r) r lo = false then dbBad r lo s
      else issueReads (count (ctHi 324) 1 (s.setRing r (if r = 65 then { s.ring r with d := lo } else { s.ring r with h := lo }))) := by
  simp [doorbell, hostServed_d3hot hs, hw, hostServed_perst hs, hb, h8, hr]

/-- Settles O20: the tests of doorbell_ring in their order. -/
theorem doorbellMoves : Obligations.DoorbellMoves := by
  intro s page slot lo hi r hs hw hb h8 hr
  refine ⟨fun hown hon hc hv => ?_, fun hown => ?_, fun hown hbad => ?_⟩ <;>
    rw [exec_doorbellWrite lo hi hs hw h8, doorbell_ring _ lo hi hs hw hb h8 hr]
  · have hok : ¬ (ringOn s r = false ∨ hi ≠ ~~~lo ∨ dbValid (s.ring r) r lo = false) := by simp [hon, hc, hv]
    rw [if_neg (not_not.mpr hown), if_neg hok]
  · rw [if_pos hown]
  · rw [if_neg (not_not.mpr hown), if_pos hbad, dbBad]

/-! ## Rings (R365, R367, R368) -/

theorem ringOff_eq {r : Nat} (hr : r < 66) : ringOff r = 0x1000 + 0x20 * r := by unfold ringOff; split_ifs <;> omega

theorem writeReg_ringCfg {r : Nat} (v : Word) (s : State) (hr : r < 66) : writeReg (ringOff r + 8) v s = wrRingCfg r v s := by
  rw [ringOff_eq hr]
  have hpage : (0x1000 + 0x20 * r + 8) / 0x1000 = 1 := by omega
  have hd : dated (0x1000 + 0x20 * r + 8) = false := decide_eq_false (by omega)
  have hring : (0x1000 + 0x20 * r + 8 - 0x1000) / 0x20 = r := by omega
  have hreg : (0x1000 + 0x20 * r + 8) % 0x20 = 8 := by omega
  have hin : 0x1000 ≤ 0x1000 + 0x20 * r + 8 ∧ 0x1000 + 0x20 * r + 8 < 0x1840 := by omega
  have hoffer : 0x1000 + 0x20 * r + 8 ≠ 0x10 := by omega
  simp only [writeReg, hpage, hd, whenDo_false, wrHost, hring, hreg, if_pos hin, if_neg hoffer, if_true]

theorem exec_ringEnableWrite {s : State} {a : Fin 3} {ring : Fin 66} {val : Word}
    (h : agentMayWrite a s (ringOff ring + 8) val = true) :
    exec (.ringEnableWrite a ring val) s =
      .next (settle s (agentDone a (ringOff ring + 8) s (wrRingCfg ring val (agentPre a s)))) := by
  rw [← writeReg_ringCfg val _ ring.isLt]
  exact done_agentWrite h

theorem liveGen_agentPre (a : Nat) (s : State) (r : Nat) (v : Word) : liveGen (agentPre a s) r v = liveGen s r v := by
  unfold agentPre; split <;> rfl
theorem activateBad_agentPre (a : Nat) (s : State) (r : Nat) (v : Word) :
    activateBad (agentPre a s) r v = activateBad s r v := by unfold agentPre; split <;> rfl

section
variable {s : State} {r : Nat} {v : Word}

theorem wrRingCfg_activates (hoff : (s.ring r).active = false) (hen : bit v 8 = true) (hok : activateBad s r v = false) :
    wrRingCfg r v s = (s.setReg (ringOff r + 8) (v &&& 0x1FF#32)).setRing r
      { active := true, gen := liveGen s r v, size := field v 0 5, owner := (s.ring r).owner, reads := (s.ring r).reads,
        base := (s.reg (ringOff r + 4)).toNat * 0x100000000 + (s.reg (ringOff r)).toNat } := by
  simp [wrRingCfg, hoff, hen, hok]

theorem wrRingCfg_refused (hoff : (s.ring r).active = false) (hen : bit v 8 = true) (hbad : activateBad s r v = true) :
    wrRingCfg r v s = ringErr r 6 0 (s.setReg (ringOff r + 8) (v &&& 0xFF#32)) := by
  simp [wrRingCfg, hoff, hen, hbad]

theorem wrRingCfg_active (hon : (s.ring r).active = true) (hsame : field v 0 8 = field (s.reg (ringOff r + 8)) 0 8) :
    wrRingCfg r v s = s.setReg (ringOff r + 8) (setField (s.reg (ringOff r + 8)) 8 1 (field v 8 1)) := by
  simp [wrRingCfg, hon, hsame]
end

theorem wrWbBase_hi {s : State} (v : Word) (h : s.rings.any (fun e => e.2.active) = false) :
    wrWbBase true v s = { s.setReg 0x1934 v with wbWritten := true } := by simp only [wrWbBase, h]; rfl
theorem wrWbBase_active {s : State} (hi : Bool) (v : Word) (h : s.rings.any (fun e => e.2.active) = true) :
    wrWbBase hi v s = badAccess s := by simp only [wrWbBase, h]; rfl

theorem writeReg_wbBaseHi (v : Word) (s : State) : writeReg 0x1934 v s = wrWbBase true v s := by
  have hd : dated 0x1934 = false := by decide
  simp [writeReg, hd, wrHost]

/-- Settles O21: the outcomes of wrRingCfg, and the writes of the generation offer and the write-back base. -/
theorem ringsSetUp : Obligations.RingsSetUp := by
  refine ⟨fun s a ring val h => ⟨fun hoff hen hok => ?activate, fun hoff hen hbad => ?refuse, fun hon hsame => ?active⟩,
    fun s a val => ⟨fun h => ?offer, fun h hr => ?base, fun h hr => ?busy⟩⟩
  case activate =>
    rw [exec_ringEnableWrite h, wrRingCfg_activates (by simpa using hoff) hen (by rw [activateBad_agentPre, hok]),
      liveGen_agentPre]
    simp
  case refuse => rw [exec_ringEnableWrite h, wrRingCfg_refused (by simpa using hoff) hen (by rw [activateBad_agentPre, hbad])]
  case active => rw [exec_ringEnableWrite h, wrRingCfg_active (by simpa using hon) (by simpa using hsame), agentPre_at_reg]
  case offer => exact done_agentWrite h
  case base =>
    exact (done_agentWrite h).trans (by rw [writeReg_wbBaseHi, wrWbBase_hi _ (by simpa using hr)])
  case busy =>
    exact (done_agentWrite h).trans (by rw [writeReg_wbBaseHi, wrWbBase_active _ _ (by simpa using hr)])

/-! ## SEAM_TEST (R349) -/

theorem exec_seamTest_of_headCmd {s : State} {c : Cmd} (hw : s.awake = true) (hc : headCmd s = some c) (hop : c.op = 4) :
    exec .seamTest s = .next (settle s (seamTestStart c (modCmd c.idx (fun x => { x with started := true }) s))) :=
  calc exec .seamTest s = done s (core (startHead 4 seamTestStart) s) := rfl
    _ = _ := by rw [done_core _ hw, startHead_of_headCmd seamTestStart hw hc hop]

theorem testBusy_modCmd (i : Word) (f : Cmd → Cmd) (s : State) (a : Bool) (l : List Nat) :
    testBusy (modCmd i f s) a l = testBusy s a l := rfl
theorem testSet_modCmd (i : Word) (f : Cmd → Cmd) (s : State) (k : Nat) (a : Bool) : testSet (modCmd i f s) k a = testSet s k a := rfl

theorem seamTestStart_busy {c : Cmd} {s : State}
    (h : testBusy s (bit (wordAt c.w 1) 2) (testSet s (field (wordAt c.w 1) 0 2) (bit (wordAt c.w 1) 2)) = true) :
    seamTestStart c s = doneCmd c.idx 2 0#32 0#32 (count (ctSm 10) 1 s) := if_pos h

theorem seamTestStart_begins {c : Cmd} {s : State}
    (h : testBusy s (bit (wordAt c.w 1) 2) (testSet s (field (wordAt c.w 1) 0 2) (bit (wordAt c.w 1) 2)) = false) :
    seamTestStart c s = setSeam ((testSet s (field (wordAt c.w 1) 0 2) (bit (wordAt c.w 1) 2)).headD 0) 1 (count (ctSm 9) 1
      (modSeam (fun x => { x with test := testSet s (field (wordAt c.w 1) 0 2) (bit (wordAt c.w 1) 2), testRes := 0,
                                  readmit := bit (wordAt c.w 1) 2, testCmd := c.idx }) s)) := by
  simp [seamTestStart, h]

/-- Settles O28: the two outcomes of seamTestStart; a device that is HALTED is none of testBusy's idle ones. -/
theorem seamTestStarts : Obligations.SeamTestStarts := by
  intro s c hw hc
  refine ⟨fun hop hb => ?_, fun hop hb => ?_, fun hh => by simp [testBusy, hh]⟩ <;>
    rw [exec_seamTest_of_headCmd hw hc hop]
  · rw [seamTestStart_begins (by rw [testSet_modCmd, testBusy_modCmd, hb]), testSet_modCmd]
  · rw [seamTestStart_busy (by rw [testSet_modCmd, testBusy_modCmd, hb])]

end Sys2Proof.Machine
end

section
/-!
SUPPORT. The boot controller: recovery (R438), cold boot (R432 to R434, R443), judged images (R436 to R439).
-/
namespace Sys2Proof.Machine

/-! ## Recovery asks the partner (R409, R438) -/

theorem emit_flit (f : Flit) (s : State) : emit (.flit f) s = { s with out := .flit f :: s.out } := by simp [emit, Output.onBall]
theorem emit_readReq (a n : Nat) (s : State) : emit (.readReq a n) s = { s with out := .readReq a n :: s.out } := by
  simp [emit, Output.onBall]

/-- A flit of link control carries its kind behind the header of the link's sequence numbers, and touches the link alone. -/
theorem linkFlit_eq (k : Nat) (s : State) : ∃ f cr r c, wordAt f.pay 0 = w32 k ∧ f.hdr = flitHdr 3 s.peer cr ∧
    linkFlit k s = { s with out := .flit f :: s.out, ctr := c, peer := { s.peer with ret := r } } := by
  refine ⟨{ hdr := flitHdr 3 s.peer (takeCredits s.peer.ret).1, pay := padFlit [w32 k, w32 (b2n s.rank), 0x748000B0#32] },
    (takeCredits s.peer.ret).1, (takeCredits s.peer.ret).2, (count (ctPb 16) 1 s).ctr, rfl, rfl, ?_⟩
  calc linkFlit k s
      = count (ctPb 16) 1 (emit (.flit ⟨flitHdr 3 s.peer (takeCredits s.peer.ret).1, padFlit [w32 k, w32 (b2n s.rank), 0x748000B0#32], 0⟩)
        { s with peer := { s.peer with ret := (takeCredits s.peer.ret).2 } }) := rfl
    _ = _ := by rw [emit_flit]; rfl

/-- A retrain touches the link alone, and keeps the partner's image. -/
theorem linkRetrains_eq (s : State) : ∃ o c p, p.bootWait = s.peer.bootWait ∧ p.bootWords = s.peer.bootWords ∧
    linkRetrains s = { s with out := o, ctr := c, peer := p } := by
  unfold linkRetrains
  split
  · obtain ⟨f, cr, r, c, -, -, h⟩ := linkFlit_eq 3 s
    rw [h]
    exact ⟨_, _, { s.peer with ret := r, st := 1, retraining := true }, rfl, rfl, rfl⟩
  · exact ⟨_, _, s.peer, rfl, rfl, rfl⟩

theorem bit0_or_one (v : Word) : bit (v ||| 1#32) 0 = true := by simp [bit]
theorem bit2_or_one (v : Word) : bit (v ||| 1#32) 2 = bit v 2 := by simp [bit]

/-- A write of PB_CTRL with EN set touches its register and the link alone, and keeps the partner's image. -/
theorem wrPbCtrl_of_en {v : Word} (s : State) (h : bit v 0 = true) :
    ∃ o c p, p.bootWait = s.peer.bootWait ∧ p.bootWords = s.peer.bootWords ∧
      wrPbCtrl v s = { s.setReg 0xC000 (v &&& 3#32) with out := o, ctr := c, peer := p } := by
  obtain ⟨p, hw, hb, hp⟩ : ∃ p : Peer, p.bootWait = s.peer.bootWait ∧ p.bootWords = s.peer.bootWords ∧
      wrPbCtrl v s = whenDo (bit v 2) linkRetrains { s.setReg 0xC000 (v &&& 3#32) with peer := p } := by
    by_cases hst : s.peer.st = 0
    · exact ⟨{ s.peer with st := 1 }, rfl, rfl, by simp [wrPbCtrl, h, hst, whenDo, modPeer]⟩
    · refine ⟨s.peer, rfl, rfl, ?_⟩
      simp only [wrPbCtrl, h, setReg_peer, hst, and_false, if_false, Bool.true_eq_false, false_and]
      rfl
  rw [hp]
  unfold whenDo
  split
  · obtain ⟨o, c, q, hqw, hqb, hq⟩ := linkRetrains_eq { s.setReg 0xC000 (v &&& 3#32) with peer := p }
    exact ⟨o, c, q, hqw.trans hw, hqb.trans hb, hq⟩
  · exact ⟨_, _, p, hw, hb, rfl⟩

/-- On a link that is up and does not retrain, a write of PB_CTRL with EN set changes its register alone. -/
theorem wrPbCtrl_up {v : Word} {s : State} (h : bit v 0 = true) (h2 : bit v 2 = false) (hup : peerUp s = true) :
    wrPbCtrl v s = s.setReg 0xC000 (v &&& 3#32) := by
  have hst : s.peer.st ≠ 0 := by
    intro h0
    simp [peerUp, h0] at hup
  simp [wrPbCtrl, h, h2, hst]

/-- The boot ROM waits for words from the partner with the staging area free (R409). -/
def awaiting (s : State) : State := modPeer (fun p => { p with bootWait := true, bootWords := [] }) s

theorem askPartner_def (s : State) : askPartner s =
    if peerUp (touch 0xC000 1 (wrPbCtrl (s.reg 0xC000 ||| 1#32) (awaiting s)))
    then linkFlit 4 (touch 0xC000 1 (wrPbCtrl (s.reg 0xC000 ||| 1#32) (awaiting s)))
    else touch 0xC000 1 (wrPbCtrl (s.reg 0xC000 ||| 1#32) (awaiting s)) := rfl

/-- Recovery's request touches PB_CTRL, the link, the outputs and their count alone. -/
theorem askPartner_eq (s : State) : ∃ o c p k h, p.bootWait = true ∧ p.bootWords = [] ∧
    askPartner s = { s.setReg 0xC000 ((s.reg 0xC000 ||| 1#32) &&& 3#32) with out := o, ctr := c, peer := p, hotAt := k, hot := h } := by
  obtain ⟨o, c, p, hw, hb, h⟩ := wrPbCtrl_of_en (awaiting s) (bit0_or_one (s.reg 0xC000))
  rw [askPartner_def, h]
  split
  · obtain ⟨f, cr, r, c', -, -, hl⟩ := linkFlit_eq 4 (touch 0xC000 1
      { (awaiting s).setReg 0xC000 ((s.reg 0xC000 ||| 1#32) &&& 3#32) with out := o, ctr := c, peer := p })
    rw [hl]
    exact ⟨_, _, { p with ret := r }, _, _, hw, hb, rfl⟩
  · exact ⟨_, _, p, _, _, hw, hb, rfl⟩

/-- With the link up, recovery raises BOOT_REQ at the partner by one flit. -/
theorem askPartner_up {s : State} (hup : peerUp s = true) (h2 : bit (s.reg 0xC000) 2 = false) :
    ∃ f cr, (askPartner s).out = .flit f :: s.out ∧ wordAt f.pay 0 = 4#32 ∧ f.hdr = flitHdr 3 s.peer cr := by
  obtain ⟨f, cr, r, c, hk, hh, hl⟩ := linkFlit_eq 4 (touch 0xC000 1
    ((awaiting s).setReg 0xC000 ((s.reg 0xC000 ||| 1#32) &&& 3#32)))
  rw [askPartner_def, wrPbCtrl_up (s := awaiting s) (bit0_or_one _) ((bit2_or_one _).trans h2) hup]
  rw [if_pos (show peerUp (touch 0xC000 1 ((awaiting s).setReg 0xC000 ((s.reg 0xC000 ||| 1#32) &&& 3#32))) = true from hup), hl]
  exact ⟨f, cr, rfl, hk, hh⟩

theorem bit0_en (v : Word) : bit ((v ||| 1#32) &&& 3#32) 0 = true := by simp [bit]

/-- Settles O8: askPartner_eq names all that recovery's request changes, askPartner_up its flit. -/
theorem recoveryAsks : Obligations.RecoveryAsks := by
  intro s
  obtain ⟨o, c, p, k, h, hw, hb, he⟩ := askPartner_eq s
  have hreg : ∀ a, (askPartner s).reg a = (s.setReg 0xC000 ((s.reg 0xC000 ||| 1#32) &&& 3#32)).reg a := fun a => by rw [he]; rfl
  refine ⟨?_, fun a ha => ?_, ?_, ?_, ?_, ?_, ?_, askPartner_up⟩
  · simp [State.rb, hreg, bit0_en]
  · rw [hreg]; simp [ha]
  all_goals rw [he]
  · exact hw
  · exact hb
  · rfl
  · rfl
  · rfl

/-! ## Cold boot (R432 to R434, R443) -/

/-- What the steps before an image source is asked leave as a cold boot's reset made it. -/
structure BootKept (s t : State) : Prop where
  inReset : t.inReset = s.inReset
  rank : t.rank = s.rank
  boot : t.boot = s.boot
  store : t.store = s.store
  bobs : t.bobs = s.bobs
  engs : t.engs = s.engs
  cells : t.cells = s.cells

namespace BootKept
theorem refl (s : State) : BootKept s s := ⟨rfl, rfl, rfl, rfl, rfl, rfl, rfl⟩
theorem trans {s t u : State} (h : BootKept s t) (k : BootKept t u) : BootKept s u :=
  ⟨k.inReset.trans h.inReset, k.rank.trans h.rank, k.boot.trans h.boot, k.store.trans h.store, k.bobs.trans h.bobs,
    k.engs.trans h.engs, k.cells.trans h.cells⟩
end BootKept

theorem bootKept_whenDo {c : Bool} {f : State → State} {s : State} (h : BootKept s (f s)) : BootKept s (whenDo c f s) := by
  cases c
  · exact .refl s
  · exact h
theorem bootKept_setReg (o : Nat) (v : Word) (s : State) : BootKept s (s.setReg o v) := ⟨rfl, rfl, rfl, rfl, rfl, rfl, rfl⟩
theorem bootKept_raise (o m : Nat) (s : State) : BootKept s (raise o m s) := ⟨rfl, rfl, rfl, rfl, rfl, rfl, rfl⟩
theorem bootKept_pcount (k : Nat) (s : State) : BootKept s (pcount k s) := ⟨rfl, rfl, rfl, rfl, rfl, rfl, rfl⟩
theorem bootKept_modPw (f : Power → Power) (s : State) : BootKept s (modPw f s) := ⟨rfl, rfl, rfl, rfl, rfl, rfl, rfl⟩
theorem bootKept_emit (x : Output) (s : State) : BootKept s (emit x s) := by constructor <;> simp

theorem bootKept_slotFaults {α : Type} (bad : Nat) (m : SMap α) (s : State) : BootKept s (slotFaults bad m s) :=
  bootKept_whenDo ((bootKept_raise _ _ s).trans (bootKept_raise _ _ _))
theorem bootKept_persLoad (bad : Nat) (s : State) : BootKept s (persLoad bad s) :=
  (bootKept_modPw _ s).trans (bootKept_slotFaults bad _ _)
theorem bootKept_applyUser (u : UserRec) (src : Nat) (s : State) : BootKept s (applyUser u src s) :=
  (bootKept_modPw (fun p => { p with calLive := u, calSrc := src }) s).trans (bootKept_whenDo (bootKept_raise _ _ _))
theorem bootKept_userTrims (bad : Nat) (s : State) : BootKept s (userTrims bad s) := by
  refine (bootKept_slotFaults bad s.pw.user s).trans ?_
  unfold userTrims
  split
  · exact bootKept_applyUser _ _ _
  · exact (bootKept_modPw _ _).trans (bootKept_raise _ _ _)

/-- The device as a cold boot finds it: the core in its reset state with the sampled straps. -/
def strapped (boot : Nat) (rank : Bool) (vio33 mram : Nat) (s : State) : State :=
  { coreReset s with
    inReset := false, rank := rank, peer := { rank := rank },
    boot := { source := boot, phase := if boot = 3 then 1 else 0, stage := 1, slowBad := mram % 0x100 },
    pw := { (coreReset s).pw with hib := none, vio33 := vio33, clkReq := true, brown := false } }

/-- The steps between the straps and the memory test: CLKREQ_N, the persistent counters, the trims. -/
def trimmed (boot : Nat) (rank : Bool) (vio33 mram : Nat) (s : State) : State :=
  userTrims (mram / 0x100) (whenDo s.pw.brown (pcount 8)
    (pcount 0 (persLoad (mram / 0x10000) (emit (.pin 6 false) (strapped boot rank vio33 mram s)))))

theorem bootUp_eq (boot : Nat) (rank : Bool) (vio33 bist seams mram : Nat) (s : State) :
    bootUp boot rank vio33 bist seams mram s =
      if (memBist bist seams (bootStage 2 (trimmed boot rank vio33 mram s))).boot.stopped
      then memBist bist seams (bootStage 2 (trimmed boot rank vio33 mram s))
      else askSource (memBist bist seams (bootStage 2 (trimmed boot rank vio33 mram s))) := rfl

theorem bootKept_trimmed (boot : Nat) (rank : Bool) (vio33 mram : Nat) (s : State) :
    BootKept (strapped boot rank vio33 mram s) (trimmed boot rank vio33 mram s) :=
  (bootKept_emit _ _).trans <| (bootKept_persLoad _ _).trans <| (bootKept_pcount 0 _).trans <|
    (bootKept_whenDo (bootKept_pcount 8 _)).trans (bootKept_userTrims _ _)

/-- A store or checkpoint SRAM that fails BIST stops boot (R443). -/
theorem memBist_storeBad {v : Nat} (seams : Nat) (s : State) (h : nbit v 0 = true) : memBist v seams s = bootStops 9 s := by
  simp [memBist, h]

/-- Memories and seams that pass leave SM_SELFTEST and the stage. -/
theorem memBist_good (s : State) : memBist 0 0 s = (bootStage 3 s).setReg 0x8038 (w32 3) := by
  have hb : ∀ e : Nat, nbit 0 e = false := fun e => by simp [nbit]
  simp [memBist, seamBist, hb, b2n]

/-- The levels that settle drives anew stand in front of what the command drove itself. -/
theorem settle_out_prefix (s t : State) : ∃ l, (settle s t).out = l ++ t.out ∧ l.length ≤ 16 := by
  have key : ∀ (ns : List Nat) (u : State), ∃ l, (forAll ns (deDrive s t) u).out = l ++ u.out ∧ l.length ≤ ns.length := by
    intro ns
    induction ns with
    | nil => exact fun u => ⟨[], rfl, Nat.le_refl _⟩
    | cons n ns ih =>
      intro u
      obtain ⟨l, hl, hn⟩ := ih (deDrive s t n u)
      obtain ⟨k, hk, hk1⟩ : ∃ k, (deDrive s t n u).out = k ++ u.out ∧ k.length ≤ 1 := by
        unfold deDrive whenDo
        split
        · rw [emit_out]
          split
          · exact ⟨[], rfl, by simp⟩
          · exact ⟨[_], rfl, by simp⟩
        · exact ⟨[], rfl, by simp⟩
      refine ⟨l ++ k, ?_, ?_⟩
      · rw [forAll_cons, hl, hk, List.append_assoc]
      · simp only [List.length_append, List.length_cons]; omega
  obtain ⟨l, hl, hn⟩ := key (List.range 16) t
  exact ⟨l, by rw [settle_out, dePins_eq_forAll, hl], by simpa using hn⟩

/-- What a command drives last is among the first 17 outputs. -/
theorem mem_take_settle_out {s t : State} {x : Output} {r : List Output} (h : t.out = x :: r) : x ∈ (settle s t).out.take 17 := by
  obtain ⟨l, hl, hn⟩ := settle_out_prefix s t
  rw [hl, h]
  have : (l ++ x :: r).take 17 = l ++ (x :: r).take (17 - l.length) := by
    rw [List.take_append, List.take_of_length_le (by omega)]
  rw [this]
  obtain ⟨m, hm⟩ : ∃ m, 17 - l.length = m + 1 := ⟨16 - l.length, by omega⟩
  simp [hm]

theorem exec_coldBoot {s : State} (boot : BitVec 2) (rank : Bool) (vio bist : BitVec 4) (seams : BitVec 3) (mram : BitVec 24)
    (hr : s.inReset = true) (ht : s.testEn = false) (hp : s.pw.pwrReq = true) :
    exec (.coldBoot boot rank vio bist seams mram) s =
      .next (settle s (bootUp boot.toNat rank vio.toNat bist.toNat seams.toNat mram.toNat s)) :=
  calc exec (.coldBoot boot rank vio bist seams mram) s
      = done s (coldBoots boot.toNat rank vio.toNat bist.toNat seams.toNat mram.toNat s) := rfl
    _ = _ := by rw [coldBoots, if_pos ⟨hr, ht, hp⟩, done_eq]

/-- The state in which a device that passes its tests asks its image source. -/
def bistPassed (boot : Nat) (rank : Bool) (vio33 mram : Nat) (s : State) : State :=
  (bootStage 3 (bootStage 2 (trimmed boot rank vio33 mram s))).setReg 0x8038 (w32 3)

section
variable (boot : Nat) (rank : Bool) (vio33 mram : Nat) (s : State)

theorem bistPassed_boot : (bistPassed boot rank vio33 mram s).boot =
    { source := boot, phase := if boot = 3 then 1 else 0, stage := 3, slowBad := mram % 0x100 } := by
  have h := (bootKept_trimmed boot rank vio33 mram s).boot
  simp [bistPassed, bootStage, h, strapped]

theorem bistPassed_kept : (bistPassed boot rank vio33 mram s).inReset = false ∧ (bistPassed boot rank vio33 mram s).rank = rank ∧
    (bistPassed boot rank vio33 mram s).store = [] ∧ (bistPassed boot rank vio33 mram s).bobs = [] ∧
    (bistPassed boot rank vio33 mram s).engs = [] ∧ (bistPassed boot rank vio33 mram s).cells = [] := by
  obtain ⟨kin, krank, -, kstore, kbobs, kengs, kcells⟩ := bootKept_trimmed boot rank vio33 mram s
  simp [bistPassed, bootStage, kin, krank, kstore, kbobs, kengs, kcells, strapped, coreReset]

theorem bootUp_good : bootUp boot rank vio33 0 0 mram s = askSource (bistPassed boot rank vio33 mram s) := by
  have hb := bistPassed_boot boot rank vio33 mram s
  rw [bootUp_eq, memBist_good]
  change (if (bistPassed boot rank vio33 mram s).boot.stopped = true then bistPassed boot rank vio33 mram s
    else askSource (bistPassed boot rank vio33 mram s)) = _
  rw [hb]
  rfl

theorem bootUp_storeBad {bist : Nat} (seams : Nat) (h : nbit bist 0 = true) :
    bootUp boot rank vio33 bist seams mram s = bootStops 9 (bootStage 2 (trimmed boot rank vio33 mram s)) := by
  rw [bootUp_eq, memBist_storeBad seams _ h]
  rfl
end

/-- Asking the image source changes nothing that BootKept names but the boot controller. -/
theorem askSource_kept (s : State) : (askSource s).inReset = s.inReset ∧ (askSource s).rank = s.rank ∧
    (askSource s).store = s.store ∧ (askSource s).bobs = s.bobs ∧ (askSource s).engs = s.engs ∧ (askSource s).cells = s.cells := by
  unfold askSource
  split
  · rw [emit_readReq]; exact ⟨rfl, rfl, rfl, rfl, rfl, rfl⟩
  · obtain ⟨o, c, p, k, h, -, -, he⟩ := askPartner_eq (modBoot (fun b => { b with waiting := true }) s)
    rw [he]; exact ⟨rfl, rfl, rfl, rfl, rfl, rfl⟩
  · exact ⟨rfl, rfl, rfl, rfl, rfl, rfl⟩

theorem askPartner_boot (s : State) : (askPartner s).boot = s.boot := by
  obtain ⟨o, c, p, k, h, -, -, he⟩ := askPartner_eq s
  rw [he]; rfl
theorem askPartner_bootWait (s : State) : (askPartner s).peer.bootWait = true := by
  obtain ⟨o, c, p, k, h, hw, -, he⟩ := askPartner_eq s
  rw [he]; exact hw

theorem askSource_flash {s : State} (h : s.boot.source = 0) : (askSource s).boot = { s.boot with reading := some 0 } ∧
    (askSource s).out = .readReq 0 1048576 :: s.out := by
  unfold askSource
  rw [h, emit_readReq]
  exact ⟨rfl, rfl⟩
theorem askSource_waits {s : State} (h : s.boot.source ≠ 0) : (askSource s).boot = { s.boot with waiting := true } ∧
    (s.boot.source = 2 → (askSource s).peer.bootWait = true) := by
  unfold askSource
  split
  next h0 => exact absurd h0 h
  next => exact ⟨by rw [askPartner_boot]; rfl, fun _ => askPartner_bootWait _⟩
  next h2 => exact ⟨rfl, fun h => absurd h h2⟩

/-- Settles O6: a cold boot runs from the reset core to its image source, or to the stop that a failed memory test makes. -/
theorem coldBootStarts : Obligations.ColdBootStarts := by
  intro boot rank vio bist seams mram s hr ht hp
  refine ⟨fun hbist hseams => ?good, fun hbad => ?bad⟩
  case good =>
    subst hbist hseams
    have hex := exec_coldBoot boot rank vio 0#4 0#3 mram hr ht hp
    rw [show (0#4).toNat = 0 from rfl, show (0#3).toNat = 0 from rfl, bootUp_good] at hex
    have hb := bistPassed_boot boot.toNat rank vio.toNat mram.toNat s
    obtain ⟨hin, hrank, hstore, hbobs, hengs, hcells⟩ := bistPassed_kept boot.toNat rank vio.toNat mram.toNat s
    generalize bistPassed boot.toNat rank vio.toNat mram.toNat s = u at *
    have hsrc : u.boot.source = boot.toNat := by rw [hb]
    obtain ⟨ain, arank, astore, abobs, aengs, acells⟩ := askSource_kept u
    have hzero : boot = 0#2 ↔ boot.toNat = 0 := by rw [← BitVec.toNat_inj]; rfl
    have htwo : boot = 2#2 ↔ boot.toNat = 2 := by rw [← BitVec.toNat_inj]; rfl
    have hthree : boot = 3#2 ↔ boot.toNat = 3 := by rw [← BitVec.toNat_inj]; rfl
    obtain ⟨h1, h2, h3, h4⟩ : (askSource u).boot.source = boot.toNat ∧ (askSource u).boot.phase = (if boot = 3#2 then 1 else 0) ∧
        (askSource u).boot.stopped = false ∧ (askSource u).boot.stage = 3 := by
      by_cases h0 : boot.toNat = 0
      · rw [(askSource_flash (hsrc.trans h0)).1, hb]; simp [hthree]
      · rw [(askSource_waits (mt hsrc.symm.trans h0)).1, hb]; simp [hthree]
    refine ⟨_, hex, ?_, ?_, ?_, ?_, ?_, ?_, fun h0 => ?_, fun h0 => ?_, fun h2 => ?_, ?_, ?_, ?_, ?_⟩
    · rw [settle_inReset, ain, hin]
    · rw [settle_rank, arank, hrank]
    · rw [settle_boot, h1]
    · rw [settle_boot, h2]
    · rw [settle_boot, h3]
    · rw [settle_boot, h4]
    · obtain ⟨hb0, ho0⟩ := askSource_flash (hsrc.trans (hzero.mp h0))
      exact ⟨by rw [settle_boot, hb0], mem_take_settle_out ho0⟩
    · rw [settle_boot, (askSource_waits (mt hsrc.symm.trans (mt hzero.mpr h0))).1, hb]
      exact ⟨rfl, rfl⟩
    · have h2 := hsrc.trans (htwo.mp h2)
      rw [settle_peer]
      exact (askSource_waits (by omega)).2 h2
    · rw [settle_store, astore, hstore]
    · rw [settle_bobs, abobs, hbobs]
    · rw [settle_engs, aengs, hengs]
    · rw [settle_cells, acells, hcells]
  case bad =>
    have hn : nbit bist.toNat 0 = true := by simpa [nbit, BitVec.getLsbD, Nat.testBit] using hbad
    have hex := exec_coldBoot boot rank vio bist seams mram hr ht hp
    rw [bootUp_storeBad _ _ _ _ _ _ hn] at hex
    obtain ⟨kin, -, -, kstore, -, kengs, -⟩ := bootKept_trimmed boot.toNat rank vio.toNat mram.toNat s
    have hin : (strapped boot.toNat rank vio.toNat mram.toNat s).inReset = false := rfl
    have hstore : (strapped boot.toNat rank vio.toNat mram.toNat s).store = [] := rfl
    have hengs : (strapped boot.toNat rank vio.toNat mram.toNat s).engs = [] := rfl
    rw [hin] at kin; rw [hstore] at kstore; rw [hengs] at kengs
    generalize trimmed boot.toNat rank vio.toNat mram.toNat s = u at *
    refine ⟨_, hex, ?_, ?_, ?_, ?_, ?_, ?_, ?_, ?_⟩
    · simp [bootStops, bootStage, kin]
    · simp [bootStops]
    · simp [bootStops]
    · simp [bootStops]
    · simp [bootStops]
    · simp [bootStops, State.rb, bit, w32]
    · simp [bootStops, bootStage, kstore]
    · simp [bootStops, bootStage, kengs]

end Sys2Proof.Machine
end

section
/-!
SUPPORT. Judged images (R436 to R439) and the records of the boot script (R441).
-/
namespace Sys2Proof.Machine

/-! ## Judged images -/

/-- A script whose first record can be carried out is looked at without effect. -/
theorem scriptLook_good {s : State} (h : s.boot.script.head? ≠ some .bad) : scriptLook s = s := by
  unfold scriptLook
  split
  next t ht => rw [ht] at h; exact absurd rfl h
  next => rfl

theorem slotFaults_boot {α : Type} (bad : Nat) (m : SMap α) (s : State) : (slotFaults bad m s).boot = s.boot :=
  (bootKept_slotFaults bad m s).boot

/-- A slow checkpoint that is restored leaves the boot controller. -/
theorem slowLoad_boot (bad : Nat) (s : State) : (slowLoad bad s).boot = s.boot := by
  unfold slowLoad
  split
  · exact slotFaults_boot _ _ _
  · dsimp only
    rw [forAll_keep State.boot _ fun e u => setCell_boot _ _ _]
    rw [forAll_keep State.boot _ fun e u => modEng_boot _ _ _]
    exact slotFaults_boot _ _ _

/-- An accepted image of any source but the partner, whose script starts with a record that can be carried out. -/
theorem imageTaken_runs {src : Nat} {img : List Byte} (s : State) (hsrc : src ≠ 3)
    (h : (imageScript img).head? ≠ some .bad) :
    imageTaken src img s = whenDo (bit (w32 (imgField img 22 1)) 0) (slowLoad s.boot.slowBad)
      (modPeer (fun p => { p with bootWait := false })
        (modBoot (fun x => { x with image := src, reading := none, waiting := false, running := true, stage := max x.stage 4,
                                    power := imgField img 21 1, script := imageScript img,
                                    result := if src = 2 then 2 else x.result }) s)) := by
  unfold imageTaken
  simp only [if_neg hsrc]
  refine scriptLook_good ?_
  rw [whenDo_keep State.boot _ _ _ (slowLoad_boot _ _)]
  exact h

/-- An image read of source 0 or 1 that ends is judged as it stands. -/
theorem imageDone_flash {s : State} {src : Nat} (ok : Bool) (img : List Byte) (hw : s.awake = true)
    (hr : s.boot.reading = some src) (hsrc : src ≠ 2) :
    imageDone ok img s = if imageError ok img = 0 then imageTaken src img s else imageRefused src (imageError ok img) s := by
  simp [imageDone, hr, hw, hsrc]

/-- The host's image is judged up to SV_BOOT_LEN. -/
theorem imageDone_host {s : State} (ok : Bool) (img : List Byte) (hw : s.awake = true) (hr : s.boot.reading = some 2)
    (hup : s.hostUp = true) :
    imageDone ok img s = if imageError ok (img.take (s.rf 0xF010 0 21)) = 0 then imageTaken 2 (img.take (s.rf 0xF010 0 21)) s
      else imageRefused 2 (imageError ok (img.take (s.rf 0xF010 0 21))) s := by
  simp [imageDone, hr, hw, hup]

/-- Recovery is entered outside TEST (R438). -/
theorem bootFails_run {s : State} (code : Nat) (h : s.boot.phase ≠ 1) :
    bootFails code s = askPartner (modBoot (fun x => { x with phase := 2, error := code, reading := none, waiting := true,
                                                              running := false, script := [] }) (raise 0xF020 2 s)) := by
  unfold bootFails
  rw [if_neg h]
  rfl

theorem exec_imageReadComplete {s : State} (ok : Bool) (img : List Byte) (hw : s.awake = true) :
    exec (.imageReadComplete ok img) s = .next (settle s (imageDone ok img s)) :=
  calc exec (.imageReadComplete ok img) s = done s (core (imageDone ok img) s) := rfl
    _ = _ := done_core _ hw

/-- Settles O7: the image is judged by imageDone, and taken or refused as its source says. -/
theorem imageJudged : Obligations.ImageJudged := by
  intro s ok img hw runs taken
  refine ⟨fun hr hruns => ?flashA, fun hr hp hruns => ?flashB, ?host⟩
  case flashA =>
    rw [exec_imageReadComplete ok img hw, imageDone_flash ok img hw hr (by decide)]
    by_cases he : imageError ok img = 0
    · rw [if_pos he, if_pos he, imageTaken_runs s (by decide) (hruns he).2]
    · rw [if_neg he, if_neg he]
      exact congrArg (fun t => Host.Outcome.next (settle s t)) (emit_readReq _ _ _)
  case flashB =>
    rw [exec_imageReadComplete ok img hw, imageDone_flash ok img hw hr (by decide)]
    by_cases he : imageError ok img = 0
    · rw [if_pos he, if_pos he, imageTaken_runs s (by decide) (hruns he).2]
    · rw [if_neg he, if_neg he]
      exact congrArg (fun t => Host.Outcome.next (settle s t)) (bootFails_run (s := pcount 13 s) _ hp)
  case host =>
    intro hr hup b hruns
    rw [exec_imageReadComplete ok img hw, imageDone_host ok img hw hr hup]
    by_cases he : imageError ok b = 0
    · rw [if_pos he, if_pos he, imageTaken_runs s (by decide) (hruns he).2]
    · rw [if_neg he, if_neg he]
      rfl

/-! ## Records of the boot script -/

/-- A device whose boot script writes SV_HOST at an FCLK edge at which the register file holds that the device has changed every bit
of that register; no rule of the model forbids such a state. -/
def hotScript : State :=
  { inReset := false, hot := [(0xF044, 0xFFFFFFFF#32)],
    boot := { running := true, script := [.write 0xF044 0x55555555#32, .endRec] } }

/-- Refutes O11: it asks that a script's WRITE of a register with RWB fields gives the RW bits the value in every state, but a WRITE
keeps what the device has changed at the same FCLK edge (R6, R469): in hotScript that is the whole register. -/
theorem not_scriptRecordsRun : ¬ Obligations.ScriptRecordsRun := by
  intro h
  obtain ⟨-, hwrite, -⟩ := h hotScript .endRec [] (by decide) rfl (by decide)
  have hclaim := hwrite 0xF044#17 0x55555555#32 { reset := 0xFFFF, rw := allOnes, rwb := true } rfl (by decide +kernel) (by decide)
    (by decide) rfl rfl
  have hmodel : exec (.write 0xF044#17 0x55555555#32) hotScript =
      .next (settle hotScript (scriptWrite 0xF044 0x55555555#32 hotScript)) :=
    done_core (scriptWrite 0xF044 0x55555555#32) (s := hotScript) (by decide)
  have hreg := congrArg (fun t => t.reg 0xF044) (Host.Outcome.next.inj (hmodel.symm.trans hclaim))
  simp only [settle_at_reg] at hreg
  exact absurd hreg (by decide +kernel)

/-! ## A LOAD of one entry -/

theorem entryCount_one {hd : Word} {im : List Word} (h : field hd 24 6 = im.length) :
    entryCount (hd :: im).length (hd :: im) = 1 := by
  have hz : ∀ n, entryCount n [] = 0 := fun n => by cases n <;> rfl
  simp [entryCount, h, hz]

/-- What an accepted entry of a table without SLOT_RESET or CLEAR adds to a load. -/
theorem loadOne_accepted {r : Reach} {t pos : Nat} {hd : Word} {im : List Word} {a : LoadRes}
    (h17 : field hd 17 7 = 0) (h30 : field hd 30 2 = 0) (ht : t ≠ 10) (hclear : t = 9 → bit (wordAt im 0) 25 = false)
    (hl : (loadEntry r a.owners a.bank t (field hd 0 16) (bit hd 16) im).1 ≤ 1) :
    loadOne r t pos hd im a =
      { a with bank := (loadEntry r a.owners a.bank t (field hd 0 16) (bit hd 16) im).2,
               owners := ownersAfter r.dom t (field hd 0 16) im a.owners, written := a.written + 1 } := by
  have hc : ¬ (t = 9 ∧ bit (wordAt im 0) 25 = true) := fun ⟨h9, hb⟩ => by simp [hclear h9] at hb
  simp [loadOne, h17, h30, ht, hc, hl]

/-- A load of one entry that R164 accepts writes the staging banks and claims the objects that the entry names (R145). -/
theorem loadTables_one {s : State} {dom t : Nat} {hd : Word} {im : List Word} (hlen : field hd 24 6 = im.length)
    (h17 : field hd 17 7 = 0) (h30 : field hd 30 2 = 0) (ht : t ≠ 10) (hclear : t = 9 → bit (wordAt im 0) 25 = false)
    (hl : (loadEntry (reachOf s dom) s.cons.owners (bankOfDev s (stagingBank s)) t (field hd 0 16) (bit hd 16) im).1 ≤ 1) :
    loadTables dom t 1 (hd :: im) s =
      (modCons (fun c => { c with owners := ownersAfter dom t (field hd 0 16) im c.owners })
        (setBanks (stagingBank s)
          (loadEntry (reachOf s dom) s.cons.owners (bankOfDev s (stagingBank s)) t (field hd 0 16) (bit hd 16) im).2 s),
       { bank := (loadEntry (reachOf s dom) s.cons.owners (bankOfDev s (stagingBank s)) t (field hd 0 16) (bit hd 16) im).2,
         owners := ownersAfter dom t (field hd 0 16) im s.cons.owners, written := 1 }) := by
  have hrun : loadRun (reachOf s dom) t (min 1 ((hd :: im).length + 1)) 0 (hd :: im)
        { bank := bankOfDev s (stagingBank s), owners := s.cons.owners } =
      loadOne (reachOf s dom) t 0 hd im { bank := bankOfDev s (stagingBank s), owners := s.cons.owners } := by
    simp [loadRun, hlen]
  have hcons : ∀ v : Bank, (setBanks (stagingBank s) v s).cons = s.cons := fun v => by
    unfold setBanks
    rw [forAll_keep State.cons _ fun e u => modEng_cons _ _ _, modSeam_cons]
  unfold loadTables
  dsimp only
  rw [hrun, loadOne_accepted h17 h30 ht hclear hl]
  simp [modCons, hcons]
  rfl

theorem scriptAt_head {s : State} {r : SRec} {rest : List SRec} {p : SRec → Bool} (hw : s.awake = true)
    (hrun : s.boot.running = true) (hs : s.boot.script = r :: rest) : scriptAt s p = p r := by
  simp [scriptAt, hw, hrun, hs]

/-- A record done lets the script go on with a record that can be carried out. -/
theorem scriptPop_next {s : State} {h r : SRec} {rest : List SRec} (hs : s.boot.script = h :: r :: rest) (hr : r ≠ .bad) :
    scriptPop s = modBoot (fun b => { b with script := r :: rest }) s := by
  unfold scriptPop
  rw [scriptLook_good (by simp [hs, hr])]
  simp [modBoot, hs]

theorem setBanks_boot (b : Nat) (v : Bank) (s : State) : (setBanks b v s).boot = s.boot := by
  unfold setBanks
  rw [forAll_keep State.boot _ fun e u => modEng_boot _ _ _, modSeam_boot]

/-- Settles O12: the LOAD runs loadTables on its one entry, and pops. -/
theorem scriptLoads : Obligations.ScriptLoads := by
  intro s r rest table dom hd im hw hrun hr hrb hst hs hlen h17 h30 ht hclear l hl
  have hclear' : table.toNat = 9 → bit (wordAt im 0) 25 = false := fun h => hclear (BitVec.eq_of_toNat_eq h)
  have ht' : table.toNat ≠ 10 := fun h => ht (BitVec.eq_of_toNat_eq h)
  have hat : scriptAt s (fun r => decide (r = .load table.toNat dom (hd :: im))) = true := by
    rw [scriptAt_head hw hrun hs]; simp
  have hload := loadTables_one (dom := dom) hlen h17 h30 ht' hclear' hl
  have hgo : scriptLoad table.toNat dom (hd :: im) s = scriptPop (bootStage 5
      (modCons (fun c => { c with owners := ownersAfter dom table.toNat (field hd 0 16) im c.owners })
        (setBanks (stagingBank s) l.2 s))) := by
    unfold scriptLoad
    rw [hat, entryCount_one hlen, hload]
    simp [hrb, hst, l]
  calc exec (.load table dom (hd :: im)) s = done s (core (scriptLoad table.toNat dom (hd :: im)) s) := rfl
    _ = _ := by
      rw [done_core _ hw, hgo, scriptPop_next (h := .load table.toNat dom (hd :: im)) (rest := rest) (by simp [bootStage, setBanks_boot, hs]) hr]
      rfl

/-! ## The end of a script -/

theorem closeOpen_pw (s : State) : (closeOpen s).pw = s.pw := by
  unfold closeOpen
  dsimp only
  exact forAll_keep State.pw _ (fun e u => by rw [raise_pw, count_pw]) _ _

theorem exec_endScript {s : State} (hw : s.awake = true) : exec .endScript s = .next (settle s (scriptEnd s)) :=
  calc exec .endScript s = done s (core scriptEnd s) := rfl
    _ = _ := done_core _ hw

theorem scriptEnd_unlocked {s : State} {rest : List SRec} (hw : s.awake = true) (hrun : s.boot.running = true)
    (hs : s.boot.script = .endRec :: rest) (hl : locked s = false) : scriptEnd s = bootFails 11 s := by
  have hat : scriptAt s (fun r => decide (r = .endRec)) = true := by rw [scriptAt_head hw hrun hs]; rfl
  have hl' : s.rb 0xF000 0 = false := hl
  simp [scriptEnd, hat, hl']

/-- The device as END leaves it before the power state of the header (R441, R442, R314). -/
def scriptEnded (s : State) : State :=
  raise 0xF020 1 (whenDo (decide (s.boot.phase ≠ 1)) closeOpen
    (modBoot (fun x => { x with running := false, script := [], done := true, stage := 7, time := min 65535 (s.elapsedNs / 10000),
                                phase := if s.boot.phase = 1 then 1 else 3 }) s))

theorem scriptEnded_pw (s : State) : (scriptEnded s).pw = s.pw := by
  unfold scriptEnded
  rw [raise_pw, whenDo_keep State.pw _ _ _ (closeOpen_pw _), modBoot_pw]

theorem scriptEnd_locked {s : State} {rest : List SRec} (hw : s.awake = true) (hrun : s.boot.running = true)
    (hs : s.boot.script = .endRec :: rest) (hl : locked s = true) (hh : s.pw.hibFail = false) :
    scriptEnd s = (if s.boot.power = 2 then enterPower 2 else if s.boot.power = 3 then modPw (fun p => { p with req := some 3 })
      else enterPower 1) (scriptEnded s) := by
  have hat : scriptAt s (fun r => decide (r = .endRec)) = true := by rw [scriptAt_head hw hrun hs]; rfl
  have hl' : s.rb 0xF000 0 = true := hl
  have hfail : (scriptEnded s).pw.hibFail = false := by rw [scriptEnded_pw, hh]
  have hphase : (if decide (s.boot.phase ≠ 1) = true then 3 else 1) = if s.boot.phase = 1 then 1 else 3 := by
    by_cases h1 : s.boot.phase = 1 <;> simp [h1]
  have hend : scriptEnd s = match s.boot.power with
      | 2 => enterPower 2 (scriptEnded s)
      | 3 => modPw (fun p => { p with req := some 3 }) (scriptEnded s)
      | _ => enterPower 1 (scriptEnded s) := by
    unfold scriptEnd
    rw [if_neg (by rw [hat]; decide), if_neg (by rw [hl']; decide)]
    dsimp only
    rw [hphase]
    change (match s.boot.power with
      | 2 => enterPower 2 (whenDo (scriptEnded s).pw.hibFail _ (scriptEnded s))
      | 3 => modPw (fun p => { p with req := some 3 }) (whenDo (scriptEnded s).pw.hibFail _ (scriptEnded s))
      | _ => enterPower 1 (whenDo (scriptEnded s).pw.hibFail _ (scriptEnded s))) = _
    rw [hfail]
    rfl
  rw [hend]
  split
  next h2 => rw [if_pos h2]
  next h3 => rw [if_neg (by omega), if_pos h3]
  next h2 h3 => rw [if_neg h2, if_neg h3]

/-- Settles O13: END as scriptEnd_unlocked and scriptEnd_locked say, and the two timeouts. -/
theorem scriptEnds : Obligations.ScriptEnds := by
  intro s hw hrun fails
  refine ⟨fun rest hs => ⟨fun hl hp => ?unlocked, fun hl hh => ?locked⟩, fun off mask val us rest hp hs => ?poll, fun hp => ?late⟩
  case unlocked => rw [exec_endScript hw, scriptEnd_unlocked hw hrun hs hl, bootFails_run 11 hp]
  case locked => rw [exec_endScript hw, scriptEnd_locked hw hrun hs hl hh]; rfl
  case poll =>
    have hgo : scriptPollLate s = bootFails 14 s := by
      unfold scriptPollLate
      rw [scriptAt_head hw hrun hs]
      rfl
    calc exec .pollTimeout s = done s (core scriptPollLate s) := rfl
      _ = _ := by rw [done_core _ hw, hgo, bootFails_run 14 hp]
  case late =>
    have hgo : scriptLate s = bootFails 13 s := if_pos ⟨hrun, hw⟩
    calc exec .scriptTimeout s = done s (core scriptLate s) := rfl
      _ = _ := by rw [done_core _ hw, hgo, bootFails_run 13 hp]

end Sys2Proof.Machine
end

section
/-!
SUPPORT. The rings' traffic (R369 to R372) and the command ring (R377 to R383, R462): descriptors become records, commands join the
list, start and complete.
-/
namespace Sys2Proof.Machine

/-! ## Requests to host memory -/

theorem emit_hostWrite (a : Nat) (b : List Byte) (s : State) : emit (.hostWrite a b) s = { s with out := .hostWrite a b :: s.out } := by
  simp [emit, Output.onBall]

theorem hostWrites_go_eq (n a : Nat) (bs : List Byte) (s : State) : ∃ o, hostWrites.go n a bs s = { s with out := o } := by
  induction n generalizing a bs s with
  | zero => exact ⟨_, rfl⟩
  | succ n ih =>
    unfold hostWrites.go
    split
    · exact ⟨_, rfl⟩
    · dsimp only
      rw [emit_hostWrite]
      exact ih _ _ _
/-- A write to host memory drives requests, and changes nothing else. -/
theorem hostWrites_eq (a : Nat) (bs : List Byte) (s : State) : ∃ o, hostWrites a bs s = { s with out := o } := hostWrites_go_eq ..

theorem hostReads_go_eq (n a l : Nat) (s : State) : ∃ o, hostReads.go n a l s = { s with out := o } := by
  induction n generalizing a l s with
  | zero => exact ⟨_, rfl⟩
  | succ n ih =>
    unfold hostReads.go
    split
    · exact ⟨_, rfl⟩
    · dsimp only
      rw [emit_readReq]
      exact ih _ _ _
/-- A read of host memory drives requests, and changes nothing else. -/
theorem hostReads_eq (a l : Nat) (s : State) : ∃ o, hostReads a l s = { s with out := o } := hostReads_go_eq ..

/-- An index write-back drives its request and is counted. -/
theorem wbIndex_eq (r : Nat) (s : State) : ∃ o c, wbIndex r s = { s with out := o, ctr := c } := by
  unfold wbIndex whenDo
  split
  · obtain ⟨o, h⟩ := hostWrites_eq (wbBase s + wbSlot r) (wordBytes (devIdx (s.ring r) r)) s
    dsimp only
    rw [h]
    exact ⟨_, _, rfl⟩
  · exact ⟨_, _, rfl⟩

@[simp] theorem wbIndex_at_ring (r q : Nat) (s : State) : (wbIndex r s).ring q = s.ring q := by
  obtain ⟨o, c, h⟩ := wbIndex_eq r s
  rw [h]
  rfl
@[simp] theorem wbIndex_cmds (r : Nat) (s : State) : (wbIndex r s).cmds = s.cmds := by
  obtain ⟨o, c, h⟩ := wbIndex_eq r s
  rw [h]

@[simp] theorem raiseDone_cmds (r : Nat) (s : State) : (raiseDone r s).cmds = s.cmds := by unfold raiseDone; split_ifs <;> simp
@[simp] theorem raiseDone_at_ring (r q : Nat) (s : State) : (raiseDone r s).ring q = s.ring q := by
  unfold raiseDone; split_ifs <;> simp
@[simp] theorem ringErr_at_ring (r code idx q : Nat) (s : State) : (ringErr r code idx s).ring q = s.ring q := by
  unfold ringErr; dsimp only; split_ifs <;> simp

/-- A completion under moderation leaves the commands. -/
@[simp] theorem ringCompleted_cmds (r : Nat) (s : State) : (ringCompleted r s).cmds = s.cmds := by
  unfold ringCompleted
  dsimp only
  split <;> simp
/-- A completion under moderation leaves the descriptors that a ring holds. -/
theorem ringCompleted_ht (r : Nat) (s : State) : ((ringCompleted r s).ring r).ht = (s.ring r).ht := by
  unfold ringCompleted
  dsimp only
  split <;> simp

@[simp] theorem hostWrites_at_ring (a r : Nat) (bs : List Byte) (s : State) : (hostWrites a bs s).ring r = s.ring r := by
  obtain ⟨o, h⟩ := hostWrites_eq a bs s
  rw [h]; rfl
@[simp] theorem hostWrites_cmds (a : Nat) (bs : List Byte) (s : State) : (hostWrites a bs s).cmds = s.cmds := by
  obtain ⟨o, h⟩ := hostWrites_eq a bs s
  rw [h]

/-- A descriptor consumed leaves the ring's list (R370). -/
theorem htConsume_ht (r : Nat) (x : HtDesc) (st seq : Nat) (s : State) :
    ((htConsume r x st seq s).ring r).ht = (s.ring r).ht.drop 1 := by
  unfold htConsume
  dsimp only
  rw [ringCompleted_ht]
  simp

/-! ## Records leave the rings and the ring's number space -/

@[simp] theorem countTalker_rings (t sub off n : Nat) (s : State) : (countTalker t sub off n s).rings = s.rings := by
  unfold countTalker; split <;> simp
@[simp] theorem pushWords_rings (b : Nat) (ws : List Word) (s : State) : (pushWords b ws s).rings = s.rings :=
  forAll_keep (·.rings) (pushWord b) (fun _ _ => rfl) ws s
@[simp] theorem admUpdate_rings (m : Nat) (s : State) : (admUpdate m s).rings = s.rings :=
  whenDo_keep (·.rings) _ _ _ rfl
@[simp] theorem mergePut_rings (m : Nat) (e : MEnt) (s : State) : (mergePut m e s).rings = s.rings := by simp [mergePut]
@[simp] theorem addRecord_rings (h : List Word) (pay : List Byte) (x : RecMeta) (s : State) :
    (addRecord h pay x s).1.rings = s.rings := by
  unfold addRecord
  dsimp only
  split_ifs <;> simp

/-! ## Host-transmit descriptors (R370) -/

/-- A ring with nothing at its head is drained. -/
theorem htDrain_empty {r : Nat} {s : State} (n : Nat) (h : (s.ring r).ht = []) : htDrain r n s = s := by
  cases n with
  | zero => rfl
  | succ n => simp [htDrain, h]

/-- A lone descriptor that enters empties the ring's list. -/
theorem htDrain_one {r : Nat} {x : HtDesc} {s t : State} (n : Nat) (hh : (s.ring r).ht = [x]) (hw : s.awake = true)
    (hup : s.hostUp = true) (hon : ringOn s r = true) (he : htEnter r x s = (t, true)) (ht : (t.ring r).ht = []) :
    htDrain r (n + 1) s = t := by
  simp only [htDrain, hh, hw, hup, hon, Bool.and_self, if_true, he]
  exact htDrain_empty n ht

/-- A descriptor with a bad length or type is refused with that status. -/
theorem htEnter_refused {r : Nat} {x : HtDesc} {s : State} (h : htError x ≠ 0) :
    htEnter r x s =
      (htConsume r x (htError x) 0 (ringErr r (htError x) (s.ring r).d.toNat (count (ctHi (5 * r + 3)) 1 s)), true) := by
  simp [htEnter, h]

/-- The record of a descriptor (R369, R107). -/
def htHeader (s : State) (r : Nat) (x : HtDesc) : List Word :=
  [mkH0 (if field (wordAt x.w 2) 16 8 = 0 then 0x30 else field (wordAt x.w 2) 16 8) (htClass x) false false (bit (wordAt x.w 2) 28)
      x.pay.length, mkH1 (0x60 + r) (s.seqOf (0x60 + r)), w32 x.cap.dt, w32 (x.cap.dt / 0x100000000), x.cap.h4, wordAt x.w 3]

theorem htEnter_recorded {r : Nat} {x : HtDesc} {s s1 : State} (h : htError x = 0)
    (hc : nbit (s.mrg (engOf s (0x60 + r) 0)).refused (htClass x) = false)
    (ha : addRecord (htHeader s r x) x.pay { hits := x.cap.hits, noRefuse := true } s = (s1, .recorded)) :
    htEnter r x s = (htConsume r x 0 (s.seqOf (0x60 + r))
      (count (ctHi (5 * r + 1)) 1 (s1.setSeq (0x60 + r) (s.seqOf (0x60 + r) + 1))), true) := by
  unfold htHeader at ha
  simp [htEnter, h, hc, ha]

/-- The state in which a fetched descriptor stands at the head of its ring, its payload's reads gone out. -/
def htFetched (s : State) (r len : Nat) (desc : List Word) (x : HtDesc) : State :=
  (whenDo (decide (len ≤ 2048)) (hostReads ((wordAt desc 1).toNat * 0x100000000 + (wordAt desc 0).toNat) len)
    (s.setRing r { s.ring r with reads := (s.ring r).reads - 1 })).setRing r { s.ring r with reads := (s.ring r).reads - 1, ht := [x] }

/-- Standing at the head, a descriptor has changed its ring and the outputs alone. -/
theorem htFetched_eq (s : State) (r len : Nat) (desc : List Word) (x : HtDesc) :
    ∃ o g, htFetched s r len desc x = { s with rings := g, out := o } := by
  unfold htFetched whenDo
  split
  · obtain ⟨o, h⟩ := hostReads_eq ((wordAt desc 1).toNat * 0x100000000 + (wordAt desc 0).toNat) len
      (s.setRing r { s.ring r with reads := (s.ring r).reads - 1 })
    rw [h]
    exact ⟨_, _, rfl⟩
  · exact ⟨_, _, rfl⟩

theorem htFetched_at_ring (s : State) (r len : Nat) (desc : List Word) (x : HtDesc) :
    (htFetched s r len desc x).ring r = { s.ring r with reads := (s.ring r).reads - 1, ht := [x] } := by
  unfold htFetched
  rw [State.ring_setRing, if_pos rfl]

/-- The descriptor that a fetch brings, with its payload filled up (R370). -/
def htDescOf (s : State) (r : Nat) (desc : List Word) (payload : List Byte) : HtDesc :=
  { w := desc, ok := true, cap := captureTk s (0x60 + r) 0 0 false,
    pay := (payload.take (field (wordAt desc 2) 0 16) ++
      List.replicate (min 2048 (field (wordAt desc 2) 0 16) - payload.length) 0x00#8).take 2048 }

/-- A fetch for a ring with nothing waiting puts its descriptor at the head, counts its bytes, and drains. -/
theorem htFetch_alone {s : State} {r : Nat} (desc : List Word) (payload : List Byte) (hf : hostFetches s = true)
    (hact : (s.ring r).active = true) (hrd : (s.ring r).reads ≠ 0) (hht : (s.ring r).ht = [])
    (hd : dist (s.ring r).h (s.ring r).d ≠ 0) :
    htFetch r desc payload true s =
      htDrain r 8 (whenDo (decide (htError (htDescOf s r desc payload) = 0)) (count (ctHi (5 * r + 2)) (field (wordAt desc 2) 0 16))
        (htFetched s r (field (wordAt desc 2) 0 16) desc (htDescOf s r desc payload))) := by
  have hring : ∀ len, ((whenDo (decide (len ≤ 2048))
      (hostReads ((wordAt desc 1).toNat * 0x100000000 + (wordAt desc 0).toNat) len) (readEnds r s)).ring r) =
      { s.ring r with reads := (s.ring r).reads - 1 } := fun len => by
    rw [whenDo_keep (State.ring · r)]
    · simp [readEnds]
    · obtain ⟨o, h⟩ := hostReads_eq ((wordAt desc 1).toNat * 0x100000000 + (wordAt desc 0).toNat) len (readEnds r s)
      rw [h]; rfl
  unfold htFetch
  dsimp only
  rw [if_neg (by simp [hf, hrd]), if_neg (by simp [hact]), if_neg (by simp [hht, hd]), hring, hht]
  rfl

section
variable {s : State} {r : Nat} {desc : List Word} {x : HtDesc} {c : SMap DWord} (len : Nat)

theorem htFetched_awake (hw : s.awake = true) : (htFetched s r len desc x).awake = true := by
  obtain ⟨o, g, h⟩ := htFetched_eq s r len desc x
  rw [h]; exact hw
theorem htFetched_hostUp (hf : hostFetches s = true) : (htFetched s r len desc x).hostUp = true := by
  obtain ⟨o, g, h⟩ := htFetched_eq s r len desc x
  rw [h]
  simp only [hostFetches, Bool.and_eq_true] at hf
  exact hf.1.1
theorem htFetched_ringOn (hon : ringOn s r = true) : ringOn (htFetched s r len desc x) r = true := by
  have hr := htFetched_at_ring s r len desc x
  obtain ⟨o, g, h⟩ := htFetched_eq s r len desc x
  have hreg : (htFetched s r len desc x).rb (ringOff r + 8) 8 = s.rb (ringOff r + 8) 8 := by rw [h]; rfl
  simp only [ringOn, hr, hreg]
  exact hon
end

theorem exec_htFetchComplete {s : State} (ring : Fin 32) {desc : List Word} (payload : List Byte) (ok : Bool) (hw : s.awake = true)
    (hd : desc ≠ []) : exec (.htFetchComplete ring desc payload ok) s = .next (settle s (flow (htFetch ring desc payload ok s))) :=
  have hne : (desc.isEmpty && !ok) = false := by cases desc with
    | nil => exact absurd rfl hd
    | cons => rfl
  calc exec (.htFetchComplete ring desc payload ok) s
      = done s (core (fun s => flow (if desc.isEmpty && !ok then hostReadFails ring false s else htFetch ring desc payload ok s)) s) := rfl
    _ = _ := by rw [done_core _ hw, hne]; rfl

/-- Settles O22: the descriptor stands alone at its ring's head, and enters or is refused there. -/
theorem transmitDescriptor : Obligations.TransmitDescriptor := by
  intro s s1 ring desc payload hw hf hon hrd hht hd hdesc g t w len x fetched q fmt
  have hact : (s.ring ring).active = true := (Bool.and_eq_true _ _ ▸ hon : _ ∧ _).1
  have hex := exec_htFetchComplete ring payload true hw hdesc
  rw [htFetch_alone desc payload hf hact hrd hht hd] at hex
  have hfr : fetched.ring ring = { g with reads := g.reads - 1, ht := [x] } := htFetched_at_ring s ring len desc x
  have hring : (fetched.ring ring).ht = [x] := by rw [hfr]
  have haw : fetched.awake = true := htFetched_awake len hw
  have hup : fetched.hostUp = true := htFetched_hostUp len hf
  have hfon : ringOn fetched ring = true := htFetched_ringOn len hon
  refine ⟨fun he hc ha => ?accepted, fun he => ?refused⟩
  case accepted =>
    obtain ⟨o, gs, hfe⟩ := htFetched_eq s ring len desc x
    have hseq : (count (ctHi (5 * ring + 2)) len fetched).seqOf t = q := by rw [show fetched = _ from hfe]; rfl
    have hmrg : nbit ((count (ctHi (5 * ring + 2)) len fetched).mrg (engOf (count (ctHi (5 * ring + 2)) len fetched) t 0)).refused
        (htClass x) = false := by rw [show fetched = _ from hfe]; exact hc
    have hhead : htHeader (count (ctHi (5 * ring + 2)) len fetched) ring x = [mkH0 fmt (htClass x) false false (bit w 28) x.pay.length,
        mkH1 t q, w32 x.cap.dt, w32 (x.cap.dt / 0x100000000), x.cap.h4, wordAt desc 3] := by
      unfold htHeader; rw [hseq]
    have henter := htEnter_recorded he hmrg (hhead ▸ ha)
    rw [hseq] at henter
    have hrings : s1.rings = fetched.rings := by
      have h := addRecord_rings [mkH0 fmt (htClass x) false false (bit w 28) x.pay.length, mkH1 t q, w32 x.cap.dt,
        w32 (x.cap.dt / 0x100000000), x.cap.h4, wordAt desc 3] x.pay { hits := x.cap.hits, noRefuse := true }
        (count (ctHi (5 * ring + 2)) len fetched)
      rw [ha] at h
      exact h
    have hone := htDrain_one 7 (by simpa using hring) (by simpa using haw) (by exact hup) (by exact hfon) henter (by
      rw [htConsume_ht]
      have hs1 : s1.ring ring = fetched.ring ring := by unfold State.ring; rw [hrings]
      simp [hs1, hring])
    have hdec : decide (htError (htDescOf s ring desc payload) = 0) = true := decide_eq_true he
    rw [hdec, whenDo_true] at hex
    exact hex.trans (congrArg (fun u => Host.Outcome.next (settle s (flow u))) hone)
  case refused =>
    have hone := htDrain_one 7 hring haw hup hfon (htEnter_refused he) (by
      rw [htConsume_ht]
      simp [hring])
    have hdec : decide (htError (htDescOf s ring desc payload) = 0) = false := decide_eq_false he
    have hdn : (fetched.ring ring).d = g.d := by rw [hfr]
    rw [hdec, whenDo_false] at hex
    rw [hdn] at hone
    exact hex.trans (congrArg (fun u => Host.Outcome.next (settle s (flow u))) hone)

end Sys2Proof.Machine
end

section
/-!
SUPPORT. The command ring (R377 to R383, R408, R416, R424, R462): commands join the list, start and complete.
-/
namespace Sys2Proof.Machine

/-! ## Fetch (R378 to R380) -/

theorem exec_cmdFetch {s : State} (w : List Word) (hw : s.awake = true) (hr : cmdReady s = true) :
    exec (.cmdFetch w) s = .next (settle s (flow (cmdPush w (cmdVerdict s w) s))) :=
  calc exec (.cmdFetch w) s = done s (core (fun s => flow (cmdFetched w s)) s) := rfl
    _ = _ := by rw [done_core _ hw, cmdFetched, if_pos hr]

section
variable {s : State} {w : List Word}

theorem cmdVerdict_opcode (h : 9 < field (wordAt w 0) 0 8) : cmdVerdict s w = some 3 := by simp [cmdVerdict, h]
theorem cmdVerdict_reach (h : field (wordAt w 0) 0 8 ≤ 9) (hd : s.rb 0xF048 (8 + field (wordAt w 0) 8 3) = false) :
    cmdVerdict s w = some 5 := by simp [cmdVerdict, Nat.not_lt.mpr h, hd]
theorem cmdVerdict_privilege {b : Nat} (h : field (wordAt w 0) 0 8 ≤ 9) (hd : s.rb 0xF048 (8 + field (wordAt w 0) 8 3) = true)
    (hb : opPriv (field (wordAt w 0) 0 8) = some b) (hp : s.rb (0xF628 + 0x40 * field (wordAt w 0) 8 3) b = false) :
    cmdVerdict s w = some 5 := by simp [cmdVerdict, Nat.not_lt.mpr h, hd, hb, hp]
theorem cmdVerdict_nop (h : field (wordAt w 0) 0 8 = 0) (hd : s.rb 0xF048 (8 + field (wordAt w 0) 8 3) = true) :
    cmdVerdict s w = if operandBad w then some 4 else none := by simp [cmdVerdict, h, hd, opPriv]
end

/-- Settles O24: cmdPush is the state, cmdVerdict's lemmas its status. -/
theorem commandFetched : Obligations.CommandFetched := by
  intro s w hw hr g op d
  refine ⟨exec_cmdFetch w hw hr, cmdVerdict_opcode, cmdVerdict_reach, fun b => cmdVerdict_privilege, fun h hd hb => ?bad, fun h hd hb => ?good⟩
  case bad => rw [cmdVerdict_nop h hd, if_pos hb]
  case good => rw [cmdVerdict_nop h hd, hb]; rfl

/-! ## NOP and the completion (R378, R383) -/

theorem modCmd_head {c : Cmd} {rest : List Cmd} {s : State} (f : Cmd → Cmd) (h : s.cmds = c :: rest)
    (hidx : ∀ x ∈ rest, x.idx ≠ c.idx) : modCmd c.idx f s = { s with cmds := f c :: rest } := by
  have hrest : rest.map (fun x => if x.idx = c.idx then f x else x) = rest :=
    (List.map_congr_left fun x hx => if_neg (hidx x hx)).trans (List.map_id' rest)
  unfold modCmd
  rw [h, List.map_cons, if_pos rfl, hrest]

theorem nopHead_other {c : Cmd} {rest : List Cmd} {s : State} (h : s.cmds = c :: rest) (hc : c.op ≠ 0 ∨ c.done ≠ none) :
    nopHead s = s := by
  unfold nopHead
  rw [h]
  rcases hc with hc | hc
  · simp [hc]
  · simp [Option.isNone_iff_eq_none, hc]

/-- No NOP stands at the head of a list without NOPs. -/
theorem nopHead_rest {s : State} (h : ∀ x ∈ s.cmds, x.op ≠ 0) : nopHead s = s := by
  cases hc : s.cmds with
  | nil => simp [nopHead, hc]
  | cons c rest => exact nopHead_other hc (.inl (h c (by simp [hc])))

/-- A NOP that waits at the head starts and is done. -/
theorem nopStart_head {s : State} {c : Cmd} {rest : List Cmd} (hw : s.awake = true) (h : s.cmds = c :: rest) (hop : c.op = 0)
    (hst : c.started = false) (hdone : c.done = none) (hidx : ∀ x ∈ rest, x.idx ≠ c.idx) :
    nopStart s = { s with cmds := { c with started := true, done := some (0, 0#32, 0#32) } :: rest } := by
  have hhead : headCmd s = some c := by simp [headCmd, h, hst, hdone]
  have hmod := modCmd_head (fun x => { x with started := true }) h hidx
  have hdoneCmd := modCmd_head (c := { c with started := true }) (rest := rest) (s := { s with cmds := { c with started := true } :: rest })
    (fun x => { x with started := true, done := some (0, 0#32, 0#32) }) rfl hidx
  unfold nopStart
  rw [startHead_of_headCmd _ hw hhead hop, hmod]
  have hop' : ({ c with started := true } : Cmd).op = 0 := hop
  unfold nopHead
  dsimp only
  rw [if_pos ⟨hop', rfl, by rw [hdone]; rfl⟩]
  exact hdoneCmd

theorem muteGone_plain {s : State} {c : Cmd} {rest : List Cmd} (h : s.cmds = c :: rest) (hm : ∀ x ∈ s.cmds, x.mute = false)
    (hd : c.done ≠ none) : muteGone s = s := by
  have hf : s.cmds.filter (fun c => !(c.mute && c.done.isSome)) = s.cmds := List.filter_eq_self.mpr fun x hx => by simp [hm x hx]
  unfold muteGone
  rw [hf]
  exact nopHead_other h (.inr hd)

@[simp] theorem whenDo_cmds_raise (b : Bool) (o m : Nat) (s : State) : (whenDo b (raise o m) s).cmds = s.cmds :=
  whenDo_keep State.cmds _ _ _ (raise_cmds _ _ _)

theorem cplWrite_cmds (c : Cmd) (st : Nat) (r0 r1 : Word) (s : State) : (cplWrite c st r0 r1 s).cmds = s.cmds := by
  simp [cplWrite]

/-- The completion of the command at the head is written, and the command leaves the list. -/
theorem completeCmd_head {s : State} {c : Cmd} {rest : List Cmd} {st : Nat} {r0 r1 : Word} (h : s.cmds = c :: rest)
    (hd : c.done = some (st, r0, r1)) (hm : c.mute = false) (hup : s.hostUp = true) (hon : ringOn s 65 = true)
    (hrest : ∀ x ∈ rest, x.idx ≠ c.idx ∧ x.op ≠ 0 ∧ x.mute = false) :
    completeCmd c.no s = cplWrite c st r0 r1 { s with cmds := rest } := by
  have hmute : ∀ x ∈ s.cmds, x.mute = false := by
    rw [h]
    exact List.forall_mem_cons.mpr ⟨hm, fun x hx => (hrest x hx).2.2⟩
  have hfind : s.cmds.find? (fun x => decide (x.no = c.no) && !x.mute && x.done.isSome) = some c := by simp [h, hm, hd]
  have hleft : s.cmds.filter (fun x => x.idx ≠ c.idx) = rest := by
    rw [h, List.filter_cons_of_neg (by simp)]
    exact List.filter_eq_self.mpr fun x hx => by simpa using (hrest x hx).1
  unfold completeCmd
  simp only [muteGone_plain h hmute (by simp [hd]), hfind, hd, hup, hon, Bool.and_self, if_true]
  rw [hleft]
  exact nopHead_rest (by rw [cplWrite_cmds]; exact fun x hx => (hrest x hx).2.1)

/-- Settles O25: nopStart_head and completeCmd_head, each in its command. -/
theorem nopAndCompletion : Obligations.NopAndCompletion := by
  intro s c rest hw
  refine ⟨fun h hop hst hd hidx => ?nop, fun st r0 r1 h hd hm hup hon hrest => ?completion⟩
  case nop =>
    calc exec .nop s = done s (core nopStart s) := rfl
      _ = _ := by rw [done_core _ hw, nopStart_head hw h hop hst hd hidx]
  case completion =>
    calc exec (.commandCompletion c.no) s = done s (core (fun s => flow (completeCmd c.no s)) s) := rfl
      _ = _ := by rw [done_core _ hw, completeCmd_head h hd hm hup hon hrest]; rfl

/-! ## LOAD_TABLE (R381, R414) -/

theorem loadTables_stitch (dom t n : Nat) (ws : List Word) (s : State) : (loadTables dom t n ws s).1.cons.stitch = s.cons.stitch := by
  unfold loadTables
  dsimp only
  rw [modCons_cons]
  unfold setBanks
  rw [forAll_keep State.cons _ fun e u => modEng_cons _ _ _, modSeam_cons]

theorem stitchNowLate_none {s : State} (h : s.cons.stitch = none) : stitchNowLate s = s := by simp [stitchNowLate, h]

/-- A load from a good buffer that nothing cuts short (R381, R383). -/
theorem runLoad_good {c : Cmd} {s : State} {n : Nat} {st : Nat} {r1 : Word} {p : State × LoadRes}
    (hp : loadTables c.dom (field (wordAt c.w 1) 0 4) n c.buf s = p) (hn : (wordAt c.w 2).toNat = n) (hok : c.bufOk = true)
    (hst : s.cons.stitch = none) (hshort : p.2.short = false) (hs : st = if p.2.refused.isSome then 1 else 0)
    (hr : r1 = match p.2.refused with
      | some (p, x) => w32 (p % 65536 + x * 65536)
      | none => 0#32) :
    runLoad c s = doneCmd c.idx st (w32 p.2.written) r1 p.1 := by
  subst hn hp hs hr
  have hst' := loadTables_stitch c.dom (field (wordAt c.w 1) 0 4) (wordAt c.w 2).toNat c.buf s
  unfold runLoad
  dsimp only
  rw [hok, hshort]
  exact stitchNowLate_none (by rw [doneCmd_cons]; exact hst'.trans hst)

theorem exec_loadTable {s : State} {c : Cmd} (buf : List Word) (hw : s.awake = true) (hup : s.hostUp = true)
    (hc : headCmd s = some c) (hop : c.op = 1) :
    exec (.loadTable buf true) s =
      .next (settle s (loadStart buf true c (modCmd c.idx (fun x => { x with started := true }) s))) :=
  calc exec (.loadTable buf true) s = done s (core (fun s => whenDo s.hostUp (startHead 1 (loadStart buf true)) s) s) := rfl
    _ = _ := by rw [done_core _ hw, hup, whenDo_true, startHead_of_headCmd _ hw hc hop]

theorem bufferRead_eq (c : Cmd) (n : Nat) (s : State) : ∃ o, bufferRead c n s = { s with out := o } := hostReads_eq ..

/-- A LOAD_TABLE that starts: what it has become, and whether it waits. -/
theorem loadStart_eq (buf : List Word) (c : Cmd) (s : State) :
    loadStart buf true c s =
      if loadWaits c.idx (modCmd c.idx (fun _ => { c with started := true, buf := buf.take ((wordAt c.w 6).toNat / 4), bufOk := true })
          (bufferRead c (wordAt c.w 6).toNat s))
      then modCmd c.idx (fun _ => { c with started := true, buf := buf.take ((wordAt c.w 6).toNat / 4), bufOk := true })
        (bufferRead c (wordAt c.w 6).toNat s)
      else runLoad { c with started := true, buf := buf.take ((wordAt c.w 6).toNat / 4), bufOk := true }
        (modCmd c.idx (fun _ => { c with started := true, buf := buf.take ((wordAt c.w 6).toNat / 4), bufOk := true })
          (bufferRead c (wordAt c.w 6).toNat s)) := rfl

/-- Settles O26: the load waits or runs as loadWaits says, and runLoad_good is its end. -/
theorem loadTableRuns : Obligations.LoadTableRuns := by
  intro s c buf hw hup hc hop words u l
  have hex := exec_loadTable buf hw hup hc hop
  rw [loadStart_eq] at hex
  have hcons : u.cons = s.cons := by
    obtain ⟨o, h⟩ := bufferRead_eq c (wordAt c.w 6).toNat (modCmd c.idx (fun x => { x with started := true }) s)
    simp only [u]
    rw [modCmd_cons, h]
    rfl
  have hgo : s.cons.rebaste = false → s.cons.stitch = none → loadWaits c.idx u = false := fun hr hs => by
    simp [loadWaits, stitchBefore, hcons, hr, hs]
  have hrun : s.cons.stitch = none → l.2.short = false → runLoad { c with started := true, buf := words, bufOk := true } u =
      doneCmd c.idx (if l.2.refused.isSome then 1 else 0) (w32 l.2.written)
        (match l.2.refused with
          | some (p, x) => w32 (p % 65536 + x * 65536)
          | none => 0#32) l.1 := fun hs hsh =>
    runLoad_good (c := { c with started := true, buf := words, bufOk := true }) (p := l) rfl rfl rfl (by rw [hcons, hs]) hsh rfl rfl
  change exec (.loadTable buf true) s = .next (settle s (if loadWaits c.idx u then u
    else runLoad { c with started := true, buf := words, bufOk := true } u)) at hex
  rw [hex]
  clear_value l u
  refine ⟨fun hr hs hsh href => ?all, fun p x hr hs hsh href => ?refused, fun hr => ?waits⟩
  case all => rw [hgo hr hs, if_neg Bool.false_ne_true, hrun hs hsh, href]; rfl
  case refused => rw [hgo hr hs, if_neg Bool.false_ne_true, hrun hs hsh, href]; rfl
  case waits => rw [if_pos (by simp [loadWaits, hcons, hr])]

end Sys2Proof.Machine
end

section
/-!
SUPPORT. Commands that start: STITCH, FITTING (R416, R424), CAL_APPLY (R462), RING_RESET (R382), PEER_FENCE (R408), PORT_SERVICE
(R277, R287, R290).
-/
namespace Sys2Proof.Machine

/-- A command's next state, rewritten. -/
theorem exec_to {i : Instr} {s t u : State} (h : exec i s = .next (settle s t)) (e : t = u) : exec i s = .next (settle s u) := e ▸ h

/-! ## STITCH and FITTING -/

/-- A command in turn with an operation of its own starts with it. -/
theorem exec_stitch {s : State} {c : Cmd} (hw : s.awake = true) (hc : headCmd s = some c) (hop : c.op = 2) :
    exec .stitch s = .next (settle s (stitchStart c (modCmd c.idx (fun x => { x with started := true }) s))) :=
  calc exec .stitch s = done s (core (startHead 2 stitchStart) s) := rfl
    _ = _ := by rw [done_core _ hw, startHead_of_headCmd _ hw hc hop]
theorem exec_fitting {s : State} {c : Cmd} (hw : s.awake = true) (hc : headCmd s = some c) (hop : c.op = 3) :
    exec .fitting s = .next (settle s (fittingStart c (modCmd c.idx (fun x => { x with started := true }) s))) :=
  calc exec .fitting s = done s (core (startHead 3 fittingStart) s) := rfl
    _ = _ := by rw [done_core _ hw, startHead_of_headCmd _ hw hc hop]

section
variable {c : Cmd} {s : State}

theorem stitchStart_halted (h : s.seam.dev = 3) : stitchStart c s = doneCmd c.idx 10 0#32 0#32 s := if_pos h
theorem stitchStart_busy (h : s.seam.dev ≠ 3) (hs : s.cons.stitch.isSome = true) :
    stitchStart c s = doneCmd c.idx 2 0#32 0#32 s := by simp only [stitchStart, if_neg h, if_pos hs]
theorem stitchStart_pends (h : s.seam.dev ≠ 3) (hs : s.cons.stitch = none) :
    stitchStart c s = schedLate (schedTarget c.w s).2.1 (modCons (fun x => { x with
      stitch := some { cmd := some c.idx, target := (schedTarget c.w s).1, status := (schedTarget c.w s).2.1,
                       ripe := (schedTarget c.w s).2.2 } }) s) := by
  have hs' : ¬ s.cons.stitch.isSome = true := by simp [hs]
  simp only [stitchStart, if_neg h, if_neg hs']

theorem fittingStart_busy (h : 2 ≤ s.cons.fits.length) : fittingStart c s = doneCmd c.idx 2 0#32 0#32 s := if_pos h
theorem fittingStart_small (h : s.cons.fits.length < 2) (hb : (wordAt c.w 6).toNat < 87552) :
    fittingStart c s = doneCmd c.idx 6 0#32 0#32 s := by simp only [fittingStart, if_neg (Nat.not_le.mpr h), if_pos hb]
theorem fittingStart_pends (h : s.cons.fits.length < 2) (hb : 87552 ≤ (wordAt c.w 6).toNat) :
    fittingStart c s = schedLate (schedTarget c.w s).2.1 (modCons (fun x => { x with fits := x.fits ++
      [{ cmd := c.idx, target := (schedTarget c.w s).1, status := (schedTarget c.w s).2.1, ripe := (schedTarget c.w s).2.2,
         bank := if s.cons.fits.any (fun f => f.bank = 0) then 1 else 0, acceptDt := c.acceptDt,
         tag := field (wordAt c.w 0) 16 16, addr := (wordAt c.w 5).toNat * 0x100000000 + (wordAt c.w 4).toNat }] }) s) := by
  simp only [fittingStart, if_neg (Nat.not_le.mpr h), if_neg (Nat.not_lt.mpr hb)]
end

theorem schedTarget_modCmd (w : List Word) (i : Word) (f : Cmd → Cmd) (s : State) : schedTarget w (modCmd i f s) = schedTarget w s := by
  unfold schedTarget
  rfl

/-- Settles O27: stitchStart's and fittingStart's outcomes, and schedTarget's for NEXT_INDEX and DT. -/
theorem stitchAndFittingStart : Obligations.StitchAndFittingStart := by
  intro s c hw hc u g
  have hg : schedTarget c.w u = g := schedTarget_modCmd _ _ _ _
  refine ⟨fun hop hd hs => ?pends, fun hop hd hs => ?busy, fun hop hd => ?halted, fun hop hl hb => ?fits, fun hop hl => ?full,
    fun hop hl hb => ?small, fun h0 => ?next, fun h1 => ?dt⟩
  case pends =>
    have hx : exec .stitch s = .next (settle s (stitchStart c u)) := exec_stitch hw hc hop
    rw [hx, stitchStart_pends (s := u) hd hs, hg]
    rfl
  case busy => exact exec_to (exec_stitch hw hc hop) (stitchStart_busy (s := u) hd hs)
  case halted => exact exec_to (exec_stitch hw hc hop) (stitchStart_halted (s := u) hd)
  case fits =>
    have hx : exec .fitting s = .next (settle s (fittingStart c u)) := exec_fitting hw hc hop
    rw [hx, fittingStart_pends (s := u) hl hb, hg]
    rfl
  case full => exact exec_to (exec_fitting hw hc hop) (fittingStart_busy (s := u) hl)
  case small => exact exec_to (exec_fitting hw hc hop) (fittingStart_small (s := u) hl hb)
  case next => simp only [g, schedTarget, h0]
  case dt => simp only [g, schedTarget, h1]

/-! ## PEER_FENCE and PORT_SERVICE -/

theorem exec_peerFence {s : State} {c : Cmd} (hw : s.awake = true) (hc : headCmd s = some c) (hop : c.op = 7) :
    exec .peerFence s = .next (settle s (fenceStart c (modCmd c.idx (fun x => { x with started := true }) s))) :=
  calc exec .peerFence s = done s (core (startHead 7 fenceStart) s) := rfl
    _ = _ := by rw [done_core _ hw, startHead_of_headCmd _ hw hc hop]
theorem exec_portService {s : State} {c : Cmd} (hw : s.awake = true) (hc : headCmd s = some c) (hop : c.op = 9) :
    exec .portService s = .next (settle s (serviceStart c (modCmd c.idx (fun x => { x with started := true }) s))) :=
  calc exec .portService s = done s (core (startHead 9 serviceStart) s) := rfl
    _ = _ := by rw [done_core _ hw, startHead_of_headCmd _ hw hc hop]

section
variable {c : Cmd} {s : State}

theorem serviceStart_isOut (hw : bit (wordAt c.w 1) 8 = true) (h : outOfService s (field (wordAt c.w 1) 0 8) = true) :
    serviceStart c s = doneCmd c.idx 0 0#32 0#32 s := by simp [serviceStart, serviceIs, hw, h]
theorem serviceStart_out (hw : bit (wordAt c.w 1) 8 = true) (h : outOfService s (field (wordAt c.w 1) 0 8) = false) :
    serviceStart c s = if field (wordAt c.w 1) 0 8 < 0x30 then portOut (field (wordAt c.w 1) 0 8) s
      else if field (wordAt c.w 1) 0 8 < 0x40 then canOut (field (wordAt c.w 1) 0 8 - 0x30) s
      else tsOut (field (wordAt c.w 1) 0 8 - 0x40) s := by simp [serviceStart, serviceIs, hw, h]
theorem serviceStart_back (hw : bit (wordAt c.w 1) 8 = false) (h : outOfService s (field (wordAt c.w 1) 0 8) = true) :
    serviceStart c s = serviceDone (field (wordAt c.w 1) 0 8) (doneCmd c.idx 0 0#32 0#32
      (if field (wordAt c.w 1) 0 8 < 0x30 then portBack (field (wordAt c.w 1) 0 8) s
      else if field (wordAt c.w 1) 0 8 < 0x40 then canBack (field (wordAt c.w 1) 0 8 - 0x30) s
      else tsBack (field (wordAt c.w 1) 0 8 - 0x40) s)) := by simp [serviceStart, serviceIs, hw, h]
end

/-- Settles O31: fenceStart's two outcomes, and serviceStart's of a port taken out, of one that is out, and of one returned. -/
theorem fenceAndService : Obligations.FenceAndService := by
  intro s c hw hc u w t
  have hout : outOfService u t = outOfService s t := rfl
  refine ⟨fun hop hp => ?down, fun hop hp => ?up, fun hop hb ho => ?isOut, fun hop hb ho => ?out, fun hop hb ho => ?back⟩
  case down => exact exec_to (exec_peerFence hw hc hop) (if_pos (show peerUp u = false from hp))
  case up =>
    have hp' : ¬ peerUp u = false := by rw [show peerUp u = peerUp s from rfl, hp]; decide
    exact exec_to (exec_peerFence hw hc hop) (if_neg hp')
  case isOut => exact exec_to (exec_portService hw hc hop) (serviceStart_isOut hb (hout.trans ho))
  case out => exact exec_to (exec_portService hw hc hop) (serviceStart_out hb (hout.trans ho))
  case back => exact exec_to (exec_portService hw hc hop) (serviceStart_back hb (hout.trans ho))

/-! ## CAL_APPLY and RING_RESET -/

theorem exec_calApply {s : State} {c : Cmd} (buf : List Byte) (ok : Bool) (mram : BitVec 8) (hw : s.awake = true)
    (hc : headCmd s = some c) (hop : c.op = 6) (hr : calReady s = true) :
    exec (.calApply buf ok mram) s =
      .next (settle s (calStart buf ok mram.toNat c (modCmd c.idx (fun x => { x with started := true }) s))) :=
  calc exec (.calApply buf ok mram) s = done s (core (fun s => whenDo (calReady s) (startHead 6 (calStart buf ok mram.toNat)) s) s) := rfl
    _ = _ := by rw [done_core _ hw, hr, whenDo_true, startHead_of_headCmd _ hw hc hop]
theorem exec_ringReset {s : State} {c : Cmd} (hw : s.awake = true) (hc : headCmd s = some c) (hop : c.op = 8) :
    exec .ringReset s = .next (settle s (ringResetStart c (modCmd c.idx (fun x => { x with started := true }) s))) :=
  calc exec .ringReset s = done s (core (startHead 8 ringResetStart) s) := rfl
    _ = _ := by rw [done_core _ hw, startHead_of_headCmd _ hw hc hop]

/-- What CAL_APPLY makes of the record that it has found (R461, R462). -/
def calTaken (c : Cmd) (src : Nat) (rec_ : Option UserRec) (s : State) : State :=
  match rec_ with
  | none => doneCmd c.idx 6 0#32 0#32 s
  | some u =>
    if offsetsBad u then doneCmd c.idx 4 0#32 0#32 s
    else doneCmd c.idx 0 (w32 u.offs.length) 0#32 { s with pw := { s.pw with calStaged := some (u, src, bit (wordAt c.w 1) 1) } }

section
variable {c : Cmd} {src : Nat} {s : State} {u : UserRec}

theorem calTaken_none : calTaken c src none s = doneCmd c.idx 6 0#32 0#32 s := rfl
theorem calTaken_staged (h : offsetsBad u = false) : calTaken c src (some u) s = doneCmd c.idx 0 (w32 u.offs.length) 0#32
    { s with pw := { s.pw with calStaged := some (u, src, bit (wordAt c.w 1) 1) } } := if_neg (by rw [h]; decide)
theorem calTaken_offsets (h : offsetsBad u = true) : calTaken c src (some u) s = doneCmd c.idx 4 0#32 0#32 s := if_pos h
end

theorem calStart_host {c : Cmd} (buf : List Byte) (bad : Nat) (s : State) (h : bit (wordAt c.w 1) 0 = false) :
    calStart buf true bad c s = calTaken c 2
      (if (wordAt c.w 6).toNat < 296 ∨ buf.length < 296 then none else userRecord (buf.take 296))
      (whenDo (decide (296 ≤ (wordAt c.w 6).toNat)) (bufferRead c 296) s) := by
  simp only [calStart, h, Bool.not_false, Bool.true_and, whenDo_false, Bool.not_true, Bool.and_false, Bool.false_eq_true, if_false,
    Bool.true_eq_false, false_or]
  rfl
theorem calStart_mram {c : Cmd} (buf : List Byte) (ok : Bool) (bad : Nat) (s : State) (h : bit (wordAt c.w 1) 0 = true) :
    calStart buf ok bad c s = calTaken c 3 ((latestSlot (validSlots bad s.pw.user)).map (·.2)) (slotFaults bad s.pw.user s) := by
  simp only [calStart, h, Bool.not_true, Bool.false_and, whenDo_false, whenDo_true, if_true]
  rfl

@[simp] theorem slotFaults_pw {α : Type} (bad : Nat) (m : SMap α) (s : State) : (slotFaults bad m s).pw = s.pw :=
  whenDo_keep State.pw _ _ _ (by simp)

/-- A write of a map through its default after another of the same key is the second alone, unless the first leaves the key unlisted. -/
theorem mapSet_mapSet {α : Type} [DecidableEq α] (d : Nat → α) (m : SMap α) (a : Nat) (v w : α) (h : v = d a → w = d a) :
    mapSet d (mapSet d m a v) a w = mapSet d m a w := by
  have hdi : ∀ m : SMap α, mapDel (mapIns m a v) a = mapDel m a := fun m => by
    induction m with
    | nil => simp [mapIns, mapDel]
    | cons e t ih =>
      obtain ⟨k, x⟩ := e
      unfold mapIns
      split_ifs with h1 h2
      · simp [mapDel]
      · simp [mapDel, h2]
      · simp [mapDel, h2, ih]
  have hdd : ∀ m : SMap α, mapDel (mapDel m a) a = mapDel m a := fun m => by
    induction m with
    | nil => rfl
    | cons e t ih =>
      obtain ⟨k, x⟩ := e
      by_cases hk : a = k <;> simp [mapDel, hk, ih]
      subst hk; exact ih
  have hii : ∀ m : SMap α, mapIns (mapIns m a v) a w = mapIns m a w := fun m => by
    induction m with
    | nil => simp [mapIns]
    | cons e t ih =>
      obtain ⟨k, x⟩ := e
      by_cases h1 : a < k
      · simp [mapIns, h1]
      · by_cases h2 : a = k
        · simp [mapIns, h2]
        · simp [mapIns, h1, h2, ih]
  unfold mapSet
  by_cases hv : v = d a
  · rw [if_pos hv, if_pos (h hv), hdd, if_pos (h hv)]
  · rw [if_neg hv]
    split
    · exact hdi m
    · exact hii m

theorem setRing_setRing {s : State} {r : Nat} {v w : Ring} (h : v = {} → w = {}) : (s.setRing r v).setRing r w = s.setRing r w := by
  unfold State.setRing
  dsimp only
  rw [mapSet_mapSet (dflt ({} : Ring)) s.rings r v w h]

/-- A fetch for a ring that RING_RESET has deactivated is dropped. -/
theorem htFetch_dropped {s : State} {r : Nat} (desc : List Word) (pay : List Byte) (ok : Bool) (hf : hostFetches s = true)
    (hact : (s.ring r).active = false) (hrd : (s.ring r).reads ≠ 0) : htFetch r desc pay ok s = readDropped r s := by
  unfold htFetch
  dsimp only
  rw [if_neg (by simp [hf, hrd]), if_pos hact]

/-- The last read that ends completes the RING_RESET that waited for it (R382). -/
theorem readDropped_last {s : State} {r : Nat} {x : Cmd} (hr : (s.ring r).reads = 1)
    (hx : s.cmds.find? (fun y => decide (y.op = 8 ∧ field (wordAt y.w 1) 0 6 = r ∧ y.done = none) && y.started) = some x) :
    readDropped r s = doneCmd x.idx 0 0#32 0#32 (wbIndex r (s.setRing r { owner := (s.ring r).owner })) := by
  have hreads : ((readEnds r s).ring r).reads = 0 := by simp [readEnds, hr]
  have howner : ((readEnds r s).ring r).owner = (s.ring r).owner := by simp [readEnds]
  have hempty : ({ s.ring r with reads := (s.ring r).reads - 1 } : Ring) = {} → ({ owner := (s.ring r).owner } : Ring) = {} :=
    fun h => congrArg (fun g : Ring => ({ owner := g.owner } : Ring)) h
  have hx' : (readEnds r s).cmds.find? (fun y => decide (y.op = 8 ∧ field (wordAt y.w 1) 0 6 = r ∧ y.done = none) && y.started) =
      some x := hx
  unfold readDropped
  dsimp only
  rw [hx']
  dsimp only
  rw [if_pos hreads, ringZero, howner, readEnds, setRing_setRing hempty]

/-- Settles O30: calTaken's outcomes for the host's buffer and for MRAM, RING_RESET's two, and the end of one that waited. -/
theorem calApplyAndRingReset : Obligations.CalApplyAndRingReset := by
  intro s c hw hc u w
  have hvpw : (whenDo (decide (296 ≤ (wordAt c.w 6).toNat)) (bufferRead c 296) u).pw = s.pw := by
    obtain ⟨o, h⟩ := bufferRead_eq c 296 u
    rw [whenDo_keep State.pw _ _ _ (by rw [h])]
    rfl
  refine ⟨?host, fun hop hb buf ok mram g r hl ho => ?mram, ?reset, fun ring desc pay ok x hd hf ha hr hx => ?last⟩
  case host =>
    intro hop hb hup v
    refine ⟨fun buf mram r h6 hl hu ho => ?staged, fun buf mram r h6 hl hu ho => ?offsets, fun buf mram hu => ?bad⟩ <;>
      refine exec_to (exec_calApply buf true mram hw hc hop (by simp [calReady, hup])) ?_ <;> rw [calStart_host buf _ _ hb]
    case staged =>
      rw [if_neg (by omega), hu, calTaken_staged ho]
      change doneCmd c.idx 0 (w32 r.offs.length) 0#32 { v with pw := { v.pw with calStaged := some (r, 2, bit w 1) } } = _
      rw [show v.pw = s.pw from hvpw]
    case offsets => rw [if_neg (by omega), hu, calTaken_offsets ho]
    case bad => rw [hu, ite_self, calTaken_none]
  case mram =>
    refine exec_to (exec_calApply buf ok mram hw hc hop (by simp [calReady, hc, show bit (wordAt c.w 1) 0 = true from hb])) ?_
    rw [calStart_mram buf ok _ _ hb]
    change calTaken c 3 ((latestSlot (validSlots mram.toNat s.pw.user)).map (·.2)) (slotFaults mram.toNat s.pw.user u) = _
    rw [hl, Option.map_some, calTaken_staged ho, slotFaults_pw]
    rfl
  case reset =>
    intro hop r o v
    exact ⟨fun hr => exec_to (exec_ringReset hw hc hop) (if_pos hr), fun hr => exec_to (exec_ringReset hw hc hop) (if_neg hr)⟩
  case last =>
    have hw : s.awake = true := by
      simp only [hostFetches, Bool.and_eq_true] at hf
      exact hf.1.2
    refine exec_to (exec_htFetchComplete ring pay ok hw hd) ?_
    rw [htFetch_dropped desc pay ok hf ha (by omega), readDropped_last hr hx]

end Sys2Proof.Machine
end

section
/-!
SUPPORT. Asynchronous ports: received characters (R250 to R256, R267, R269), the framer (R105 to R125), rates (R263, R264).
-/
namespace Sys2Proof.Machine

/-! ## The receiver -/

@[simp] theorem modPort_rb (n : Nat) (f : Port → Port) (s : State) (o i : Nat) : (modPort n f s).rb o i = s.rb o i := rfl

theorem captureFine_modPort (n : Nat) (f : Port → Port) (s : State) (t age trim : Nat) :
    captureFine (modPort n f s) t age trim = captureFine s t age trim := rfl

/-- A stop decision of an enabled port in service stores nothing of a false start. -/
theorem rxStop_falseStart {n : Nat} {s : State} (v : Nat) (par stop noisy early : Bool) (sync age : Nat) (hw : s.awake = true)
    (hen : s.rb (apOff n 0) 0 = true) (hs : (s.port n).oos = false) :
    rxStop n true v par stop noisy early sync age s = rxFalse n s := by
  simp [rxStop, hw, hen, hs]

/-- A stop decision of an enabled port in service that nothing holds back stores its word. -/
theorem rxStop_stored {n : Nat} {s : State} (v : Nat) (par stop noisy early : Bool) (sync age : Nat) (hw : s.awake = true)
    (hen : s.rb (apOff n 0) 0 = true) (hs : (s.port n).oos = false)
    (hl : linMode s n = false ∨ bit (rxWord (s.port n).rxChar (invRx s n) v par stop noisy early) 12 = false)
    (ht : lineMode s n = 0 ∨ txActive s n = false ∨ s.rb (apOff n 0) 3 = true) :
    rxStop n false v par stop noisy early sync age s =
      rxPush n (rxWord (s.port n).rxChar (invRx s n) v par stop noisy early) (captureFine s n age n) (linMeasure n sync s).1
        (linMeasure n sync s).2 := by
  have hl' : ¬ (linMode s n = true ∧ bit (rxWord (s.port n).rxChar (invRx s n) v par stop noisy early) 12 = true) := by
    rintro ⟨h1, h2⟩
    rcases hl with h | h <;> simp [h1, h2] at h
  have ht' : ¬ (lineMode s n ≠ 0 ∧ txActive s n = true ∧ s.rb (apOff n 0) 3 = false) := by
    rintro ⟨h1, h2, h3⟩
    rcases ht with h | h | h <;> simp [h1, h2, h3] at h
  unfold rxStop
  rw [if_pos hw]
  simp only [hen, Bool.not_true, Bool.false_eq_true, if_false, hs]
  rw [if_neg hl', if_neg ht']

/-- A responder with AUTO_SYNC measures the character behind a break (R269). -/
theorem linMeasure_responder {n : Nat} {s : State} (sync : Nat) (hl : (s.port n).linSync = true) (hm : linMode s n = true)
    (hc : s.rb (apOff n 0x2C) 0 = false) (ha : s.rb (apOff n 0x2C) 2 = true) :
    linMeasure n sync s =
      (s.setPort n { s.port n with
        linSync := false,
        linBit := if syncOff (syncBit sync) (bitTime (s.port n).rxRate) then none else some (syncBit sync) },
       syncOff (syncBit sync) (bitTime (s.port n).rxRate)) := by
  simp [linMeasure, hl, hm, hc, ha]

/-- Settles O32: rxPush's two outcomes, rxStop's for a false start and for a stored word, and the end of a low level. -/
theorem receiveWordStored : Obligations.ReceiveWordStored := by
  intro s port
  refine ⟨?push, ?char, ?brk⟩
  case push =>
    intro u w cap bad p w1 cause
    exact ⟨fun hq => if_neg (Nat.not_le.mpr hq), fun hq => if_pos hq⟩
  case char =>
    intro fs data par stop noisy early sync age hw hen hs u w m
    have huw : u.awake = true := hw
    have huen : u.rb (apOff port 0) 0 = true := hen
    have hport : u.port port = { s.port port with line := if fs then !(invRx s port) else stop, rxBusy := false } := by simp [u]
    have hus : (u.port port).oos = false := by rw [hport]; exact hs
    have htx : txActive u port = txActive s port := by simp only [txActive, hport]; rfl
    have hexec : exec (.characterReceived port fs data par stop noisy early ⟨age, sync⟩) s =
        .next (settle s (rxStop port fs data.toNat par stop noisy early sync age u)) :=
      calc exec (.characterReceived port fs data par stop noisy early ⟨age, sync⟩) s
          = done s (rxChar_ port fs data.toNat par stop noisy early sync age s) := rfl
        _ = _ := by
          unfold rxChar_
          rw [done_eq]
          dsimp only
          rw [hw, whenDo_true]
    have hword : rxWord (u.port port).rxChar (invRx u port) data.toNat par stop noisy early = w := by rw [hport]; rfl
    refine ⟨fun hfs => ?_, fun hfs hl ht => ?_, fun hl hm hc ha => ?_⟩
    · refine exec_to hexec ?_
      rw [hfs, rxStop_falseStart _ _ _ _ _ _ _ huw huen hus]
      rfl
    · refine exec_to hexec ?_
      rw [hfs, rxStop_stored (s := u) _ _ _ _ _ _ _ huw huen hus (by rw [hword]; exact hl) (by rw [htx]; exact ht), hword]
    · have h := linMeasure_responder (s := u) sync (by rw [hport]; exact hl) hm hc ha
      have hrate : (u.port port).rxRate = (s.port port).rxRate := by rw [hport]
      rw [hrate] at h
      exact h
  case brk =>
    intro bits age hw hen hs hl brk
    have hgo : linBreakEnd port bits age s =
        rxPush port (if brk then 0x1000#32 else 0x200#32)
          (captureFine (modPort port (fun p => { p with line := !(invRx s port), linSync := brk, linBit := if brk then none else p.linBit }) s)
            port age port)
          (modPort port (fun p => { p with line := !(invRx s port), linSync := brk, linBit := if brk then none else p.linBit }) s) := by
      unfold linBreakEnd
      rw [hw, hen, hl, hs]
      rfl
    calc exec (.linBreak port bits age) s = done s (core (linBreakEnd port bits age) s) := rfl
      _ = _ := by rw [done_core _ hw, hgo, captureFine_modPort]

/-! ## The framer -/

/-- A port's register outside page 8 is not one that the read of the receive queue notes its parity in. -/
theorem portqRead_at_reg (n : Nat) (e : RxEnt) (s : State) {o : Nat} (ho : o < 0x8F00) : (portqRead n e s).reg o = s.reg o := by
  unfold portqRead
  split
  · rfl
  · have h1 : o ≠ 0x8F28 := by omega
    have h2 : o ≠ 0x8F20 := by omega
    simp only [State.reg_setReg, if_neg h1, State.reg_raise, if_neg h2]
    rfl

theorem apOff_lt {n k : Nat} (hn : n < 48) (hk : k < 0x80) : apOff n k < 0x5800 := by unfold apOff; omega

/-- With framing OFF a character outside a unit is junk (R110). -/
theorem charOutside_off {n : Nat} {c : RxChar} {s : State} (h : s.rf (apOff n 0x40) 0 3 = 0) : charOutside n c s = junkN n 1 s := by
  have hmode : frmMode (s.reg (apOff n 0x40)) = 0 := by
    have hf : field (s.reg (apOff n 0x40)) 0 3 = 0 := h
    simp [frmMode, hf]
  have hskip : decide ((s.port n).skip ≠ 0 ∧ ((s.port n).skip = skipOf 0 ∨ (0 = 5 ∧ 16 < (s.port n).skip))) = false :=
    decide_eq_false fun ⟨h0, h1⟩ => h1.elim h0 fun h => by omega
  unfold charOutside
  dsimp only
  rw [hmode, hskip]
  simp [frmForbidden]

theorem frameChar_off {n : Nat} {s : State} {e : RxEnt} {q : List RxEnt} (hn : n < 48) (hw : s.awake = true)
    (hq : (s.port n).q = e :: q) (hu : (s.port n).unit = none) (h : s.rf (apOff n 0x40) 0 3 = 0) :
    frameChar n s = junkN n 1 (portqRead n e (s.setPort n { s.port n with q := q })) := by
  have hf : (portqRead n e (s.setPort n { s.port n with q := q })).rf (apOff n 0x40) 0 3 = 0 := by
    have hlt := apOff_lt hn (show 0x40 < 0x80 by decide)
    unfold State.rf
    rw [portqRead_at_reg _ _ _ (by omega)]
    exact h
  have hlin : linMode (portqRead n e (s.setPort n { s.port n with q := q })) n = false := by simp [linMode, hf]
  have haw : s.awake ≠ false := by rw [hw]; decide
  unfold frameChar
  dsimp only
  rw [hq]
  dsimp only
  generalize portqRead n e (s.setPort n { s.port n with q := q }) = s' at *
  rw [if_neg haw, hu]
  dsimp only
  rw [if_neg (by rw [hlin]; simp), charOutside_off hf]

theorem frameChar_inside {n : Nat} {s : State} {e : RxEnt} {q : List RxEnt} {u : UnitSt} (hw : s.awake = true)
    (hq : (s.port n).q = e :: q) (hu : (s.port n).unit = some u) :
    frameChar n s = charInside n u (rxChar e) (portqRead n e (s.setPort n { s.port n with q := q })) := by
  have haw : s.awake ≠ false := by rw [hw]; decide
  unfold frameChar
  simp only [hq, if_neg haw, hu]

/-- A character without a flag that ends its unit goes to the unit's framing (R110). -/
theorem charInside_plain {n : Nat} {u : UnitSt} {c : RxChar} {s : State} (hm : frmMode u.ctrl ≠ 6) (hb : c.bk = false)
    (he : (c.err && bit u.ctrl 8) = false) :
    charInside n u c s = match unitChar u c.v with
      | .more v => unitMore n (flagStatus c v) s
      | .done v st true => unitTook n (.done (flagStatus c v) st true) s
      | .done v st false => charOutside n c (unitTook n (.done v st false) s) := by
  have hno : ¬ (c.bk = true ∨ (c.err = true ∧ bit u.ctrl 8 = true)) := by
    rintro (h | ⟨h1, h2⟩)
    · rw [hb] at h; exact absurd h (by decide)
    · rw [h1, h2] at he; exact absurd he (by decide)
  unfold charInside
  rw [if_neg hm, if_neg hno] <;> rfl

/-- A unit without early header that ends well, or with MALF, becomes a record where one finds room (R103, R105). -/
theorem unitEnd_recorded {n : Nat} {u : UnitSt} {s s1 : State} (he : u.early = none) (hd : u.dead = false)
    (ha : addRecord (unitHead n u (unitPay u).length (unitH5 u)) (unitPay u) { status := 0, hits := u.cap.hits, tagMark := unitTag u }
      (count (ctAp n 0) 1 (modPort n (fun p => { p with unit := none }) s)) = (s1, .recorded)) :
    unitEnd n u 0 s = s1.setSeq n (u.seq + 1) := by
  have h0 : ¬ ((0 : Nat) = 6 ∨ ((0 : Nat) ≠ 0 ∧ u.malf = false)) := by simp
  unfold unitEnd
  simp only [hd, he, if_neg h0, ha]
  rfl

/-- A unit that ends badly without MALF is junk (R105). -/
theorem unitEnd_bad {n : Nat} {u : UnitSt} {st : Nat} {s : State} (he : u.early = none) (hd : u.dead = false) (hm : u.malf = false)
    (hst : st ≠ 0) : unitEnd n u st s =
      count (ctAp n 9) 1 (countTalker n 0 1 1 (count (ctAp n st) 1 (modPort n (fun p => { p with unit := none }) s))) := by
  unfold unitEnd
  simp [hd, he, hst, hm]

/-- Settles O33: frameChar, gapEnd, silence and linSlotEnd in the case that each clause names. -/
theorem framerRuns : Obligations.FramerRuns := by
  intro s port hw p
  refine ⟨fun e q hq hu h => ?off, fun e q u hq hu hm hb he => ⟨fun v hv => ?more, fun v st hv => ?took⟩,
    fun u s1 hu hm hst he hd ha hskip => ?gap, fun u hu hm hg he hd hf => ?silence, fun u hu hm hph hpay => ?slot⟩
  case off =>
    calc exec (.frameCharacter port) s = done s (core (frameChar port) s) := rfl
      _ = _ := by rw [done_core _ hw, frameChar_off port.isLt hw hq hu h]
  case more =>
    calc exec (.frameCharacter port) s = done s (core (frameChar port) s) := rfl
      _ = _ := by rw [done_core _ hw, frameChar_inside hw hq hu, charInside_plain hm hb he, hv]
  case took =>
    calc exec (.frameCharacter port) s = done s (core (frameChar port) s) := rfl
      _ = _ := by rw [done_core _ hw, frameChar_inside hw hq hu, charInside_plain hm hb he, hv]
  case gap =>
    have hu' : (s.port port).unit = some u := hu
    have hgo : gapEnd port s = s1.setSeq port (u.seq + 1) := by
      have hend : unitEnd port u u.st s = s1.setSeq port (u.seq + 1) := by rw [hst]; exact unitEnd_recorded he hd ha
      have h3 : ¬ ((s1.setSeq port (u.seq + 1)).port port).skip = 3 := by rw [setSeq_at_port, hskip]; decide
      unfold gapEnd
      simp only [hu', if_pos hm, hend, if_neg h3]
    calc exec (.idleGapEnd port) s = done s (core (gapEnd port) s) := rfl
      _ = _ := by rw [done_core _ hw, hgo]
  case silence =>
    have hu' : (s.port port).unit = some u := hu
    have hgo : silence port s = unitEnd port u 7 s := by
      unfold silence
      simp only [hu']
      exact if_pos ⟨hm, hg⟩
    calc exec (.silenceTimeout port) s = done s (core (silence port) s) := rfl
      _ = _ := by rw [done_core _ hw, hgo, unitEnd_bad he hd hf (by decide)]; rfl
  case slot =>
    have hu' : (s.port port).unit = some u := hu
    have hgo : linSlotEnd port s = linError port (u.linPid.toNat % 64) 3 (modPort port (fun p => { p with unit := none }) s) := by
      unfold linSlotEnd linOver
      simp only [hu', if_pos hm, hph, if_pos hpay]
    calc exec (.linFrameSlotExpiry port) s = done s (core (linSlotEnd port) s) := rfl
      _ = _ := by rw [done_core _ hw, hgo]; rfl

end Sys2Proof.Machine
end

section
/-!
SUPPORT. Asynchronous ports: rates (R263, R264), the transmitter (R258 to R268), the line's times and AP_CTRL (R246, R262, R265,
R266).
-/
namespace Sys2Proof.Machine

/-! ## Writes of a port's registers -/

theorem writeReg_ap {n k : Nat} (v : Word) (s : State) (hn : n < 48) (hk : k < 0x80) : writeReg (apOff n k) v s = wrAp n k v s := by
  have hlt := apOff_lt hn hk
  have hge : 0x4000 ≤ apOff n k := by unfold apOff; omega
  have hd : dated (apOff n k) = false := decide_eq_false (by omega)
  have hmedia : wrMedia (apOff n k) v s = wrAp n k v s := by
    have hport : (apOff n k - 0x4000) / 0x80 = n := by unfold apOff; omega
    have hreg : apOff n k % 0x80 = k := by unfold apOff; omega
    unfold wrMedia
    rw [if_pos hlt, hport, hreg]
  unfold writeReg
  dsimp only
  rw [hd, whenDo_false]
  have hpage : apOff n k / 0x1000 = 4 ∨ apOff n k / 0x1000 = 5 := by omega
  rcases hpage with h | h <;> rw [h] <;> exact hmedia

theorem txBusy_agentPre (a : Nat) (s : State) (n : Nat) : txBusy (agentPre a s) n = txBusy s n := by
  unfold agentPre; split <;> rfl
theorem lineMode_agentPre (a : Nat) (s : State) (n : Nat) : lineMode (agentPre a s) n = lineMode s n := by
  unfold agentPre; split <;> rfl

/-! ## A character in the receive shifter changes nothing of the transmitter -/

theorem port_rxSeen (n : Nat) (b : Bool) (s : State) (k : Nat) :
    (rxSeen n b s).port k = { s.port k with rxBusy := if k = n then b else (s.port k).rxBusy } := by
  unfold rxSeen
  rw [State.port_modPort]
  split
  next h => subst h; rfl
  next h => rfl

section
variable (n : Nat) (b : Bool) (s : State)

theorem partBytes_rxSeen (a : Nat) (p : Pin) : partBytes a p (rxSeen n b s) = partBytes a p s := by
  unfold partBytes; rw [port_rxSeen]
theorem cutBytes_rxSeen (a : Nat) : cutBytes (rxSeen n b s) a = cutBytes s a := by
  have hpin : (rxSeen n b s).pin a = s.pin a := rfl
  unfold cutBytes
  rw [hpin]
  split
  · rfl
  · dsimp only
    rw [partBytes_rxSeen]
    rfl
theorem ninePort_rxSeen (k : Nat) : ninePort (rxSeen n b s) k = ninePort s k := by unfold ninePort; rw [port_rxSeen]
theorem curStream_rxSeen (k : Nat) (c : Cur) : curStream (rxSeen n b s) k c = curStream s k c := by
  unfold curStream; rw [ninePort_rxSeen, cutBytes_rxSeen]; rfl
theorem curShift_rxSeen (k : Nat) (c : Cur) : curShift (rxSeen n b s) k c = curShift s k c := by
  unfold curShift; dsimp only; rw [curStream_rxSeen, ninePort_rxSeen, port_rxSeen]; rfl
theorem portEp_rxSeen (k : Nat) : portEp (rxSeen n b s) k = portEp s k := by unfold portEp; rw [port_rxSeen]; rfl
theorem shiftOf_rxSeen (k : Nat) : shiftOf (rxSeen n b s) k = shiftOf s k := by
  have hcur : curShift (rxSeen n b s) k = curShift s k := funext fun c => curShift_rxSeen n b s k c
  unfold shiftOf
  rw [port_rxSeen, portEp_rxSeen, hcur]
  rfl
theorem txBusy_rxSeen (k : Nat) : txBusy (rxSeen n b s) k = txBusy s k := by unfold txBusy; rw [shiftOf_rxSeen]
end

/-! ## Rates -/

/-- Both sides of a port take the written setting. -/
theorem rateTake_both (n : Nat) (u : State) : rateTake n true true u =
    whenDo ((u.port n).pendRx || (u.port n).pendTx) (raise (apOff n 0x24) 0x10) (u.setPort n
      { u.port n with rxChar := u.reg (apOff n 4), rxRate := u.reg (apOff n 8), txChar := u.reg (apOff n 4),
                      txRate := u.reg (apOff n 8), pendRx := false, pendTx := false }) := by
  simp [rateTake]

theorem wrRate_waits {n : Nat} {s : State} (char : Bool) (v : Word) (h : (s.port n).rxBusy = true ∨ txBusy s n = true) :
    wrRate n char v s = modPort n (fun p => { p with pendRx := true, pendTx := true })
      (s.setReg (apOff n (if char then 4 else 8)) (if char then v &&& 0x3FF#32 else v &&& 0x7FFFFFF#32)) := by
  unfold wrRate
  rw [if_pos (by simpa using h)]
theorem wrRate_applies {n : Nat} {s : State} (char : Bool) (v : Word) (h : (s.port n).rxBusy = false) (ht : txBusy s n = false) :
    wrRate n char v s = rateTake n true true
      (s.setReg (apOff n (if char then 4 else 8)) (if char then v &&& 0x3FF#32 else v &&& 0x7FFFFFF#32)) := by
  unfold wrRate
  rw [if_neg (by simp [h, ht])]
theorem wrRateNow_applies {n : Nat} {s : State} (v : Word) (h : (s.port n).rxBusy = false) (ht : txBusy s n = false) :
    wrRateNow n v s = rateTake n true true (s.setReg (apOff n 8) (v &&& 0x7FFFFFF#32)) := by
  unfold wrRateNow
  dsimp only
  rw [h, ht]
  rfl

theorem agentPre_at_port' (a : Nat) (s : State) (n : Nat) : (agentPre a s).port n = s.port n := by unfold agentPre; split <;> rfl

theorem bit31_off (v : Word) : bit (v &&& 0x7FFFFFFF#32) 31 = false := by simp [bit]
theorem bit31_on (v : Word) : bit (v ||| 0x80000000#32) 31 = true := by simp [bit]

/-- AP_CHAR and AP_RATE without RATE_NOW. -/
theorem writeReg_rate {n : Nat} (char : Bool) (val : Word) (s : State) (hn : n < 48) :
    writeReg (apOff n (if char then 4 else 8)) (if char then val else val &&& 0x7FFFFFFF#32) s =
      wrRate n char (if char then val else val &&& 0x7FFFFFFF#32) s := by
  cases char with
  | true => exact writeReg_ap _ _ hn (by decide)
  | false =>
    have h := writeReg_ap (k := 8) (val &&& 0x7FFFFFFF#32) s hn (by decide)
    refine h.trans ?_
    change (if bit (val &&& 0x7FFFFFFF#32) 31 then wrRateNow n _ s else wrRate n false _ s) = _
    rw [bit31_off]
    rfl
theorem writeReg_rateNow {n : Nat} (val : Word) (s : State) (hn : n < 48) :
    writeReg (apOff n 8) (val ||| 0x80000000#32) s = wrRateNow n (val ||| 0x80000000#32) s := by
  refine (writeReg_ap (k := 8) _ s hn (by decide)).trans ?_
  change (if bit (val ||| 0x80000000#32) 31 then wrRateNow n _ s else wrRate n false _ s) = _
  rw [bit31_on]
  rfl

theorem rxSeen_awake (n : Nat) (b : Bool) (s : State) : (rxSeen n b s).awake = s.awake := rfl

/-- Settles O34: wrRate, wrRateNow and rateTake in the case that each clause names. -/
theorem ratesApply : Obligations.RatesApply := by
  intro s port a val
  refine ⟨fun char => ?writes, fun tx hw hp => ?apply, fun u => rateTake_both port u, fun h ht => ?now⟩
  case writes =>
    intro o v stored
    have hexec : ∀ rx, agentMayWrite a (rxSeen port rx s) o v = true → exec (.rateWrite a port char val rx) s =
        .next (settle s (agentDone a o (rxSeen port rx s) (wrRate port char v (agentPre a (rxSeen port rx s))))) := fun rx h =>
      calc exec (.rateWrite a port char val rx) s = done s (core (fun s => agentWrite a o v (rxSeen port rx s)) s) := rfl
        _ = _ := by
          rw [done_core _ ((rxSeen_awake port rx s).symm.trans (agentMayWrite_awake h)), agentWrite_served h]
          exact congrArg (fun t => Host.Outcome.next (settle s (agentDone a o (rxSeen port rx s) t))) (writeReg_rate char val _ port.isLt)
    have hrx : ∀ rx, ((agentPre a (rxSeen port rx s)).port port).rxBusy = rx := fun rx => by
      rw [agentPre_at_port', port_rxSeen]; exact if_pos rfl
    have htx : ∀ rx, txBusy (agentPre a (rxSeen port rx s)) port = txBusy s port := fun rx => by
      rw [txBusy_agentPre, txBusy_rxSeen]
    have hst : (if char then v &&& 0x3FF#32 else v &&& 0x7FFFFFF#32) = stored := rfl
    refine ⟨fun rx h hb => exec_to (hexec rx h) ?_, fun h hb => exec_to (hexec false h) ?_⟩
    · rw [wrRate_waits char v (by rw [hrx, htx]; exact hb), hst]
    · rw [wrRate_applies char v (hrx false) ((htx false).trans hb), hst]
  case apply =>
    have hgo : rateApply_ port tx s = rateTake port (!tx) tx s := by
      unfold rateApply_
      dsimp only
      rw [if_pos (by rw [hw, hp]; rfl)]
    calc exec (.rateApply port tx) s = done s (core (rateApply_ port tx) s) := rfl
      _ = _ := by rw [done_core _ hw, hgo]
  case now =>
    have hrx : ((agentPre a (rxSeen port false s)).port port).rxBusy = false := by
      rw [agentPre_at_port', port_rxSeen]; exact if_pos rfl
    calc exec (.rateNow a port val false) s
        = done s (core (fun s => agentWrite a (apOff port 8) (val ||| 0x80000000#32) (rxSeen port false s)) s) := rfl
      _ = _ := by
        rw [done_core _ ((rxSeen_awake port false s).symm.trans (agentMayWrite_awake h)), agentWrite_served h,
          writeReg_rateNow _ _ port.isLt, wrRateNow_applies _ hrx (by rw [txBusy_agentPre, txBusy_rxSeen, ht])]

/-! ## The transmitter -/

@[simp] theorem setCur_at_cur (p : Nat) (c : Option Cur) (s : State) : ((setCur p c s).eg p).cur = c := by simp [setCur]

/-- The transmitter of an enabled port in service sends a character of its own sentence. -/
theorem txChar_send {n : Nat} {s : State} (mis : Option Nat) (hw : s.awake = true) (hen : s.rb (apOff n 0) 0 = true)
    (hs : (s.port n).oos = false) (hl : (s.port n).linTx = []) : txChar_ n mis s = txSend n n false mis s := by
  unfold txChar_ txOne
  rw [if_pos hen, hw, hs]
  simp [hl]

section
variable {n : Nat} {s : State} {c : Cur} {v k : Nat}

theorem txSend_char (hc : (s.eg n).cur = some c) (hv : curShift s n c = some (v, k)) :
    txSend n n false none s = curNext n n k c (charOut n v none s) := by
  unfold txSend
  simp only [hc, hv]
  rfl
theorem txSend_collides {i : Nat} (hc : (s.eg n).cur = some c) (hv : curShift s n c = some (v, k)) (hm : lineMode s n ≠ 0)
    (hi : i ≤ stopIndex (s.port n).txChar) : txSend n n false (some i) s = collide n n c s := by
  unfold txSend
  simp only [hc, hv]
  rw [if_pos (by simp [hi, hm])]
theorem txSend_linError {i : Nat} (hc : (s.eg n).cur = some c) (hv : curShift s n c = some (v, k)) (hm : lineMode s n = 0)
    (hl : linMode s n = true) (hi : i ≤ stopIndex (s.port n).txChar) :
    txSend n n false (some i) s = linError n 0 4 (dropRef c.ref.addr (portEnd n n s)) := by
  unfold txSend
  simp only [hc, hv]
  rw [if_neg (by simp [hm]), if_pos (by simp [hi, hl])]

theorem collide_retries (h : c.tries + 1 < s.rf (apOff n 0x14) 16 4) : collide n n c s =
    setCur n (some { c with tries := c.tries + 1, sent := 0, shift := none, backoff := true, hit := true })
      (modPort n (fun p => { p with de := false, idle := false }) (raise (apOff n 0x24) 0x40 (count (ctAp n 13) 1 s))) := if_pos h

/-- A stored sentence reads nothing ahead (R211). -/
theorem cutLoad_stored (m : Nat) (hc : (s.eg n).cur = some c) (h : c.ref.cut = false) : cutLoad n m s = s := by
  cases m with
  | zero => rfl
  | succ m =>
    unfold cutLoad
    simp only [hc]
    split
    · rfl
    · rw [if_pos (.inl h)]

theorem curOver_more (hc : (s.eg n).cur = some c) (h : c.sent < c.bytes.length) : curOver n n s = s := by
  unfold curOver
  simp only [hc]
  rw [if_pos (by simp [h])]
theorem curOver_last (hc : (s.eg n).cur = some c) (hcut : c.ref.cut = false) (hsh : c.shift = none) (ha : c.aborted = false)
    (h : c.bytes.length ≤ c.sent) : curOver n n s = delivered c.lq c.ref (portEnd n n s) := by
  unfold curOver
  simp only [hc]
  rw [if_neg (by simp [hcut, hsh, h]), if_neg (by simp [ha])]

/-- At its own egress point a sentence reads its next characters as it goes on. -/
theorem curNext_same (k : Nat) (c : Cur) (s : State) : curNext n n k c s =
    curOver n n (cutLoad n 520 (setCur n (some (if c.shift.isSome then { c with shift := none } else { c with sent := c.sent + k })) s)) := by
  unfold curNext
  dsimp only
  rw [if_pos rfl]

/-- The character that a stored sentence sends next. -/
theorem curShift_stored (hcut : c.ref.cut = false) (hb : c.backoff = false) (hh : c.hit = false) (hsh : c.shift = none)
    (hv : curShift s n c = some (v, k)) : (v, k) = nextChar (s.port n).txChar (c.bytes.drop c.sent) := by
  have hstream : curStream s n c = c.bytes.drop c.sent := by simp [curStream, hcut]
  unfold curShift at hv
  simp only [hb, hh, hsh, hcut, hstream] at hv
  split at hv
  · exact absurd hv (by simp)
  · split at hv
    · exact absurd hv (by simp)
    · split at hv
      · exact absurd hv (by simp)
      · rw [if_neg (by simp)] at hv
        exact (Option.some.inj hv).symm
end

/-- Settles O35: txSend goes on, collides or errs, and curOver is the sentence's end. -/
theorem characterSent : Obligations.CharacterSent := by
  intro s port c v k hw hen hs hl hc hv p c1 gone
  have hexec : ∀ m : Option (Fin 12), exec (.transmitCharacter port m) s =
      .next (settle s (flow (txSend port port false (m.map (·.val)) s))) := fun m =>
    calc exec (.transmitCharacter port m) s = done s (core (fun s => flow (txChar_ port (m.map (·.val)) s)) s) := rfl
      _ = _ := by rw [done_core _ hw, txChar_send _ hw hen hs hl]
  have hsend : txSend port port false none s = curOver port port (cutLoad port 520 gone) := by
    rw [txSend_char hc hv]
    exact curNext_same k c _
  have hgone : (gone.eg port).cur = some c1 := setCur_at_cur _ _ _
  have hcut1 : c1.ref = c.ref := by simp only [c1]; split <;> rfl
  have hlq1 : c1.lq = c.lq := by simp only [c1]; split <;> rfl
  have hab1 : c1.aborted = c.aborted := by simp only [c1]; split <;> rfl
  have hsh1 : c1.shift = none := by
    simp only [c1]
    split
    · rfl
    next h => simpa using h
  have hload : c.ref.cut = false → cutLoad port 520 gone = gone := fun h => cutLoad_stored 520 hgone (by rw [hcut1, h])
  clear_value c1 gone
  refine ⟨fun hcut hb hh hsh => curShift_stored hcut hb hh hsh hv, fun hcut hlt => ?more, fun hcut ha hle => ?last, fun hcut => ?cut,
    fun i hm hi ht => ?collides, fun i hm hlm hi => ?lin⟩
  case more => exact exec_to (hexec none) (by rw [Option.map_none, hsend, hload hcut, curOver_more hgone hlt])
  case last =>
    exact exec_to (hexec none) (by
      rw [Option.map_none, hsend, hload hcut, curOver_last hgone (by rw [hcut1, hcut]) hsh1 (by rw [hab1, ha]) hle, hlq1, hcut1])
  case cut => exact exec_to (hexec none) (by rw [Option.map_none, hsend])
  case collides =>
    exact exec_to (hexec (some i)) (by rw [Option.map_some, txSend_collides hc hv hm hi, collide_retries ht])
  case lin => exact exec_to (hexec (some i)) (by rw [Option.map_some, txSend_linError hc hv hm hlm hi])

/-! ## The line's times, and AP_CTRL -/

theorem writeReg_apCtrl {n : Nat} (v : Word) (s : State) (hn : n < 48) : writeReg (apOff n 0) v s = wrApCtrl n v s :=
  writeReg_ap v s hn (by decide)

section
variable {n : Nat} {v : Word} {s : State}

theorem wrApCtrl_off (h : s.rb (apOff n 0) 0 = true) (hv : bit v 0 = false) : wrApCtrl n v s = unitAbort n
    (modPort n (fun p => { p with txTail := txBusy s n, de := p.de && txBusy s n, linTx := p.linTx.take 1 })
      (s.setReg (apOff n 0) (v &&& 0x7F#32))) := by
  simp [wrApCtrl, h, hv]
theorem wrApCtrl_on (h : s.rb (apOff n 0) 0 = false) (hv : bit v 0 = true) : wrApCtrl n v s = boundary n
    (modPort n (fun p => { p with txTail := false, de := decide (lineMode (s.setReg (apOff n 0) (v &&& 0x7F#32)) n = 2 ∧
      ((s.setReg (apOff n 0) (v &&& 0x7F#32)).eg n).cur.isSome) }) (s.setReg (apOff n 0) (v &&& 0x7F#32))) := by
  simp only [wrApCtrl, h, hv]
  rfl
theorem wrApCtrl_same (h : s.rb (apOff n 0) 0 = bit v 0) : wrApCtrl n v s = s.setReg (apOff n 0) (v &&& 0x7F#32) := by
  unfold wrApCtrl
  cases hb : bit v 0 <;> rw [hb] at h <;> simp [h]
end

theorem exec_apCtrlEnWrite {s : State} {a : Fin 3} {port : Fin 48} {val : Word} (h : agentMayWrite a s (apOff port 0) val = true) :
    exec (.apCtrlEnWrite a port val) s =
      .next (settle s (agentDone a (apOff port 0) s (wrApCtrl port val (agentPre a s)))) := by
  rw [← writeReg_apCtrl val _ port.isLt]
  exact done_agentWrite h

/-- Settles O36: wrApCtrl's three outcomes, and the ends of backoff, inter-frame space and direction enable. -/
theorem lineTimes : Obligations.LineTimes := by
  intro s port de hw
  refine ⟨?ctrl, fun c hc hb hen => ?backoff, fun hm ht hr => ?ifs, fun hde hc => ?de⟩
  case ctrl =>
    intro a val h o u
    have hrb : (agentPre a s).rb (apOff port 0) 0 = s.rb o 0 := by unfold State.rb; rw [agentPre_at_reg]
    refine ⟨fun hen hv => exec_to (exec_apCtrlEnWrite h) ?_, fun hen hv => exec_to (exec_apCtrlEnWrite h) ?_,
      fun hv => exec_to (exec_apCtrlEnWrite h) ?_⟩
    · rw [wrApCtrl_off (hrb.trans hen) hv, txBusy_agentPre]
    · have heg : (u.eg port).cur = (s.eg port).cur := by simp [u]
      rw [wrApCtrl_on (hrb.trans hen) hv, ← heg]
    · rw [wrApCtrl_same (hrb.trans hv)]
  case backoff =>
    have hgo : backoffOver port s = modPort port (fun p => { p with de := decide (lineMode s port = 2) })
        (setCur port (some { c with backoff := false, hit := false, sent := 0 }) s) := by
      unfold backoffOver
      simp only [hc]
      rw [if_pos (by simp [hw, hb, hen])]
    calc exec (.backoffRetry port) s = done s (core (backoffOver port) s) := rfl
      _ = _ := by rw [done_core _ hw, hgo]
  case ifs =>
    have hgo : ifsOver port s = boundary port (modPort port (fun p => { p with idle := true }) s) :=
      if_pos (by simp [hw, hm, ht, hr])
    calc exec (.ifsIdle port) s = done s (core (fun s => ifsOver port s) s) := rfl
      _ = _ := by rw [done_core _ hw, hgo]
  case de =>
    have hgo : deOver de s = modPort de (fun p => { p with de := false }) s := if_pos (by simp [hde, hc])
    calc exec (.deLagEnd de) s = done s (core (deOver de) s) := rfl
      _ = _ := by rw [done_core _ hw, hgo]

end Sys2Proof.Machine
end

section
/-!
SUPPORT. LIN (O37) and the CAN controllers (O38, O39): what a header, a schedule slot, a frame on the bus, an error and a recovery
do to the port and the controller.
-/
namespace Sys2Proof.Machine

/-! ## LIN -/

section
variable {n : Nat} {s : State} {u : UnitSt}

/-- A header for a published identifier, answered or without a buffer. -/
theorem linRespond_answers {d : List Byte} (hw : s.awake = true) (hu : (s.port n).unit = some u) (hf : frmMode u.ctrl = 6) (hph : u.linPh = 2)
    (hp : u.pay = []) (ho : u.linOwn = false) (hs : (s.port n).oosPend = false)
    (he : field (linEntry s n (u.linPid.toNat % 64)) 5 2 = 2) (hd : mapFind (s.port n).buf (u.linPid.toNat % 64) = some d) :
    linRespond n s = s.setPort n { s.port n with
      unit := some { u with linOwn := true }, linTx := d ++ [linChecksum u.linPid u.linModel d],
      linTxId := u.linPid.toNat % 64, linResp := true, linLoaded := false } := by
  unfold linRespond
  simp only [hu]
  rw [if_neg (by simp [hw, hs, hf, hph, he, hp, ho])]
  simp only [hd]

theorem linRespond_noData (hw : s.awake = true) (hu : (s.port n).unit = some u) (hf : frmMode u.ctrl = 6) (hph : u.linPh = 2)
    (hp : u.pay = []) (ho : u.linOwn = false) (hs : (s.port n).oosPend = false)
    (he : field (linEntry s n (u.linPid.toNat % 64)) 5 2 = 2) (hd : mapFind (s.port n).buf (u.linPid.toNat % 64) = none) :
    linRespond n s = raise (apOff n 0x24) 0x1000 (linError n (u.linPid.toNat % 64) 5
      (s.setPort n { s.port n with unit := some { u with linPh := 4 } })) := by
  unfold linRespond
  simp only [hu]
  rw [if_neg (by simp [hw, hs, hf, hph, he, hp, ho])]
  simp only [hd]
end

/-- The break that a commander sends, in bit times. -/
def breakLen (n : Nat) (s : State) : Nat :=
  let b := s.rf (apOff n 0x2C) 4 5
  if b < 13 then 13 else if 26 < b then 26 else b

/-- A port on which the commander's slot i begins. -/
def headerPort (n i : Nat) (s : State) : Port :=
  let id := field (linEntry s n (64 + i)) 0 6
  { s.port n with linPos := some i, linTx := [0x55#8, linPid id], linTxId := id, linResp := false }

/-- A commander's slot: the break goes out, or is read back otherwise and stops. -/
theorem linSchedule_sends {n i : Nat} {s : State} (mis : Option Nat) (hw : s.awake = true) (hen : s.rb (apOff n 0) 0 = true)
    (ho : (s.port n).oos = false) (hm : linMode s n = true) (h0 : s.rb (apOff n 0x2C) 0 = true) (h1 : s.rb (apOff n 0x2C) 1 = true)
    (hu : (s.port n).unit = none) (ht : (s.port n).linTx = []) (hp : (s.port n).oosPend = false) (hn : (s.port n).linPos = none)
    (hi : (linSlots s n).head? = some i) :
    linSchedule n mis s = match mis with
      | some k =>
        if k < breakLen n s then linError n 0 4 (emit (.linBreak n (k + 1))
          ((s.setPort n (headerPort n i s)).setPort n { (s.setPort n (headerPort n i s)).port n with linTx := [] }))
        else emit (.linBreak n (breakLen n s)) (s.setPort n (headerPort n i s))
      | none => emit (.linBreak n (breakLen n s)) (s.setPort n (headerPort n i s)) := by
  have h0' : bit (s.reg (apOff n 0x2C)) 0 = true := h0
  have h1' : bit (s.reg (apOff n 0x2C)) 1 = true := h1
  unfold linSchedule headerPort
  dsimp only
  rw [hu, if_neg (by simp [hw, hen, ho, hm, h0', h1', ht, hp]), hn]
  dsimp only
  rw [hi]
  cases mis <;> rfl

/-- Settles O37. -/
theorem linTraffic : Obligations.LinTraffic := by
  intro s port hw p
  have hhead : exec (.linHeader port) s = .next (settle s (linRespond port s)) :=
    calc exec (.linHeader port) s = done s (core (linRespond port) s) := rfl
      _ = _ := done_core _ hw
  refine ⟨fun u hu hf hph hp ho hs => ?_, fun i hen ho hm h0 h1 hu ht hp hn hi => ?_⟩
  · exact fun he => ⟨fun d hd => exec_to hhead (linRespond_answers hw hu hf hph hp ho hs he hd),
      fun hd => exec_to hhead (linRespond_noData hw hu hf hph hp ho hs he hd)⟩
  · intro id b len q
    have hslot : ∀ m : Option (Fin 26), exec (.linScheduleSlot ⟨port, m⟩) s =
        .next (settle s (linSchedule port (m.map (·.val)) s)) := fun m =>
      calc exec (.linScheduleSlot ⟨port, m⟩) s = done s (core (linSchedule port (m.map (·.val))) s) := rfl
        _ = _ := done_core _ hw
    have hsends := fun m => linSchedule_sends m hw hen ho hm h0 h1 hu ht hp hn hi
    refine ⟨exec_to (hslot none) (hsends none), fun k hk => exec_to (hslot (some k)) ?_⟩
    exact (hsends (some k.val)).trans (if_pos hk)

/-! ## Packet talkers -/

theorem packetEnd_absent {t : Nat} {s : State} (pay : Option (List Byte)) (h : mapFind s.early t = none) : packetEnd t pay s = s := by
  unfold packetEnd
  rw [h]

theorem packetRecord_recorded {t fmt ctr : Nat} {cap : Cap} {h5 : Word} {pay : List Byte} {s s1 : State}
    (h : addRecord [mkH0 fmt cap.prio false false false pay.length, mkH1 t (s.seqOf t), w32 cap.dt, w32 (cap.dt / 0x100000000), cap.h4, h5]
      pay { hits := cap.hits } s = (s1, .recorded)) :
    packetRecord t cap fmt h5 pay ctr s = count ctr 1 (s1.setSeq t (s.seqOf t + 1)) := by
  unfold packetRecord
  dsimp only
  rw [h]

/-! ## CAN: reception -/

section
variable {cn : Nat} {s : State}

theorem recAfter_zero (h : (s.can cn).rcv = 0) : recAfter cn s = s := by
  unfold recAfter
  rw [if_pos h]
theorem recAfter_low (h0 : 0 < (s.can cn).rcv) (h : (s.can cn).rcv ≤ 127) :
    recAfter cn s = canCounts cn (s.can cn).tec ((s.can cn).rcv - 1) s := by
  unfold recAfter
  dsimp only
  rw [if_neg (by omega), if_pos h]

variable {kind : Nat} {ide : Bool} {id dlc : Nat} {sec : Bool} {vcid sdt : Byte} {af : Word} {data : List Byte} {age : Nat}

theorem canReceive_own (hon : canOn s cn = true) (hs : (s.can cn).oos = false) :
    canReceive cn kind ide id dlc sec vcid sdt af data true age s = s := by
  unfold canReceive
  dsimp only
  rw [if_neg (by simp [hon]), if_neg (by simp [hs]), if_pos rfl]

theorem canReceive_disabled (hon : canOn s cn = true) (hs : (s.can cn).oos = false) (he : canEnabled s cn kind = false)
    (hx : mapFind s.early (0x30 + cn) = none) : canReceive cn kind ide id dlc sec vcid sdt af data false age s = protoExc cn s := by
  unfold canReceive
  dsimp only
  rw [if_neg (by simp [hon]), if_neg (by simp [hs]), if_neg (by simp), if_pos he, if_neg (by simp [hx])]

theorem canReceive_filtered (hon : canOn s cn = true) (hs : (s.can cn).oos = false) (he : canEnabled s cn kind = true)
    (ha : canAccept (recAfter cn s) cn kind ide id age = false) (hx : mapFind (recAfter cn s).early (0x30 + cn) = none) :
    canReceive cn kind ide id dlc sec vcid sdt af data false age s = count (ctCn cn 1) 1 (recAfter cn s) := by
  unfold canReceive
  dsimp only
  rw [if_neg (by simp [hon]), if_neg (by simp [hs]), if_neg (by simp), if_neg (by simp [he]), if_pos ha, packetEnd_absent _ hx]

theorem canReceive_accepted (hon : canOn s cn = true) (hs : (s.can cn).oos = false) (he : canEnabled s cn kind = true)
    (ha : canAccept (recAfter cn s) cn kind ide id age = true) (hx : mapFind (recAfter cn s).early (0x30 + cn) = none)
    (hl : kind = 3 → data.length ≤ 2044) :
    canReceive cn kind ide id dlc sec vcid sdt af data false age s = packetRecord (0x30 + cn)
      (captureFine (recAfter cn s) (0x30 + cn) age (96 + cn)) (canFmt kind) (canType kind ide id sec vcid sdt) (canPay kind dlc af data)
      (ctCn cn 0) (recAfter cn s) := by
  unfold canReceive
  dsimp only
  rw [if_neg (by simp [hon]), if_neg (by simp [hs]), if_neg (by simp), if_neg (by simp [he]), if_neg (by simp [ha]),
    if_neg (fun h => by have := hl h.1; omega)]
  unfold canRecord
  rw [if_neg (by simp [hx])]
end

theorem canOn_awake {s : State} {cn : Nat} (h : canOn s cn = true) : s.awake = true := by
  unfold canOn at h
  simp only [Bool.and_eq_true] at h
  exact h.1.1

/-- Settles O38. -/
theorem canReceives : Obligations.CanReceives := by
  intro s cn kind ide id dlc sec vcid sdt af data age hon hs x t u pay cap q
  have hx : ∀ own, x own = .next (settle s (canReceive cn kind ide id.toNat dlc.toNat sec vcid sdt af data own age s)) := fun own =>
    calc x own = done s (core (canReceive cn kind ide id.toNat dlc.toNat sec vcid sdt af data own age) s) := rfl
      _ = _ := done_core _ (canOn_awake hon)
  refine ⟨?_, fun he hn => ?_, fun he ha hn => ?_, fun s1 he ha hn hl hrec => ?_, recAfter_zero, recAfter_low⟩
  · rw [hx, canReceive_own hon hs]
  · rw [hx, canReceive_disabled hon hs he hn]
    rfl
  · rw [hx, canReceive_filtered hon hs he ha hn]
  · rw [hx, canReceive_accepted hon hs he ha hn hl, packetRecord_recorded hrec]

/-! ## CAN: counters and states -/

section
variable {n tec rcv : Nat} {s : State}

/-- The counters below 96 leave no warning and an active controller. -/
theorem canCounts_low (ht : tec < 96) (hr : rcv < 96) : canCounts n tec rcv s =
    whenDo (decide ((s.can n).st ≠ 0)) (raise (cnOff n 0x1C) 8) (s.setCan n { s.can n with tec := tec, rcv := rcv, st := 0 }) := by
  unfold canCounts
  dsimp only
  have hst : (if 255 < tec then 2 else if 128 ≤ tec ∨ 128 ≤ rcv then 1 else 0) = 0 := by
    rw [if_neg (by omega), if_neg (by omega)]
  rw [hst, decide_eq_false (p := (s.can n).tec < 96 ∧ 96 ≤ tec ∨ (s.can n).rcv < 96 ∧ 96 ≤ rcv) (by omega), whenDo_false,
    decide_eq_false (p := (s.can n).st ≠ 1 ∧ 0 = 1) (by omega), whenDo_false, if_neg (by omega), Nat.min_eq_right (by omega : tec ≤ 255),
    Nat.min_eq_right (by omega : rcv ≤ 255)]
  simp only [and_true]

theorem canCounts_passive (h1 : 128 ≤ tec) (h2 : tec ≤ 255) (hr : rcv < 96) (h3 : 96 ≤ (s.can n).tec) (hst : (s.can n).st = 0) :
    canCounts n tec rcv s = raise (cnOff n 0x1C) 2 (count (ctCn n 15) 1 (s.setCan n { s.can n with tec := tec, rcv := rcv, st := 1 })) := by
  unfold canCounts
  dsimp only
  have hnew : (if 255 < tec then 2 else if 128 ≤ tec ∨ 128 ≤ rcv then 1 else 0) = 1 := by
    rw [if_neg (by omega), if_pos (.inl h1)]
  rw [hnew, hst, decide_eq_false (p := (s.can n).tec < 96 ∧ 96 ≤ tec ∨ (s.can n).rcv < 96 ∧ 96 ≤ rcv) (by omega), whenDo_false,
    decide_eq_false (p := (0 : Nat) ≠ 0 ∧ 1 = 0) (by omega), whenDo_false, decide_eq_true (p := (0 : Nat) ≠ 1 ∧ 1 = 1) (by omega),
    whenDo_true, if_neg (by omega), Nat.min_eq_right (by omega : tec ≤ 255), Nat.min_eq_right (by omega : rcv ≤ 255)]

theorem canCounts_busOff (h1 : 255 < tec) (hr : rcv < 96) (h3 : 96 ≤ (s.can n).tec) (hst : (s.can n).st = 1) (hb : s.rb (cnOff n 0) 5 = false) :
    canCounts n tec rcv s = canAbandon n (raise (cnOff n 0x1C) 4 (count (ctCn n 14) 1
      ((s.setCan n { s.can n with tec := 255, rcv := rcv, st := 2 }).setCan n
        { s.can n with tec := 255, rcv := rcv, st := 2, recovering := false }))) := by
  unfold canCounts
  dsimp only
  rw [if_pos h1, hst, decide_eq_false (p := (s.can n).tec < 96 ∧ 96 ≤ tec ∨ (s.can n).rcv < 96 ∧ 96 ≤ rcv) (by omega), whenDo_false,
    decide_eq_false (p := (1 : Nat) ≠ 0 ∧ 2 = 0) (by omega), whenDo_false, decide_eq_false (p := (1 : Nat) ≠ 1 ∧ 2 = 1) (by omega),
    whenDo_false, if_pos (by omega), Nat.min_eq_left (by omega : 255 ≤ tec), Nat.min_eq_right (by omega : rcv ≤ 255)]
  rw [show (s.setCan n { s.can n with tec := 255, rcv := rcv, st := 2 }).rb (cnOff n 0) 5 = false from hb]
  simp only [State.can_setCan, if_true]
end

/-! ## CAN: transmission -/

section
variable {n : Nat} {s : State} {c : Cur}

theorem canSent_frame (hon : canOn s n = true) (hc : (s.eg (48 + n)).cur = some c) (hf : c.frame.isSome = true) :
    let v := delivered c.lq c.ref (canRelease (48 + n) c.bob (setCur (48 + n) none (count (ctCn n 3) 1 s)))
    canSent n s = serviceBoundary (48 + n) (canCounts n ((v.can n).tec - 1) (v.can n).rcv v) := by
  unfold canSent
  dsimp only
  rw [hc]
  dsimp only
  rw [if_neg (by simp [hon]), if_pos hf]

theorem canArb_eq (hon : canOn s n = true) (hc : (s.eg (48 + n)).cur = some c) :
    canArb n s = if s.rb (cnOff n 0x14) 8 then canAbandon n (count (ctCn n 4) 1 s) else canRetry n (count (ctCn n 4) 1 s) := by
  unfold canArb
  dsimp only
  rw [hc]
  dsimp only
  rw [if_neg (by simp [hon])]

/-- An error or overload is counted, and an error noted as the last. -/
def errNoted (n kind : Nat) (s : State) : State :=
  if kind = 0 then count (ctCn n 13) 1 s
  else (count (ctCn n (7 + kind)) 1 s).setCan n { s.can n with lastErr := kind }

@[simp] theorem errNoted_early (n kind : Nat) (s : State) : (errNoted n kind s).early = s.early := by
  unfold errNoted
  split <;> simp
@[simp] theorem errNoted_egs (n kind : Nat) (s : State) : (errNoted n kind s).eg = s.eg := by
  funext k
  unfold errNoted State.eg
  split <;> simp

/-- The controller received while the error came. -/
theorem canErr_rx {kind : Nat} (flag except : Bool) (hon : canOn s n = true) (h : kind = 0 ∨ mapFind s.early (0x30 + n) = none) :
    canErr n kind false flag except s =
      let s0 := errNoted n kind s
      canCounts n (errSteps (s0.can n) kind false flag except).1 (errSteps (s0.can n) kind false flag except).2 s0 := by
  have hend : (if kind ≠ 0 ∧ false = false then packetEnd (0x30 + n) none (errNoted n kind s) else errNoted n kind s) = errNoted n kind s := by
    rcases h with h | h
    · rw [if_neg (by simp [h])]
    · rw [packetEnd_absent _ (by simpa using h), ite_self]
  unfold canErr
  dsimp only
  rw [if_neg (by simp [hon])]
  unfold errNoted at hend
  rw [hend]
  simp only [Bool.false_and]
  split <;> rfl

/-- The controller sent as the error came: its frame, sent again or abandoned. -/
theorem canErr_tx {kind : Nat} (flag except : Bool) (hon : canOn s n = true) (hk : kind ≠ 0) (hcur : (s.eg (48 + n)).cur.isSome = true) :
    let s0 := errNoted n kind s
    let k := errSteps (s0.can n) kind true flag except
    let v := canCounts n k.1 k.2 (count (ctCn n 5) 1 s0)
    ∀ c, (v.eg (48 + n)).cur = some c → v.rb (cnOff n 0x14) 8 = false → (v.rf (cnOff n 0x14) 0 8 = 0 ∨ c.tries < v.rf (cnOff n 0x14) 0 8) →
      canErr n kind true flag except s = canRetry n (setCur (48 + n) (some { c with tries := c.tries + 1 }) v) := by
  intro s0 k v c hc h8 hr
  have hs0 : errNoted n kind s = s0 := rfl
  have hhit : (s0.eg (48 + n)).cur.isSome = true := by simp only [s0, errNoted_egs]; exact hcur
  have hcan : (count (ctCn n 5) 1 s0).can n = s0.can n := rfl
  have hv : canCounts n k.1 k.2 (count (ctCn n 5) 1 s0) = v := rfl
  unfold canErr
  dsimp only
  rw [if_neg (by simp [hon])]
  unfold errNoted at hs0
  rw [hs0, if_neg (c := kind ≠ 0 ∧ true = false) (by simp), decide_eq_true hk, hhit]
  simp only [Bool.and_self, if_true, hcan]
  clear_value v
  rw [hv, hc]
  dsimp only
  have hrb : (setCur (48 + n) (some { c with tries := c.tries + 1 }) v).rb (cnOff n 0x14) 8 = false := h8
  have hrf : (setCur (48 + n) (some { c with tries := c.tries + 1 }) v).rf (cnOff n 0x14) 0 8 = v.rf (cnOff n 0x14) 0 8 := rfl
  rw [if_neg (by simp), hrb, hrf, if_neg (by rintro (h | ⟨h1, h2⟩) <;> [exact absurd h (by simp); omega])]

theorem canRecovered_goes (hw : s.awake = true) (he : s.rb (cnOff n 0) 0 = true) (hst : (s.can n).st = 2) (hr : (s.can n).recovering = true) :
    canRecovered n s = raise (cnOff n 0x1C) 8 (s.setCan n { s.can n with st := 0, tec := 0, rcv := 0, recovering := false }) := by
  unfold canRecovered
  dsimp only
  rw [if_pos (by simp [hw, he, hst, hr])]

theorem wrCnCtrl_recover {v : Word} (hst : (s.can n).st = 2) (hv : bit v 6 = true) : wrCnCtrl n v s =
    (s.setReg (cnOff n 0) (v &&& 0x3BF#32)).setCan n { s.can n with recovering := true } := by
  unfold wrCnCtrl
  exact if_pos ⟨hst, .inl hv⟩
end

/-! ## A write of CN_CTRL -/

theorem writeReg_cnCtrl {n : Nat} (v : Word) (s : State) (hn : n < 16) : writeReg (cnOff n 0) v s = wrCnCtrl n v s := by
  have hd : dated (cnOff n 0) = false := decide_eq_false (by unfold cnOff; omega)
  have hnum : (cnOff n 0 - 0x6000) / 0x100 = n := by unfold cnOff; omega
  have hreg : cnOff n 0 % 0x100 = 0 := by unfold cnOff; omega
  have hmedia : wrMedia (cnOff n 0) v s = wrCnCtrl n v s := by
    unfold wrMedia
    dsimp only
    rw [if_neg (by unfold cnOff; omega), if_pos (by unfold cnOff; omega), hnum, hreg]
    rfl
  have hpage : cnOff n 0 / 0x1000 = 6 := by unfold cnOff; omega
  unfold writeReg
  dsimp only
  rw [hd, whenDo_false, hpage]
  exact hmedia

/-- RECOVER is set in what is written. -/
theorem bit_setBit6 (w : Word) : bit (w ||| 0x40#32) 6 = true := by
  unfold bit
  rw [BitVec.getLsbD_or, show (0x40#32).getLsbD 6 = true from by decide, Bool.or_true]

theorem can_agentPre (a : Nat) (s : State) (n : Nat) : (agentPre a s).can n = s.can n := by
  unfold agentPre; split <;> rfl

/-- Settles O39: canSent, canArb, canErr and canCounts case by case, and the write of CN_CTRL that asks for recovery. -/
theorem canTransmits : Obligations.CanTransmits := by
  intro s cn cur cfg
  refine ⟨fun c hon hc hf => ?sent, fun c hon hc h8 => ?abandoned, fun c hon hc h8 => ?retried, fun x => ?steps,
    fun kind flag except hon => ?errs, fun tec rec h1 h2 hst => ?active, fun tec rec h1 h2 hst => ?back,
    fun tec rec h1 h2 hr h3 hst => canCounts_passive h1 h2 hr h3 hst, fun tec rec h1 hr h3 hst hb => canCounts_busOff h1 hr h3 hst hb,
    fun a hmay hst => ?recover, fun hw he hst hr => ?recovered⟩
  case sent =>
    intro v
    have hexec : exec (.canFrameSent cn) s = .next (settle s (flow (canSent cn s))) :=
      calc exec (.canFrameSent cn) s = done s (core (fun s => flow (canSent cn s)) s) := rfl
        _ = _ := done_core _ (canOn_awake hon)
    exact exec_to hexec (congrArg flow (canSent_frame hon hc hf))
  case abandoned =>
    have hexec : exec (.arbitrationLost cn) s = .next (settle s (canArb cn s)) := done_core _ (canOn_awake hon)
    exact exec_to hexec ((canArb_eq hon hc).trans (if_pos h8))
  case retried =>
    have hexec : exec (.arbitrationLost cn) s = .next (settle s (canArb cn s)) := done_core _ (canOn_awake hon)
    exact exec_to hexec ((canArb_eq hon hc).trans (if_neg (by rw [h8]; simp)))
  case steps =>
    refine ⟨fun kind hk => ?_, ?_⟩ <;> simp [errSteps, *]
  case errs =>
    intro s0 k r v
    have hexec : ∀ tx, exec (.canError cn kind tx flag except) s = .next (settle s (flow (canErr cn kind tx flag except s))) := fun tx =>
      calc exec (.canError cn kind tx flag except) s = done s (core (fun s => flow (canErr cn kind tx flag except s)) s) := rfl
        _ = _ := done_core _ (canOn_awake hon)
    exact ⟨fun h => exec_to (hexec false) (congrArg flow (canErr_rx flag except hon h)),
      fun c hk hcur hc h8 hr => exec_to (hexec true) (congrArg flow (canErr_tx flag except hon hk hcur c hc h8 hr))⟩
  case active => rw [canCounts_low h1 h2, decide_eq_false (by simp [hst]), whenDo_false]
  case back => rw [canCounts_low h1 h2, decide_eq_true (by simp [hst]), whenDo_true]
  case recover =>
    have hexec : exec (.recover a cn) s = .next (settle s (agentDone a (cnOff cn 0) s
        (writeReg (cnOff cn 0) (s.reg (cnOff cn 0) ||| 0x40#32) (agentPre a s)))) :=
      calc exec (.recover a cn) s
          = done s (core (fun s => agentWrite a (cnOff cn 0) (s.reg (cnOff cn 0) ||| 0x40#32) s) s) := rfl
        _ = _ := by rw [done_core _ (agentMayWrite_awake hmay), agentWrite_served hmay]
    have hwrite := wrCnCtrl_recover (v := s.reg (cnOff cn 0) ||| 0x40#32) ((congrArg Can.st (can_agentPre a s cn)).trans hst) (bit_setBit6 _)
    rw [can_agentPre] at hwrite
    exact exec_to hexec (congrArg _ ((writeReg_cnCtrl _ _ cn.isLt).trans hwrite))
  case recovered =>
    have hexec : exec (.busRecovered cn) s = .next (settle s (canRecovered cn s)) := done_core _ hw
    exact exec_to hexec (canRecovered_goes hw he hst hr)

end Sys2Proof.Machine
end

section
/-!
SUPPORT. 10BASE-T1S ports and Ethernet uplinks (O40, O41, O42, O44): what a frame that is received, sent or cut does, one lemma
per way that it can end.
-/
namespace Sys2Proof.Machine

/-! ## 10BASE-T1S: reception -/

theorem tsOn_awake {s : State} {n : Nat} (h : tsOn s n = true) : s.awake = true := by
  unfold tsOn at h
  simp only [Bool.and_eq_true] at h
  exact h.1

/-- A port after the symbol errors of a frame are counted (R302). -/
def symbolsSeen (n symbols : Nat) (s : State) : State :=
  whenDo (decide (symbols ≠ 0)) (fun s => raise (tsOff n 0x18) 0x10 (count (ctTs n 10) symbols s)) s

@[simp] theorem symbolsSeen_early (n k : Nat) (s : State) : (symbolsSeen n k s).early = s.early := by
  unfold symbolsSeen whenDo
  split <;> simp
theorem symbolsSeen_ts (n k : Nat) (s : State) : (symbolsSeen n k s).ts n = s.ts n := by
  unfold symbolsSeen whenDo State.ts
  split <;> simp

section
variable {n symbols age : Nat} {s : State} {bytes : List Byte}

/-- A frame of another node in service, by what the port finds in it. -/
theorem tsReceive_inService (ok : Bool) (hon : tsOn s n = true) (hs : (s.ts n).oos = false) (hx : mapFind s.early (0x40 + n) = none) :
    let u := symbolsSeen n symbols s
    let b := bytes.take (bytes.length - 4)
    tsReceive n bytes ok false symbols age s =
      if bytes.length < 64 then count (ctTs n 2) 1 u
      else if 1522 < bytes.length then count (ctTs n 3) 1 u
      else if ok = false then raise (tsOff n 0x18) 0x10 (count (ctTs n 1) 1 u)
      else if macAccept (tsMac u n) b (u.rb (tsOff n 0) 2) = false then count (ctTs n 4) 1 u
      else packetRecord (0x40 + n) (tsCapture n age u) 0x20 (etherH5 b) b (ctTs n 0) u := by
  intro u b
  have hseen : symbolsSeen n symbols s = u := rfl
  have hux : mapFind u.early (0x40 + n) = none := by rw [← hseen, symbolsSeen_early, hx]
  have hus : (u.ts n).oos = false := by rw [← hseen, symbolsSeen_ts, hs]
  unfold tsReceive
  dsimp only
  unfold symbolsSeen at hseen
  rw [hseen, if_neg (by simp [hon]), if_neg (by simp [hus]), if_neg (by simp)]
  clear_value u
  unfold tsRecord
  dsimp only
  rw [packetEnd_absent _ (by simpa using hux), packetEnd_absent _ (by simpa using hux), packetEnd_absent _ (by simpa using hux),
    packetEnd_absent _ (by simpa using hux), if_neg (c := (mapFind u.early (0x40 + n)).isSome = true) (by simp [hux])]

theorem tsReceive_own (ok : Bool) (hon : tsOn s n = true) (hs : (s.ts n).oos = false) :
    tsReceive n bytes ok true symbols age s = symbolsSeen n symbols s := by
  have hseen := symbolsSeen_ts n symbols s
  unfold tsReceive
  dsimp only
  unfold symbolsSeen at hseen ⊢
  rw [if_neg (by simp [hon]), hseen, if_neg (by simp [hs]), if_pos rfl]

/-! ## 10BASE-T1S: transmission -/

variable {c : Cur}

theorem tsSent_frame (hon : tsOn s n = true) (hc : (s.eg (64 + n)).cur = some c) (hb : c.backoff = false) (hf : c.frame.isSome = true) :
    tsSent n false s = serviceBoundary (64 + n) (delivered c.lq c.ref (setCur (64 + n) none (count (ctTs n 5) 1 s))) := by
  unfold tsSent
  dsimp only
  rw [hc]
  dsimp only
  rw [if_neg (by simp [hon, hb]), if_neg (by simp), if_pos hf]

theorem tsSent_jabber (hon : tsOn s n = true) (hc : (s.eg (64 + n)).cur = some c) (hb : c.backoff = false) :
    tsSent n true s = serviceBoundary (64 + n) (dropRef c.ref.addr (setCur (64 + n) none
      (raise (tsOff n 0x18) 0x20 (count (ctTs n 11) 1 s)))) := by
  unfold tsSent
  dsimp only
  rw [hc]
  dsimp only
  rw [if_neg (by simp [hon, hb]), if_pos rfl]

theorem tsCollide_eq (hon : tsOn s n = true) (hc : (s.eg (64 + n)).cur = some c) (hb : c.backoff = false) (hp : plcaActive s n = false) :
    let u := raise (tsOff n 0x18) 4 (count (ctTs n 7) 1 s)
    tsCollide n s = if 16 ≤ c.tries + 1 then
        serviceBoundary (64 + n) (dropRef c.ref.addr (setCur (64 + n) none (raise (tsOff n 0x18) 8 (count (ctTs n 8) 1 u))))
      else setCur (64 + n) (some { c with tries := c.tries + 1, backoff := true }) u := by
  unfold tsCollide
  dsimp only
  rw [hc]
  dsimp only
  rw [if_neg (by simp [hon, hb, hp])]

theorem tsBackoffEnd_sends {f : Output} (hon : tsOn s n = true) (hc : (s.eg (64 + n)).cur = some c) (hb : c.backoff = true)
    (hf : c.frame = some f) : tsBackoffEnd n s = emit f (setCur (64 + n) (some { c with backoff := false }) s) := by
  unfold tsBackoffEnd
  dsimp only
  rw [hc]
  dsimp only
  rw [if_pos (by simp [hon, hb]), hf]

theorem tsPlcaLost_falls (hon : tsOn s n = true) (hp : plcaOn s n = true) (hid : s.rf (tsOff n 0x0C) 0 8 ≠ 0) (hl : (s.ts n).lost = false) :
    tsPlcaLost n s = raise (tsOff n 0x18) 1 (count (ctTs n 9) 1 (s.setTs n { s.ts n with lost := true, beacon := false })) := by
  unfold tsPlcaLost
  rw [if_pos (by simp [hon, hp, hid, hl])]
theorem tsPlcaBack_returns (hon : tsOn s n = true) (hp : plcaOn s n = true) (hid : s.rf (tsOff n 0x0C) 0 8 ≠ 0)
    (hl : (s.ts n).beacon = false) :
    tsPlcaBack n s = raise (tsOff n 0x18) 2 (s.setTs n { s.ts n with lost := false, beacon := true }) := by
  unfold tsPlcaBack
  rw [if_pos (by simp [hon, hp, hid, hl])]
end

/-- Settles O40: tsReceive by what the frame is, then what ends a transmission. -/
theorem t1sRuns : Obligations.T1sRuns := by
  intro s ts bytes symbols age hon hs ep x t b u takes cap q
  have hw := tsOn_awake hon
  have hrx : ∀ ok own, x ok own = .next (settle s (tsReceive ts bytes ok own symbols age s)) := fun ok own =>
    calc x ok own = done s (core (tsReceive ts bytes ok own symbols age) s) := rfl
      _ = _ := done_core _ hw
  have hu : symbolsSeen ts symbols s = u := rfl
  have hsent : ∀ j, exec (.t1sFrameSent ⟨ts, j⟩) s = .next (settle s (flow (tsSent ts j s))) := fun j =>
    calc exec (.t1sFrameSent ⟨ts, j⟩) s = done s (core (fun s => flow (tsSent ts j s)) s) := rfl
      _ = _ := done_core _ hw
  have hcoll : exec (.t1sCollision ts) s = .next (settle s (flow (tsCollide ts s))) :=
    calc exec (.t1sCollision ts) s = done s (core (fun s => flow (tsCollide ts s)) s) := rfl
      _ = _ := done_core _ hw
  refine ⟨?own, fun hx => ?received, fun c hc hb hf => exec_to (hsent false) (congrArg flow (tsSent_frame hon hc hb hf)),
    fun c hc hb => exec_to (hsent true) (congrArg flow (tsSent_jabber hon hc hb)), fun c hc hb hp => ?collides,
    fun c f hc hb hf => ?backoff, fun hp hid hl => ?lost, fun hp hid hl => ?back⟩
  case own => exact (hrx true true).trans (congrArg (fun v => Host.Outcome.next (settle s v)) (tsReceive_own true hon hs))
  case received =>
    have hin := fun ok => (hrx ok false).trans (congrArg (fun v => Host.Outcome.next (settle s v))
      (tsReceive_inService (bytes := bytes) (age := age) (symbols := symbols) ok hon hs hx))
    simp only [hu] at hin
    refine ⟨fun ok h => ?_, fun ok h => ?_, fun h1 h2 => ⟨?_, fun ht => ?_, fun s1 ht hrec => ?_⟩⟩
    · rw [hin, if_pos h]
    · rw [hin, if_neg (by omega), if_pos h]
    · rw [hin, if_neg (by omega), if_neg (by omega), if_pos rfl]
    · rw [hin, if_neg (by omega), if_neg (by omega), if_neg (by simp), if_pos ht]
    · rw [hin, if_neg (by omega), if_neg (by omega), if_neg (by simp), if_neg (fun h => Bool.false_ne_true (h.symm.trans ht)),
        packetRecord_recorded hrec]
  case collides =>
    exact ⟨fun h => exec_to hcoll (congrArg flow ((tsCollide_eq hon hc hb hp).trans (if_neg (by omega)))),
      fun h => exec_to hcoll (congrArg flow ((tsCollide_eq hon hc hb hp).trans (if_pos (by omega))))⟩
  case backoff =>
    have hexec : exec (.t1sBackoffEnd ts) s = .next (settle s (flow (tsBackoffEnd ts s))) :=
      calc exec (.t1sBackoffEnd ts) s = done s (core (fun s => flow (tsBackoffEnd ts s)) s) := rfl
        _ = _ := done_core _ hw
    exact exec_to hexec (congrArg flow (tsBackoffEnd_sends hon hc hb hf))
  case lost =>
    have hexec : exec (.plcaLost ts) s = .next (settle s (tsPlcaLost ts s)) := done_core _ hw
    exact exec_to hexec (tsPlcaLost_falls hon hp hid hl)
  case back =>
    have hexec : exec (.plcaBack ts) s = .next (settle s (tsPlcaBack ts s)) := done_core _ hw
    exact exec_to hexec (tsPlcaBack_returns hon hp hid hl)


/-! ## Uplinks: reception -/

theorem euOn_awake {s : State} {n : Nat} (h : euOn s n = true) : s.awake = true := by
  unfold euOn at h
  simp only [Bool.and_eq_true] at h
  exact h.1.1

/-- An uplink after the PCS errors of a frame are counted (R302). -/
def pcsSeen (n pcs : Nat) (s : State) : State :=
  whenDo (decide (pcs ≠ 0)) (fun s => raise (euOff n 0x18) 4 (count (ctEu n 13) pcs s)) s

/-- A frame that is no runt, no giant and has its FCS: whether the MAC takes it. -/
def euTakes (n : Nat) (b : List Byte) (v : State) : Bool :=
  macAccept (macBytes (v.reg (euOff n 8)) (v.reg (euOff n 0x0C))) b (v.rb (euOff n 0) 5)

/-- Whether a frame is a PAUSE frame to the uplink. -/
def euIsPause (n : Nat) (b : List Byte) (v : State) : Bool := isPause (macBytes (v.reg (euOff n 8)) (v.reg (euOff n 0x0C))) b

/-- The counts of a frame that the MAC takes. -/
def euCounted (n : Nat) (b : List Byte) (v : State) : State := count (ctEu n 1) (b.length + 4) (count (ctEu n 0) 1 v)

theorem pcsSeen_up (n k : Nat) (s : State) (u : Nat) : (pcsSeen n k s).up u = s.up u := by
  unfold pcsSeen whenDo State.up
  split <;> simp
theorem pcsSeen_now (n k : Nat) (s : State) : (pcsSeen n k s).now = s.now := by
  unfold pcsSeen whenDo State.now
  split <;> simp
/-- A PAUSE frame that is counted holds the transmitter from this instant on. -/
theorem euPause_counted (n : Nat) (b : List Byte) (v : State) : euPause n b (count (ctEu n 5) 1 (euCounted n b v)) =
    (count (ctEu n 5) 1 (euCounted n b v)).setUp n { v.up n with
      pauseAt := v.now, pauseEnd := v.now + beNat ((b.drop 16).take 2) * 512 * euBit v n } := by
  have hup : (count (ctEu n 5) 1 (euCounted n b v)).up n = v.up n := by simp [State.up, euCounted]
  have hnow : (count (ctEu n 5) 1 (euCounted n b v)).now = v.now := by simp [State.now, euCounted]
  have hbit : euBit (count (ctEu n 5) 1 (euCounted n b v)) n = euBit v n := by simp [euBit, State.rf, euCounted]
  unfold euPause
  rw [hup, hnow, hbit]

section
variable {n pcs age : Nat} {s : State} {b : List Byte}

theorem euReceive_badFcs (hon : euOn s n = true) (h1 : 60 ≤ b.length) (h2 : b.length ≤ 9018) :
    euReceive n b false pcs age s = euBad n (raise (euOff n 0x18) 4 (count (ctEu n 2) 1 (pcsSeen n pcs s))) := by
  unfold euReceive
  dsimp only
  rw [if_neg (by simp [hon]), if_neg (by omega), if_neg (by omega), if_pos rfl]
  rfl

theorem euReceive_refused (hon : euOn s n = true) (h1 : 60 ≤ b.length) (h2 : b.length ≤ 9018) (ht : euTakes n b (pcsSeen n pcs s) = false) :
    euReceive n b true pcs age s = euBad n (count (ctEu n 23) 1 (pcsSeen n pcs s)) := by
  unfold euReceive
  dsimp only
  rw [if_neg (by simp [hon]), if_neg (by omega), if_neg (by omega), if_neg (by simp)]
  exact if_pos ht

theorem euReceive_pause (hon : euOn s n = true) (h1 : 60 ≤ b.length) (h2 : b.length ≤ 9018) (ht : euTakes n b (pcsSeen n pcs s) = true)
    (hp : euIsPause n b (pcsSeen n pcs s) = true) (h4 : (pcsSeen n pcs s).rb (euOff n 0) 4 = true) :
    euReceive n b true pcs age s = euPause n b (count (ctEu n 5) 1 (euCounted n b (pcsSeen n pcs s))) := by
  have hv : pcsSeen n pcs s = whenDo (decide (pcs ≠ 0)) (fun s => raise (euOff n 0x18) 4 (count (ctEu n 13) pcs s)) s := rfl
  unfold euReceive
  dsimp only
  rw [← hv]
  generalize pcsSeen n pcs s = v at *
  unfold euTakes at ht
  unfold euIsPause at hp
  rw [if_neg (by simp [hon]), if_neg (by omega), if_neg (by omega), if_neg (by simp), if_neg (by rw [ht]; simp), hp, h4, if_pos (Bool.and_self true),
    whenDo_true]
  rfl

/-- A frame that goes to the streams. -/
theorem euReceive_streams (hon : euOn s n = true) (h1 : 60 ≤ b.length) (h2 : b.length ≤ 9018) (ht : euTakes n b (pcsSeen n pcs s) = true)
    (hp : euIsPause n b (pcsSeen n pcs s) = false) :
    let u := euCounted n b (pcsSeen n pcs s)
    euReceive n b true pcs age s = match streamOf u n b (List.range 8) with
      | none => euBad n (count (ctEu n 6) 1 u)
      | some none => euBad n (raise (euOff n 0x18) 0x20 (count (ctEu n 7) 1 u))
      | some (some k) =>
        match field (streamReg u k 0) 0 2 with
        | 1 =>
          if 2048 < b.length then euBad n (count (ctEu n 8) 1 u)
          else if (mapFind u.early (0x44 + k)).isSome then packetEnd (0x44 + k) (some b) u
          else
            match addRecord [mkH0 0x21 (streamCapture k age u).prio false false false b.length, mkH1 (0x44 + k) (u.seqOf (0x44 + k)),
                w32 (streamCapture k age u).dt, w32 ((streamCapture k age u).dt / 0x100000000), (streamCapture k age u).h4, etherH5 b] b
                { hits := (streamCapture k age u).hits } u with
            | (_, .full) => abandonFull (0x44 + k) 0 u
            | (s3, _) => s3.setSeq (0x44 + k) (u.seqOf (0x44 + k) + 1)
        | 2 => datagramSplit k (streamCapture k age u) age (udpPay b) u
        | _ => bundleSplit k (streamCapture k age u) (udpPay b) u := by
  intro u
  have hu : euCounted n b (pcsSeen n pcs s) = u := rfl
  have hv : pcsSeen n pcs s = whenDo (decide (pcs ≠ 0)) (fun s => raise (euOff n 0x18) 4 (count (ctEu n 13) pcs s)) s := rfl
  unfold euReceive
  dsimp only
  rw [← hv]
  generalize pcsSeen n pcs s = v at *
  unfold euTakes at ht
  unfold euIsPause at hp
  unfold euCounted at hu
  rw [if_neg (by simp [hon]), if_neg (by omega), if_neg (by omega), if_neg (by simp), if_neg (by rw [ht]; simp), hp, Bool.false_and,
    if_neg (by simp), whenDo_false, hu] <;> rfl
end

/-- Settles O41: euReceive by what the frame is. -/
theorem uplinkReceives : Obligations.UplinkReceives := by
  intro s eu b pcs age hon h1 h2 v mac takes u x
  have hrx : ∀ ok, x ok = .next (settle s (euReceive eu b ok pcs age s)) := fun ok =>
    calc x ok = done s (core (euReceive eu b ok pcs age) s) := rfl
      _ = _ := done_core _ (euOn_awake hon)
  have hto : ∀ {ok t}, euReceive eu b ok pcs age s = t → x ok = .next (settle s t) := fun {ok t} h => h ▸ hrx ok
  refine ⟨hto (euReceive_badFcs hon h1 h2), fun ht => hto (euReceive_refused hon h1 h2 ht), fun ht hp h4 => hto ?pause,
    fun ht hp hk => hto ?untaken, fun ht hp hk => hto ?faulty, fun n ht hp hk => ?taken⟩
  case pause =>
    rw [euReceive_pause hon h1 h2 ht hp h4, euPause_counted, pcsSeen_up, pcsSeen_now]
    rfl
  case untaken =>
    refine (euReceive_streams hon h1 h2 ht hp).trans ?_
    rw [show streamOf (euCounted eu b (pcsSeen eu pcs s)) eu b (List.range 8) = none from hk]
    rfl
  case faulty =>
    refine (euReceive_streams hon h1 h2 ht hp).trans ?_
    rw [show streamOf (euCounted eu b (pcsSeen eu pcs s)) eu b (List.range 8) = some none from hk]
    rfl
  case taken =>
    intro kind cap t q
    have hs := (euReceive_streams (age := age) hon h1 h2 ht hp)
    dsimp only at hs
    rw [show euCounted eu b (pcsSeen eu pcs s) = u from rfl, hk] at hs
    dsimp only at hs
    refine ⟨fun s1 h hl hx hrec => hto (hs.trans ?_), fun h => hto (hs.trans ?_), fun h => hto (hs.trans ?_)⟩
    · rw [show field (streamReg u n 0) 0 2 = 1 from h]
      refine (if_neg (by omega)).trans ((if_neg (by rw [show mapFind u.early (0x44 + n) = none from hx]; simp)).trans ?_)
      rw [show addRecord _ b _ u = _ from hrec]
    · rw [show field (streamReg u n 0) 0 2 = 2 from h]
      rfl
    · rw [show field (streamReg u n 0) 0 2 = 3 from h]
      rfl

end Sys2Proof.Machine
end

section
/-!
SUPPORT. The header spans of packet media (O42), and an uplink's link, frames and transmit stamps (O44).
-/
namespace Sys2Proof.Machine

/-! ## Header spans -/

/-- The early header of a packet talker's unit, recorded. -/
theorem packetEarly_recorded {t fmt keyLen ctr : Nat} {cap : Cap} {h5 : Word} {head : List Byte} {a : Option Nat} {s s1 : State}
    (h : earlyBegin [mkH0 fmt cap.prio false false false 0, mkH1 t (s.seqOf t), w32 cap.dt, w32 (cap.dt / 0x100000000), cap.h4, h5]
      head cap.hits keyLen false s = (s1, a, .recorded)) :
    packetEarly t cap fmt h5 head keyLen ctr s = count ctr 1 { s1 with early := mapIns s1.early t a } := by
  unfold packetEarly
  dsimp only
  rw [h]

section
variable {s s1 : State} {a : Option Nat} {age : Nat} {head : List Byte}

theorem canSpan_early {n kind id len : Nat} {ide sec : Bool} {vcid sdt : Byte} (hx : mapFind s.early (0x30 + n) = none)
    (hon : canOn s n = true) (hs : (s.can n).oos = false) (h7 : s.rb (cnOff n 0) 7 = true) (he : canEnabled s n kind = true)
    (ha : canAccept s n kind ide id age = true) (hl : kind = 3 → len ≤ 2044) :
    canSpan n kind ide id len sec vcid sdt age s = packetEarly (0x30 + n) (captureFine s (0x30 + n) age (96 + n)) (canFmt kind)
      (canType kind ide id sec vcid sdt) [] (if kind = 1 then 1 else if kind = 3 then len + 4 else len) (ctCn n 0) s := by
  unfold canSpan
  dsimp only
  rw [if_neg (by simp [hon, hs, h7, hx]), if_neg (by simp [he])]
  exact if_neg (fun h => h.elim (by simp [ha]) (fun h => by have := hl h.1; omega))

theorem tsSpan_early {n : Nat} (hx : mapFind s.early (0x40 + n) = none) (hon : tsOn s n = true) (hs : (s.ts n).oos = false)
    (h3 : s.rb (tsOff n 0) 3 = true) (hm : macAccept (tsMac s n) head (s.rb (tsOff n 0) 2) = true) :
    tsSpan n head age s = packetEarly (0x40 + n) (tsCapture n age s) 0x20 (etherH5 head) head 0 (ctTs n 0) s := by
  unfold tsSpan
  exact if_pos (by simp [hon, hs, h3, hm, hx])

theorem euSpan_early {n : Nat} (hx : mapFind s.early (0x44 + n) = none) (hon : euOn s (n / 8) = true) (h2 : bit (streamReg s n 0) 2 = true)
    (hr : rawMatch s n head = true)
    (hm : macAccept (macBytes (s.reg (euOff (n / 8) 8)) (s.reg (euOff (n / 8) 0x0C))) head (s.rb (euOff (n / 8) 0) 5) = true)
    (hst : streamOf s (n / 8) head (List.range 8) = some (some n))
    (hrec : earlyBegin [mkH0 0x21 (streamCapture n age s).prio false false false 0, mkH1 (0x44 + n) (s.seqOf (0x44 + n)),
      w32 (streamCapture n age s).dt, w32 ((streamCapture n age s).dt / 0x100000000), (streamCapture n age s).h4, etherH5 head]
      head (streamCapture n age s).hits 0 false s = (s1, a, .recorded)) :
    euSpan n head age s = { s1 with early := mapIns s1.early (0x44 + n) a } := by
  unfold euSpan
  dsimp only
  rw [if_pos (by simp [hon, hx, h2, hr, hm, hst]), hrec]
end

/-- Settles O42: the span of each kind of talker, by its early header. -/
theorem headerSpanEnds : Obligations.HeaderSpanEnds := by
  intro s s1 a t kind ide id len sec vcid sdt head age hx x hd kept
  have hto : ∀ {v}, s.awake = true → headerSpan t kind ide id.toNat len sec vcid sdt head age s = v → x = .next (settle s v) := fun {v} hw h =>
    calc x = done s (core (headerSpan t kind ide id.toNat len sec vcid sdt head age) s) := rfl
      _ = _ := by rw [done_core _ hw, h]
  refine ⟨fun n ht hon hs h7 he ha hl => ?can, fun n ht hon hs h3 hm => ?ts, fun n ht hon h2 hr hm hst => ?eu⟩
  case can =>
    intro cap hrec
    refine hto (canOn_awake hon) ?_
    have hn := n.isLt
    unfold headerSpan
    rw [if_pos (by omega), ht, Nat.add_sub_cancel_left, canSpan_early (by rw [← ht]; exact hx) hon hs h7 he ha hl, ← ht,
      packetEarly_recorded hrec]
  case ts =>
    intro cap hrec
    refine hto (tsOn_awake hon) ?_
    have hn := n.isLt
    unfold headerSpan
    rw [if_neg (by omega), if_pos (by omega), ht, Nat.add_sub_cancel_left, tsSpan_early (by rw [← ht]; exact hx) hon hs h3 hm, ← ht,
      packetEarly_recorded hrec]
  case eu =>
    intro cap hrec
    refine hto (euOn_awake hon) ?_
    have hn := n.isLt
    unfold headerSpan
    rw [if_neg (by omega), if_neg (by omega), if_pos (by omega), ht, Nat.add_sub_cancel_left,
      euSpan_early (by rw [← ht]; exact hx) hon h2 hr hm hst (by rw [← ht]; exact hrec)]
    simp only [kept, ht]

/-! ## Uplinks: link, speed, frames and stamps -/

section
variable {n : Nat} {s : State}

theorem euUp_rises (an remote : Bool) (hw : s.awake = true) (h0 : bit (s.reg (euOff n 0)) 0 = true) (hl : (s.up n).link = false) :
    euUp n an remote s = raise (euOff n 0x18) 1 (s.setUp n { s.up n with
      link := true, anDone := an && bit (s.reg (euOff n 0)) 3 && decide (field (s.reg (euOff n 0)) 1 2 = 3), remote := remote }) := by
  unfold euUp
  exact if_pos (by simp [hw, h0, hl])

theorem writeReg_euCtrl (v : Word) (s : State) (hn : n < 2) : writeReg (euOff n 0) v s = wrEuCtrl n v s := by
  have hd : dated (euOff n 0) = false := decide_eq_false (by unfold euOff; omega)
  have hnum : (euOff n 0 - 0x7800) / 0x400 = n := by unfold euOff; omega
  have hmedia : wrMedia (euOff n 0) v s = wrEuCtrl n v s := by
    unfold wrMedia
    dsimp only
    rw [if_neg (by unfold euOff; omega), if_neg (by unfold euOff; omega), if_pos (by unfold euOff; omega), hnum]
  have hpage : euOff n 0 / 0x1000 = 7 := by unfold euOff; omega
  unfold writeReg
  dsimp only
  rw [hd, whenDo_false, hpage]
  exact hmedia

theorem wrEuCtrl_eq (v : Word) : wrEuCtrl n v s = if field v 1 2 = field (s.reg (euOff n 0)) 1 2 then s.setReg (euOff n 0) (v &&& 0x3FFF3F#32)
    else euDown n (s.setReg (euOff n 0) (v &&& 0x3FFF3F#32)) := by
  unfold wrEuCtrl
  exact ite_not ..

variable {f : UpFrame} {rest : List UpFrame} {age : Nat}

theorem euSent_paused (hc : (s.up n).closed = f :: rest) (hp : euPaused s n (s.now - age) = true) : euSent n age s = s := by
  unfold euSent
  dsimp only
  rw [hc]
  dsimp only
  rw [if_pos (.inr (.inl hp))]

theorem euSent_first {e : UpSent} {more : List UpSent} (hon : euOn s n = true) (hc : (s.up n).closed = f :: rest) (hcut : f.cut = false)
    (hp : euPaused s n (s.now - age) = false) (hf : f.sents = e :: more) :
    let cfg := wordAt f.cfg 0
    let kind := field cfg 0 2
    let v := emit (.ether (4 + n) f.bytes) (s.setUp n { s.up n with
      closed := rest,
      bseq := if kind = 3 then mapSet (dflt 0) (s.up n).bseq f.stream ((mapGet (dflt 0) (s.up n).bseq f.stream + 1) % 0x100000000)
        else (s.up n).bseq })
    euSent n age s = forAll f.sents (fun e => delivered e.lq e.ref)
      (whenDo (decide (kind = 2)) (count (ctEu n 16) 1) (whenDo (decide (kind = 3)) (count (ctEu n 17) 1)
        (count (ctEu n 15) f.bytes.length (count (ctEu n 14) 1 (closeDue n (txStamp n cfg e.ref age v)))))) := by
  intro cfg kind v
  unfold euSent
  dsimp only
  rw [hc]
  dsimp only
  rw [if_neg (by simp [hon, hp, hcut]), hf]
  simp only [hcut, Bool.false_eq_true, if_false, if_true, List.head?_cons]
  rfl
end

theorem regInfo_txts (eu : Fin 2) : (regInfo (euOff eu 0x24)).isSome = true := by
  revert eu
  decide +kernel
theorem latched_txts (eu : Fin 2) : latched (euOff eu 0x24) = false := by
  revert eu
  decide +kernel

/-- A read of EU_TXTS_ID gives the oldest stamp's identity and takes it. -/
theorem readReg_txts {s : State} {eu : Fin 2} {e : TxTs} {rest : List TxTs} (a : Nat) (hx : (s.up eu).txts = e :: rest) :
    readReg s a (euOff eu 0x24) = w32 (field e.h1 20 12 + field e.h1 0 20 * 0x1000) := by
  have hn := eu.isLt
  have hpage : euOff eu 0x24 / 0x1000 = 7 := by unfold euOff; omega
  have hnum : (euOff eu 0x24 - 0x7800) / 0x400 = eu := by unfold euOff; omega
  have hreg : euOff eu 0x24 % 0x400 = 0x24 := by unfold euOff; omega
  have hmedia : rdMedia s (euOff eu 0x24) = rdEu s eu 0x24 := by
    unfold rdMedia
    rw [if_neg (by unfold euOff; omega), if_neg (by unfold euOff; omega), if_neg (by unfold euOff; omega),
      if_pos (by unfold euOff; omega), hnum, hreg]
  unfold readReg
  rw [if_neg (by rw [Option.isNone_iff_eq_none, ← Option.not_isSome_iff_eq_none]; exact not_not_intro (regInfo_txts eu)),
    if_neg (by rw [latched_txts]; simp), hpage]
  refine hmedia.trans ?_
  unfold rdEu
  dsimp only
  rw [hx]
  rfl

theorem readEffect_txts {s : State} {eu : Fin 2} {e : TxTs} {rest : List TxTs} (a : Nat) (hx : (s.up eu).txts = e :: rest) :
    readEffect a (euOff eu 0x24) s = setLatch a (euOff eu 0x28) (w32 e.dt) (setLatch a (euOff eu 0x2C) (w32 (e.dt / 0x100000000))
      (s.setUp eu { s.up eu with txts := rest })) := by
  have hn := eu.isLt
  have hnum : (euOff eu 0x24 - 0x7800) / 0x400 = eu := by unfold euOff; omega
  unfold readEffect
  rw [if_neg (by unfold euOff; omega), if_neg (by unfold euOff; omega), if_neg (by unfold euOff; omega),
    if_pos (by unfold euOff; omega), hnum]
  unfold txtsPop_
  dsimp only
  rw [hx]

theorem reg_agentPre (a : Nat) (s : State) (o : Nat) : (agentPre a s).reg o = s.reg o := by
  unfold agentPre; split <;> rfl

/-- Settles O44. -/
theorem uplinkSends : Obligations.UplinkSends := by
  intro s eu hw x c
  refine ⟨fun an remote h0 hl => ?up, fun a val hmay => ?speed, fun f rest age hl h0 hc hcut => ?sends, fun stream => ?closes,
    fun e rest hmay hx => ?stamp⟩
  case up =>
    have hexec : exec (.linkUp eu ⟨an, remote⟩) s = .next (settle s (euUp eu an remote s)) := done_core _ hw
    exact exec_to hexec (euUp_rises an remote hw h0 hl)
  case speed =>
    intro u
    have hexec : exec (.speedChange a eu val) s = .next (settle s (agentDone a (euOff eu 0) s (writeReg (euOff eu 0) val (agentPre a s)))) :=
      done_agentWrite hmay
    refine exec_to hexec (congrArg _ ?_)
    rw [writeReg_euCtrl _ _ eu.isLt, wrEuCtrl_eq, reg_agentPre]
  case sends =>
    intro cfg kind v
    have hon : euOn s eu = true := by
      have h0' : s.rb (euOff eu 0) 0 = true := h0
      have hl' : (s.up eu).link = true := hl
      unfold euOn
      rw [hw, h0', hl']
      rfl
    have hexec : exec (.uplinkFrameSent eu age) s = .next (settle s (flow (euSent eu age s))) :=
      calc exec (.uplinkFrameSent eu age) s = done s (core (fun s => flow (euSent eu age s)) s) := rfl
        _ = _ := done_core _ hw
    exact ⟨fun hp => exec_to hexec (congrArg flow (euSent_paused hc hp)),
      fun e more hp hf => exec_to hexec (congrArg flow (euSent_first hon hc hcut hp hf))⟩
  case closes =>
    have hclose : closeTimer stream s = closeFrame stream s := by
      unfold closeTimer
      rw [if_pos hw]
    calc exec (.frameCloseTimer stream) s = done s (core (fun s => flow (closeTimer stream s)) s) := rfl
      _ = _ := by rw [done_core _ hw, hclose]
  case stamp =>
    intro v
    have hexec : exec (.txtsPop 0 eu) s = .next (settle s (hostRead (euOff eu 0x24) false s)) :=
      calc exec (.txtsPop 0 eu) s = done s (core (agentRead 0 (euOff eu 0x24) false) s) := rfl
        _ = _ := done_core _ hw
    refine exec_to hexec ?_
    rw [hostRead_reg hmay, readReg_txts 0 hx, readEffect_txts 0 hx]

end Sys2Proof.Machine
end

section
/-!
SUPPORT. From the merger to the release (O45, O46): the issue of a header, an engine's decision, and the seam's release, one lemma
per shape of the head set.
-/
namespace Sys2Proof.Machine

/-! ## The issue of a header -/

theorem mergeTokens_head {m a n : Nat} {h : Header} {pre : Option Nat} {rest : List MEnt} {s : State}
    (hq : (s.mrg m).q = .head a h pre :: rest) : mergeTokens m n s = s := by
  cases n with
  | zero => rfl
  | succ n =>
    unfold mergeTokens
    rw [hq]

theorem stitchGo_none {s : State} (h : s.cons.stitch = none) : stitchGo s = s := by
  unfold stitchGo stitchDue
  rw [h]
  dsimp only
  rw [Bool.and_false, if_neg (by simp)]

theorem issueHead_clean {m a : Nat} {h : Header} {p : Pin} {s s1 : State} {ws : List Word} (hp : s.pin a = some p)
    (hr : readWords p.bob 6 p.pos s = (s1, ws, [true, true, true, true, true, true])) :
    let i := (s1.mrg m).next
    let s2 := beforeIndex m i s1
    let s3 := (s2.setMrg m { s2.mrg m with next := i + 1 }).setPin a { p with idx := i, mrg := m }
    issueHead m a h none s =
      stitchIssued (ingressRp p.bob (verifyRecord a (giveItem m (.head { h with idx := i, addr := a } (bankOf s3 m i)) s3))) := by
  intro i s2 s3
  unfold issueHead
  rw [hp]
  dsimp only
  rw [hr]
  exact if_neg (by simp)

theorem issueNext_head {m a : Nat} {h : Header} {rest : List MEnt} {s : State} (hi : mayIssue s m = true)
    (hq : (s.mrg m).q = .head a h none :: rest) (hst : s.cons.stitch = none) :
    let s4 := issueHead m a h none (s.setMrg m { s.mrg m with q := rest })
    issueNext m s = admUpdate m (mergeTokens m (s4.mrg m).q.length s4) := by
  intro s4
  unfold issueNext
  rw [if_neg (by simp [hi]), mergeTokens_head hq]
  dsimp only
  rw [hq]
  dsimp only
  rw [stitchGo_none hst, hq]

theorem awake_of_mayIssue {s : State} {m : Nat} (h : mayIssue s m = true) : s.awake = true := by
  unfold mayIssue State.engRun at h
  simp only [Bool.and_eq_true] at h
  exact h.1.1.1.1.1

/-! ## Decisions -/

section
variable {e : Nat} {s : State} {ok : Bool} {hd : Header} {bank : Nat} {rest : List EItem}

theorem decideNext_decides {d : Decision} {dyn : EngDyn} (hw : engWorks s e = true) (hi : ((pull e s).eng e).inbox = .head hd bank :: rest)
    (hl : ((pull e s).eng e).align.length < 64)
    (hd' : engDecide (pull e s) ((pull e s).eng e) hd bank hd.avail false = some (d, dyn)) :
    decideNext e ok s = mirrorTo e ((pull e s).eng e).inbox.length
      (pushEntry e { hdr := hd, dec := d, bank := bank, parityOk := ok }
        ((pull e s).setEng e { (pull e s).eng e with inbox := rest, dyn := dyn })) := by
  unfold decideNext
  rw [if_neg (by simp [hw])]
  dsimp only
  generalize hg : (pull e s).eng e = g at *
  rw [hi]
  dsimp only
  rw [if_neg (by omega), hd']

theorem decideNext_parks (hw : engWorks s e = true) (hi : ((pull e s).eng e).inbox = .head hd bank :: rest)
    (hl : ((pull e s).eng e).align.length < 64) (hd' : engDecide (pull e s) ((pull e s).eng e) hd bank hd.avail false = none) :
    decideNext e ok s = mirrorTo e ((pull e s).eng e).inbox.length ((pull e s).setEng e { (pull e s).eng e with
      inbox := rest, parked := ((pull e s).eng e).parked ++ [{ hdr := hd, bank := bank, words := hd.avail }] }) := by
  unfold decideNext
  rw [if_neg (by simp [hw])]
  dsimp only
  generalize hg : (pull e s).eng e = g at *
  rw [hi]
  dsimp only
  rw [if_neg (by omega), hd']

/-- The state in which a parked decision looks at its next token. -/
def tokened (e : Nat) (s : State) : State := pull e (mergeTokens (engMrg s e) (s.mrg (engMrg s e)).q.length s)

theorem resumeNext_decides {a w : Nat} {f : Bool} {p : Parked} {d : Decision} {dyn : EngDyn} (hw : engWorks s e = true)
    (hi : ((tokened e s).eng e).inbox = .token a w f :: rest) (hl : ((tokened e s).eng e).align.length < 64)
    (hp : ((tokened e s).eng e).parked.find? (fun x => decide (x.hdr.addr = a)) = some p)
    (hd' : engDecide (tokened e s) ((tokened e s).eng e) p.hdr p.bank w f = some (d, dyn)) :
    resumeNext e ok s = mirrorTo e ((tokened e s).eng e).inbox.length
      (pushEntry e { hdr := { p.hdr with avail := w, fin := f }, dec := d, bank := p.bank, parityOk := ok }
        ((tokened e s).setEng e { (tokened e s).eng e with
          inbox := rest, dyn := dyn, parked := ((tokened e s).eng e).parked.filter (fun q => decide (q.hdr.idx ≠ p.hdr.idx)) })) := by
  have ht : pull e (mergeTokens (engMrg s e) (s.mrg (engMrg s e)).q.length s) = tokened e s := rfl
  unfold resumeNext
  rw [if_neg (by simp [hw])]
  dsimp only
  rw [ht]
  generalize tokened e s = t at *
  generalize hg : t.eng e = g at *
  rw [hi]
  dsimp only
  rw [if_neg (by omega), hp]
  dsimp only
  rw [hd']

theorem splitLate_restarts (hs : s.split = true) (ho : seamOpen s = true) (hr : restarting s e = false)
    (hi : (s.eng e).inbox = .head hd bank :: rest) : splitLate e s = startRestart 2 e s := by
  unfold splitLate
  exact if_pos (by simp [hs, ho, hr, hi])

theorem pushEntry_votes (x : DecEntry) (hj : (s.eng e).join = none) (ho : (s.eng e).owed = []) : pushEntry e x s =
    (count (ctEng e 0) 1 s).setEng e { (count (ctEng e 0) 1 s).eng e with align := ((count (ctEng e 0) 1 s).eng e).align ++ [x] } := by
  unfold pushEntry
  rw [hj]
  unfold pushEntry.go
  rw [ho]
  rfl
end

theorem awake_of_seamOpen {s : State} (h : seamOpen s = true) : s.awake = true := by
  unfold seamOpen State.engRun at h
  simp only [Bool.and_eq_true] at h
  exact h.1.1.1

/-- Settles O45. -/
theorem headersDecided : Obligations.HeadersDecided := by
  intro s e
  refine ⟨fun a h rest p s1 ws hi hq hst hp hr => ?issue, fun hw hawake => ⟨fun ok hd bank rest => ?decides,
    fun ok a w f rest p d dyn => ?resumes, fun hd bank rest hs ho hr hin => ?late⟩, fun x u hj ho hu => ?push⟩
  case issue =>
    intro i s2 s3 s4
    have hexec : exec (.headerIssue e) s = .next (settle s (flow (issueNext e s))) :=
      calc exec (.headerIssue e) s = done s (core (fun s => flow (issueNext e s)) s) := rfl
        _ = _ := done_core _ (awake_of_mayIssue hi)
    have hhead : issueHead e a h none (s.setMrg e { s.mrg e with q := rest }) = s4 := issueHead_clean (s := s.setMrg e _) hp hr
    refine exec_to hexec (congrArg flow ?_)
    rw [issueNext_head hi hq hst, hhead]
  case decides =>
    intro u g hin hl
    have hexec : exec (.decisionEntry e ok) s = .next (settle s (flow (decideNext e ok s))) :=
      calc exec (.decisionEntry e ok) s = done s (core (fun s => flow (decideNext e ok s)) s) := rfl
        _ = _ := done_core _ hawake
    exact ⟨fun d dyn hd' => exec_to hexec (congrArg flow (decideNext_decides hw hin hl hd')),
      fun hd' => exec_to hexec (congrArg flow (decideNext_parks hw hin hl hd'))⟩
  case resumes =>
    intro u g hin hl hp hd
    have hexec : exec (.parkedResume e ok) s = .next (settle s (flow (resumeNext e ok s))) :=
      calc exec (.parkedResume e ok) s = done s (core (fun s => flow (resumeNext e ok s)) s) := rfl
        _ = _ := done_core _ hawake
    exact exec_to hexec (congrArg flow (resumeNext_decides hw hin hl hp hd))
  case late =>
    have hexec : exec (.splitEngineTimeout e) s = .next (settle s (splitLate e s)) := done_core _ hawake
    exact exec_to hexec (splitLate_restarts hs ho hr hin)
  case push =>
    subst hu
    exact pushEntry_votes x hj ho

/-! ## The vote -/

section
variable {s : State} {a b c : Nat} {u v w : DecEntry}

theorem seamGo_vote (e : Nat) (ho : seamOpen s = true) (hs : s.split = false) : seamGo e s = voteGo s := by
  unfold seamGo
  rw [if_neg (by simp [ho]), if_neg (by simp [hs])]

theorem voteGo_triple (hb : badHeads s = []) (h : 3 ≤ (ballot s).length) : voteGo s = voteTriple s := by
  unfold voteGo
  rw [hb]
  exact if_pos h
theorem voteGo_duplex (hb : badHeads s = []) (h : (ballot s).length < 3) : voteGo s = voteDuplex s := by
  unfold voteGo
  rw [hb]
  exact if_neg (by omega)

theorem agrees_false_of_laneDiff {x y : DecEntry} {l : Nat} (h : laneDiff x y = some l) : agrees x y = false := by
  unfold agrees
  rw [h]
  rfl

theorem voteTriple_agree (hv : voters s = [(a, u), (b, v), (c, w)]) (h1 : agrees u v = true) (h2 : agrees u w = true) :
    voteTriple s = release 0 u (count (ctSm 0) 1 (popHeads [a, b, c] s)) := by
  unfold voteTriple
  rw [hv]
  dsimp only
  rw [if_pos h1, if_pos h2]
theorem voteTriple_odd {l : Nat} (hv : voters s = [(a, u), (b, v), (c, w)]) (h1 : agrees u v = true) (h2 : laneDiff u w = some l) :
    voteTriple s = oddEngine c 0 l w.hdr.idx (release 0 u (count (ctSm 1) 1 (popHeads [a, b, c] s))) := by
  unfold voteTriple
  rw [hv]
  dsimp only
  rw [if_pos h1, if_neg (by simp [agrees_false_of_laneDiff h2])]
  unfold voteTwo
  dsimp only
  rw [h2]
  rfl
theorem voteTriple_none (hv : voters s = [(a, u), (b, v), (c, w)]) (h1 : agrees u v = false) (h2 : agrees u w = false)
    (h3 : agrees v w = false) : voteTriple s = startRestart 0 0 s := by
  unfold voteTriple
  rw [hv]
  dsimp only
  rw [if_neg (by simp [h1]), if_neg (by simp [h2]), if_neg (by simp [h3])]

theorem voteDuplex_eq (hv : voters s = [(a, u), (b, v)]) : voteDuplex s =
    if agrees u v then release 0 u (count (ctSm 2) 1 (popHeads [a, b] s)) else startRestart 1 0 s := by
  unfold voteDuplex
  rw [hv]

theorem seamGo_split {e : Nat} {rest : List DecEntry} (ho : seamOpen s = true) (hs : s.split = true) (hr : restarting s e = false)
    (ha : (s.eng e).align = u :: rest) : seamGo e s =
    if u.parityOk then release e u (count (ctSm 3) 1 (popHeads [e] s)) else startRestart 2 e s := by
  unfold seamGo
  rw [if_neg (by simp [ho]), if_pos hs, if_neg (by simp [hr])]
  unfold passGo
  rw [ha]

theorem lateGo_lone (ho : seamOpen s = true) (hs : s.split = false)
    (hf : (goodEngs s 0).find? (fun i => decide ((s.eng i).owed ≠ [])) = none) (hb : badHeads s = []) (hv : voters s = [(a, u)]) :
    lateGo s = if (ballot s).length < 3 then startRestart 1 0 s else oddEngine a 1 0 u.hdr.idx s := by
  unfold lateGo
  rw [if_neg (by simp [ho, hs]), hf]
  dsimp only
  rw [if_neg (by simp [hb]), hv]
  by_cases h : (ballot s).length < 3
  · rw [if_pos h]
    exact if_pos (by omega)
  · rw [if_neg h]
    exact if_neg (by omega)

/-- Without an engine that joins, every good engine votes. -/
theorem ballot_of_noJoin (h : ∀ i, (s.eng i).join = none) : ballot s = goodEngs s 0 := by
  unfold ballot
  simp only [h]
  exact List.filter_true ..

/-! ## Rounds of disagreeing seams -/

theorem disagreeGo_holds (ho : seamOpen s = true) :
    disagreeGo s = count (ctSm 5) 1 (raise 0x8020 16 { s with seam := { s.seam with dev := 1, round := 1 } }) := by
  unfold disagreeGo
  exact if_pos ho

/-- A round of two active seams, by its tests and its re-vote. -/
theorem roundEnd_both (aPass bPass agree : Bool) (hr : s.engRun = true) (hd : s.seam.dev = 1) (ha : s.seam.sa = 0) (hb : s.seam.sb = 0) :
    roundEnd aPass bPass agree s =
      if aPass = false ∧ bPass = false then halt 5 s
      else if aPass = false then seamResume (fenceSeam 0 s)
      else if bPass = false then seamResume (fenceSeam 1 s)
      else if agree then count (ctSm 6) 1 (raise 0x8020 64 (seamResume s))
      else if 3 ≤ s.seam.round then halt 6 s
      else { s with seam := { s.seam with round := s.seam.round + 1 } } := by
  unfold roundEnd
  rw [if_neg (by simp [hd, hr])]
  dsimp only
  rw [decide_eq_true ha, decide_eq_true hb]
  cases aPass <;> cases bPass <;> simp [smCause, modSeam]
end

/-- Settles O46: the head sets of voteGo, a lone entry, and the ends of a seam round. -/
theorem decisionsReleased : Obligations.DecisionsReleased := by
  intro s e hw ho good x
  have hx : ∀ {t}, seamGo e s = t → x = .next (settle s (flow t)) := fun {t} h =>
    calc x = done s (core (fun s => flow (seamGo e s)) s) := rfl
      _ = _ := by rw [done_core _ hw, h]
  refine ⟨ballot_of_noJoin, fun a b c u v w hs hb hg hv => ?triple, fun a b u v hs hb hg hv => ?duplex,
    fun u rest hs hr ha => hx (seamGo_split ho hs hr ha), fun a u hs hf hb hv => ?late, ?disagree, fun t htw hr hd ha hb => ?rounds⟩
  case triple =>
    have hvote := (seamGo_vote e ho hs).trans (voteGo_triple hb hg)
    exact ⟨fun h1 h2 => hx (hvote.trans (voteTriple_agree hv h1 h2)), fun l h1 h2 => hx (hvote.trans (voteTriple_odd hv h1 h2)),
      fun h1 h2 h3 => hx (hvote.trans (voteTriple_none hv h1 h2 h3))⟩
  case duplex =>
    have hvote := ((seamGo_vote e ho hs).trans (voteGo_duplex hb hg)).trans (voteDuplex_eq hv)
    exact ⟨fun h => hx (hvote.trans (if_pos h)), fun h => hx (hvote.trans (if_neg (by simp [h])))⟩
  case late =>
    have hexec : exec .entryLateTimer s = .next (settle s (flow (lateGo s))) :=
      calc exec .entryLateTimer s = done s (core (fun s => flow (lateGo s)) s) := rfl
        _ = _ := done_core _ hw
    exact exec_to hexec (congrArg flow (lateGo_lone ho hs hf hb hv))
  case disagree =>
    have hexec : exec .seamDisagree s = .next (settle s (disagreeGo s)) := done_core _ hw
    exact exec_to hexec (disagreeGo_holds ho)
  case rounds =>
    have hexec : ∀ p q g, exec (.seamRoundEnd p q g) t = .next (settle t (flow (roundEnd p q g t))) := fun p q g =>
      calc exec (.seamRoundEnd p q g) t = done t (core (fun s => flow (roundEnd p q g s)) t) := rfl
        _ = _ := done_core _ htw
    have hround := fun p q g => exec_to (hexec p q g) (congrArg flow (roundEnd_both p q g hr hd ha hb))
    refine ⟨fun ag => hround .., fun ag => hround .., fun ag => hround .., hround .., fun h => ?_, fun h => ?_⟩
    · exact exec_to (hround true true false) (congrArg flow (by simp [h]))
    · exact exec_to (hround true true false) (congrArg flow (by simp [h]))

end Sys2Proof.Machine
end

section
/-!
SUPPORT. What mends the engines (O47): self-faults, scrub, copies, seam tests, checkpoints and restarts, one lemma per outcome.
-/
namespace Sys2Proof.Machine

/-- The first element with a property is the first with a further property that it has. -/
theorem find?_and {α : Type} {p q : α → Bool} {l : List α} {a : α} (h : l.find? p = some a) (hq : q a = true) :
    l.find? (fun x => p x && q x) = some a := by
  induction l with
  | nil => simp at h
  | cons x xs ih =>
    rw [List.find?_cons] at h ⊢
    cases hp : p x with
    | true =>
      rw [hp] at h
      obtain rfl := Option.some.inj h
      simp [hq]
    | false =>
      rw [hp] at h
      simpa using ih h

section
variable {s : State}

/-! ## Self-faults and scrub -/

theorem selfGo_triple {e : Nat} (hr : s.engRun = true) (hd : s.seam.dev ≠ 3) (hx : restarting s e = false) (hs : s.split = false) :
    selfGo e s = match (s.eng e).st with
      | 0 => oddEngine e 3 0 (nextIdx s 0) s
      | 2 => resyncFail e s
      | _ => s := by
  unfold selfGo
  rw [if_neg (by simp [hr, hd, hx]), if_neg (by simp [hs])] <;> rfl

theorem scrubGo_runs (blocks : List (Nat × BitVec 3)) (hr : s.engRun = true) (hd : s.seam.dev ≠ 3) (hp : s.rf 0x8008 0 16 ≠ 0)
    (hx : s.seam.restarting = 0) : scrubGo blocks s = forAll blocks scrubBlock
      (count (ctSm 15) 1 (s.setReg 0x8008 (setField (s.reg 0x8008) 16 16 (s.rf 0x8008 16 16 + 1)))) := by
  unfold scrubGo
  exact if_neg (by simp [hr, hd, hp, hx])

theorem scrubBlock_triple {x : Nat × BitVec 3} {odd : List Nat} (hs : s.split = false) (hx : s.seam.restarting = 0) (hd : s.seam.dev ≠ 3)
    (ho : (goodEngs s 0).filter (nbit x.2.toNat) = odd) : scrubBlock x s = match (generalizing := false) odd with
      | [] => s
      | e :: t =>
        if (goodEngs s 0).length ≤ 2 then startRestart 1 0 s
        else if t = [] then oddEngine e 4 0 (nextIdx s 0) s
        else startRestart 0 0 s := by
  unfold scrubBlock
  rw [if_neg (by simp [hs]), if_neg (by simp [hx, hd]), ho] <;> rfl

/-! ## Copies -/

theorem copyParity_fails {t : Nat} (ht : [0, 1, 2].find? (fun e => decide ((s.eng e).st = 2)) = some t) (hr : s.engRun = true)
    (hd : s.seam.dev ≠ 3) : copyParity s = resyncFail t s := by
  unfold copyParity
  rw [ht]
  exact if_pos ⟨hr, hd⟩

theorem copyDone_copies {t d : Nat} (ht : [0, 1, 2].find? (fun e => decide ((s.eng e).st = 2)) = some t) (hl : lowestGood s = some d)
    (hr : s.engRun = true) (hd : s.seam.dev ≠ 3) (hc : (s.eng t).copied = false) : copyDone s = s.setEng t { s.eng t with
      bank0 := (s.eng d).bank0, bank1 := (s.eng d).bank1, dyn := (s.eng d).dyn, parked := (s.eng d).parked, inbox := [],
      align := [], owed := [], copied := true, join := some (nextIdx s 0) } := by
  unfold copyDone
  rw [find?_and (q := fun e => !(s.eng e).copied) ht (by simp [hc]), hl]
  exact if_neg (by simp [hr, hd])

theorem joinGo_joins {t d : Nat} (ht : [0, 1, 2].find? (fun e => decide ((s.eng e).st = 2)) = some t) (hl : lowestGood s = some d)
    (hc : (s.eng t).copied = true) (ho : seamOpen s = true) (hi : (s.eng d).inbox.length ≤ (s.eng t).inbox.length) :
    joinGo s = raise 0x8020 2 (s.setEng t { s.eng t with st := 0, copied := false }) := by
  unfold joinGo
  rw [find?_and (q := fun e => (s.eng e).copied) ht hc, hl]
  exact if_pos (by simp [ho, hi])

/-! ## Seam tests -/

theorem seamTestOver_passes (hr : s.engRun = true) (ht : s.seam.test = [0]) : seamTestOver true s =
    doneCmd s.seam.testCmd 0 (w32 (s.seam.testRes + 1 + 2)) 0#32 (raise 0x8020 0x800 { s with seam := { s.seam with
      testRes := s.seam.testRes + 1 + 2, histA := s.seam.histB, sa := 0, test := [], readmit := false } }) := by
  unfold seamTestOver
  rw [ht]
  dsimp only
  rw [if_neg (by simp [hr])]
  unfold setSeam smCause modSeam
  simp only [if_true, Nat.mul_zero, pow_zero, Nat.zero_add, pow_one, Nat.reducePow]

theorem seamTestOver_fails (hr : s.engRun = true) (ht : s.seam.test = [0]) (hm : s.seam.readmit = false) :
    let u := fenceSeam 0 { s with seam := { s.seam with testRes := s.seam.testRes + 1 } }
    seamTestOver false s = doneCmd s.seam.testCmd 0 (w32 (s.seam.testRes + 1)) 0#32 (raise 0x8020 0x800
      { u with seam := { u.seam with test := [], readmit := false } }) := by
  unfold seamTestOver
  rw [ht]
  dsimp only
  rw [if_neg (by simp [hr])]
  simp only [Bool.false_eq_true, if_false, hm, Nat.mul_zero, pow_zero, Nat.add_zero]
  rfl

/-! ## Checkpoints -/

theorem cutGo_cuts (hr : s.engRun = true) (hd : s.seam.dev ≠ 3) :
    cutGo s = forAll (mergers s) (fun m s => cutSoon m (s.mrg m).next s) s := by
  unfold cutGo
  exact if_neg (by simp [hr, hd])

theorem cutSoon_now {m : Nat} (i : Nat) (hf : mrgFresh s m = true) (hx : restarting s m = false) (hg : goodEngs s m ≠ []) :
    cutSoon m i s = cutAt m s := by
  unfold cutSoon
  exact if_pos (by simp [hf, hx, hg])

/-- The state in which a commit looks at the engines: their input orders up to their next work. -/
def pulled (s : State) : State := forAll [0, 1, 2] (fun e s => whenDo (engWorks s e) (pull e) s) s

theorem pulled_engRun (s : State) : (pulled s).engRun = s.engRun :=
  forAll_keep State.engRun _ (fun _ s => whenDo_keep State.engRun _ _ s rfl) _ _
theorem pulled_seam (s : State) : (pulled s).seam = s.seam :=
  forAll_keep State.seam _ (fun _ s => whenDo_keep State.seam _ _ s rfl) _ _

variable {m : Nat} {c : Cut} {blocks : List (Nat × BitVec 3)}

theorem commitGo_badWrite (hr : s.engRun = true) (hd : s.seam.dev ≠ 3) (hc : cutReady (pulled s) = some (m, c)) :
    commitGo false blocks s = raise 0xE040 2 (count (ctSm 14) 1 (raise 0x8020 0x400
      (forAll (mrgEngs (pulled s) m) (modEng · (fun g => { g with snap := none })) { pulled s with cuts := mapDel (pulled s).cuts m }))) := by
  have hp : forAll [0, 1, 2] (fun e s => whenDo (engWorks s e) (pull e) s) s = pulled s := rfl
  unfold commitGo
  dsimp only
  rw [hp, if_neg (by simp [pulled_engRun, pulled_seam, hr, hd]), hc]
  dsimp only
  rw [if_pos rfl]
  rfl

/-- A commit whose write had no error, by the blocks whose signatures differ. -/
theorem commitGo_written (hr : s.engRun = true) (hd : s.seam.dev ≠ 3) (hc : cutReady (pulled s) = some (m, c)) :
    let u := pulled s
    let good := goodEngs u m
    let odd := fun (x : Nat × BitVec 3) => good.filter (nbit x.2.toNat)
    let w := (good.find? (fun e => (u.eng e).snap.isSome)).getD 0
    commitGo true blocks s =
      if u.split ∨ ∀ x ∈ blocks, odd x = [] then commitCut m c u
      else if good.length ≤ 2 then startRestart 1 0 u
      else if ∃ x ∈ blocks, 2 ≤ (odd x).length then s
      else whenDo (blocks.any (fun x => decide (odd x = [w]))) (oddEngine w 5 0 c.idx) (commitCut m c (mixSnap w good blocks u)) := by
  intro u good odd w
  have hp : forAll [0, 1, 2] (fun e s => whenDo (engWorks s e) (pull e) s) s = pulled s := rfl
  unfold commitGo
  dsimp only
  rw [hp, if_neg (by simp [pulled_engRun, pulled_seam, hr, hd]), hc]
  dsimp only
  rw [if_neg (by simp)]
  simp only [List.all_map, List.any_map, List.all_eq_true, List.any_eq_true, Function.comp_def, decide_eq_true_eq]
  rfl

/-! ## Restarts -/

/-- The blocks that no engine holds well. -/
def blocksLost (s : State) (blocks : List (Nat × BitVec 3)) : Bool := blocks.any (fun x => (liveEngs s).all (nbit x.2.toNat))

section
variable {ck : Ckpt} (hr : s.engRun = true) (hx : s.seam.restarting ≠ 0) (hs : s.split = false) (hk : mapFind s.ckpts 0 = some ck)
include hr hx hs hk

theorem restartEnd_lost (a b : Bool) (hl : blocksLost s blocks = true) : restartEnd a blocks b s = halt 4 s := by
  unfold restartEnd
  dsimp only
  rw [if_neg (by simp [hr, hx]), if_neg (by simp [hs]), hk]
  exact if_pos hl
theorem restartEnd_badSlot (b : Bool) (hl : blocksLost s blocks = false) : restartEnd false blocks b s = halt 3 (raise 0xE040 2 s) := by
  unfold blocksLost at hl
  unfold restartEnd
  dsimp only
  rw [if_neg (by simp [hr, hx]), if_neg (by simp [hs]), hk]
  dsimp only
  rw [if_neg (by simp [hl]), if_pos rfl]
theorem restartEnd_badReplay (hl : blocksLost s blocks = false) : restartEnd true blocks false s = halt 2 s := by
  unfold blocksLost at hl
  unfold restartEnd
  dsimp only
  rw [if_neg (by simp [hr, hx]), if_neg (by simp [hs]), hk]
  dsimp only
  rw [if_neg (by simp [hl]), if_neg (by simp), if_pos rfl]
end

theorem restartEnd_good {ck : Ckpt} (hr : s.engRun = true) (hs : s.split = false) (hk : mapFind s.ckpts 0 = some ck)
    (hl : blocksLost s blocks = false) (hx : s.seam.restarting = 7) (hd : s.seam.dev = 2)
    (hst : (restartMerger 0 blocks ck s).cons.stitch = none) (hse : (restartMerger 0 blocks ck s).seam = s.seam) :
    let u := restartMerger 0 blocks ck s
    let v := u.setReg 0x8034 (setField (u.reg 0x8034) 8 24 (min (mapGet (dflt []) s.log 0).length 16777215))
    restartEnd true blocks true s = { v with seam := { s.seam with restarting := 0, dev := 0 } } := by
  intro u v
  have hmask : (mrgEngs s 0).foldl (fun a e => a + 2 ^ e) 0 = 7 := by
    unfold mrgEngs
    rw [if_neg (by simp [hs])]
    rfl
  have hv : modSeam (fun x => { x with
      restarting := x.restarting - (if nbit x.restarting 0 then 7 else 0),
      dev := if x.dev = 2 ∧ x.restarting - (if nbit x.restarting 0 then 7 else 0) = 0 then 0 else x.dev }) v =
      { v with seam := { s.seam with restarting := 0, dev := 0 } } := by
    have hvs : v.seam = s.seam := hse
    unfold modSeam
    dsimp only
    rw [hvs, hx, hd]
    rfl
  unfold blocksLost at hl
  unfold restartEnd
  dsimp only
  rw [if_neg (by simp [hr, hx]), if_neg (by simp [hs]), hk]
  dsimp only
  rw [if_neg (by simp [hl]), if_neg (by simp), if_neg (by simp), hmask, show restartMerger 0 blocks ck s = u from rfl,
    show u.setReg 0x8034 (setField (u.reg 0x8034) 8 24 (min (mapGet (dflt []) s.log 0).length 16777215)) = v from rfl, hv]
  have hnone : ({ v with seam := { s.seam with restarting := 0, dev := 0 } } : State).cons.stitch = none := hst
  rw [if_neg]
  unfold stitchDue
  rw [hnone]
  simp

/-! ## Odd engines -/

theorem oddEngine_mismatch {e lane idx : Nat} (hg : 3 ≤ (goodEngs s 0).length) (hj : (s.eng e).join = none) : oddEngine e 0 lane idx s =
    resyncStart (modEng e (fun g => { g with tries := 0 }) (fence e (reportOdd e 0 lane idx s))) := by
  unfold oddEngine
  dsimp only
  rw [if_neg (by omega), hj]
  exact if_neg (by simp)
end

/-- Settles O47, command by command. -/
theorem enginesMended : Obligations.EnginesMended := by
  intro s hw hr hd
  refine ⟨fun e hx hs => ⟨fun h => ?self0, fun h => ?self2⟩, fun blocks hp hx => ?scrub, fun x hs hx => ?blocks,
    fun t d ht hl => ⟨?parity, fun hc => ?copied, fun hc ho hi => ?joined⟩, fun ht hsa hm => ⟨?passed, ?failed⟩, ?cut,
    fun m i hf hx hg => cutSoon_now i hf hx hg, fun m c blocks => ?commit, fun ck hx hs hk blocks => ?restart,
    fun e lane idx hg hj => oddEngine_mismatch hg hj⟩
  case self0 =>
    have hexec : exec (.selfFault e) s = .next (settle s (selfGo e s)) := done_core _ hw
    exact exec_to hexec ((selfGo_triple hr hd hx hs).trans (by rw [h]; rfl))
  case self2 =>
    have hexec : exec (.selfFault e) s = .next (settle s (selfGo e s)) := done_core _ hw
    exact exec_to hexec ((selfGo_triple hr hd hx hs).trans (by rw [h]; rfl))
  case scrub =>
    have hexec : exec (.scrub blocks) s = .next (settle s (scrubGo blocks s)) := done_core _ hw
    exact exec_to hexec (scrubGo_runs blocks hr hd hp hx)
  case blocks =>
    intro odd
    have hblock := scrubBlock_triple (x := x) hs hx hd (odd := odd) rfl
    clear_value odd
    rw [hblock]
    cases odd with
    | nil => simp
    | cons e t =>
      refine ⟨fun h => by simp at h, fun _ h => if_pos h, fun e' he h => ?_, fun hl h => ?_⟩
      · obtain ⟨rfl, rfl⟩ := List.cons.inj he
        exact (if_neg (by omega)).trans (if_pos rfl)
      · exact (if_neg (by omega)).trans (if_neg (by rintro rfl; simp at hl))
  case parity =>
    have hexec : exec .copyPathParity s = .next (settle s (copyParity s)) := done_core _ hw
    exact exec_to hexec (copyParity_fails ht hr hd)
  case copied =>
    have hexec : exec .resyncCopyComplete s = .next (settle s (copyDone s)) := done_core _ hw
    exact exec_to hexec (copyDone_copies ht hl hr hd hc)
  case joined =>
    have hexec : exec .resyncJoin s = .next (settle s (joinGo s)) := done_core _ hw
    exact exec_to hexec (joinGo_joins ht hl hc ho hi)
  case passed =>
    have hexec : exec (.seamTestEnd true) s = .next (settle s (seamTestOver true s)) := done_core _ hw
    exact exec_to hexec (seamTestOver_passes hr ht)
  case failed =>
    have hexec : exec (.seamTestEnd false) s = .next (settle s (seamTestOver false s)) := done_core _ hw
    exact exec_to hexec (seamTestOver_fails hr ht hm)
  case cut =>
    have hexec : exec .checkpointCut s = .next (settle s (cutGo s)) := done_core _ hw
    exact exec_to hexec (cutGo_cuts hr hd)
  case commit =>
    intro u hc good odd w
    have hexec : ∀ ok, exec (.checkpointCommit ok blocks) s = .next (settle s (commitGo ok blocks s)) := fun ok => done_core _ hw
    have hwritten := (commitGo_written (blocks := blocks) hr hd hc)
    refine ⟨exec_to (hexec false) (commitGo_badWrite hr hd hc), fun h => exec_to (hexec true) (hwritten.trans (if_pos (.inr h))),
      fun ⟨x, hx, ho⟩ hs hg => exec_to (hexec true) (hwritten.trans ((if_neg ?_).trans (if_pos hg))),
      fun ⟨x, hx, ho⟩ hl hs hg => exec_to (hexec true) (hwritten.trans ((if_neg ?_).trans ((if_neg (Nat.not_le.mpr hg)).trans (if_neg ?_))))⟩
    · rintro (h | h)
      · exact Bool.false_ne_true (hs.symm.trans h)
      · exact ho (h x hx)
    · rintro (h | h)
      · exact Bool.false_ne_true (hs.symm.trans h)
      · exact ho (h x hx)
    · rintro ⟨y, hy, h2⟩
      exact absurd (hl y hy) (Nat.not_lt.mpr h2)
  case restart =>
    intro lost
    have hexec : ∀ a b, exec (.restartComplete a blocks b) s = .next (settle s (flow (restartEnd a blocks b s))) := fun a b =>
      calc exec (.restartComplete a blocks b) s = done s (core (fun s => flow (restartEnd a blocks b s)) s) := rfl
        _ = _ := done_core _ hw
    refine ⟨fun a b hl => exec_to (hexec a b) (congrArg flow (restartEnd_lost hr hx hs hk a b hl)),
      fun b hl => exec_to (hexec false b) (congrArg flow (restartEnd_badSlot hr hx hs hk b hl)),
      fun hl => exec_to (hexec true false) (congrArg flow (restartEnd_badReplay hr hx hs hk hl)), fun hl _ h7 h2 => ?_⟩
    intro u v hst hse
    exact exec_to (hexec true true) (congrArg flow (restartEnd_good hr hs hk hl h7 h2 hst hse))

end Sys2Proof.Machine
end

section
/-!
SUPPORT. Derived records, held releases and sentence boundaries (O48).
-/
namespace Sys2Proof.Machine

section
variable {s : State}

/-! ## The derivation unit -/

theorem deriveNext_now {j : FanJob} (hj : nextDerive s s.fan = some j) (hl : j.later = false) :
    let b := buildDerived j.mrg j.ent { s with fan := s.fan.erase j }
    deriveNext s = fanRun (finishJob j b.2 b.1) := by
  unfold deriveNext
  rw [hj]
  dsimp only
  rw [if_neg (by simp [hl])]

theorem buildDerived_bad (m : Nat) {e : DecEntry} (h : ((s.pin e.hdr.addr).map (·.bad)).getD false = true) :
    buildDerived m e s = (withdrawSet e s, none) := by
  unfold buildDerived
  exact if_pos h

theorem buildDerived_overflow (m : Nat) {e : DecEntry} {s1 : State} {c : Checked} (h : ((s.pin e.hdr.addr).map (·.bad)).getD false = false)
    (hc : checkRecord 2 0 e.hdr.addr s = (s1, c)) (hd : deriveRecord s1 e c = none) : buildDerived m e s = (xcOverflow s1, none) := by
  unfold buildDerived
  rw [if_neg (by simp [h]), hc]
  dsimp only
  rw [hd]

/-! ## Held releases -/

theorem heldFire_first {h : Held} {rest : List Held} (hd : heldDue s = h :: rest) :
    heldFire s = fireHeld h (holdCount (if h.stepped then 5 else 0) (pinTalker s h.orig).1 (pinTalker s h.orig).2 s) := by
  unfold heldFire
  rw [hd]

theorem fireHeld_ready {h : Held} (hn : h.need = false) : fireHeld h s = placeHeld h (dropHeld h s) := by
  unfold fireHeld
  exact if_neg (by simp [hn])
theorem fireHeld_waits {h : Held} (hn : h.need = true) : fireHeld h s = { s with tape := { s.tape with
    held := s.tape.held.map (fun y => if y.mrg = h.mrg ∧ y.idx = h.idx then { y with fired := true } else y) } } := by
  unfold fireHeld
  exact if_pos hn

/-! ## Sentence boundaries -/

theorem boundary_starts {ep : Nat} {c : Cand} {v : State} (hr : epReady (serviceBoundary ep s) ep = true)
    (hc : choose (egRefresh ep (serviceBoundary ep s)) ep = (some c, v)) : boundary ep s = startAt ep c.lq c.bob v := by
  unfold boundary
  dsimp only
  rw [if_pos hr, hc]

theorem choose_p0 {ep : Nat} {c : Cand} (h : lowestIdx s 0 (candidates s ep) = some c) : choose s ep = (some c, s) := by
  unfold choose
  dsimp only
  rw [h]
theorem choose_p1 {ep : Nat} {c : Cand} (h0 : lowestIdx s 0 (candidates s ep) = none) (h : lowestIdx s 1 (candidates s ep) = some c) :
    choose s ep = (some c, s) := by
  unfold choose
  dsimp only
  rw [h0, h]

/-- No candidate is the lowest only where none is of the class. -/
theorem lowestIdx_none {cls : Nat} {l : List Cand} (h : lowestIdx s cls l = none) : ∀ d ∈ l, d.ref.cls ≠ cls := by
  induction l with
  | nil => simp
  | cons x t ih =>
    unfold lowestIdx at h
    cases ht : lowestIdx s cls t with
    | none =>
      rw [ht] at h
      dsimp only at h
      have hx : x.ref.cls ≠ cls := fun hx => by rw [if_pos hx] at h; exact absurd h (by simp)
      exact List.forall_mem_cons.mpr ⟨hx, ih ht⟩
    | some y =>
      rw [ht] at h
      dsimp only at h
      split at h <;> exact absurd h (by simp)

/-- The lowest candidate is of the class, is one of them, and has the lowest sentence index among them (R196). -/
theorem lowestIdx_some {cls : Nat} {l : List Cand} {c : Cand} (h : lowestIdx s cls l = some c) :
    c.ref.cls = cls ∧ c ∈ l ∧ ∀ d ∈ l, d.ref.cls = cls → refIdx s c.ref ≤ refIdx s d.ref := by
  induction l generalizing c with
  | nil => simp [lowestIdx] at h
  | cons x t ih =>
    unfold lowestIdx at h
    cases ht : lowestIdx s cls t with
    | none =>
      rw [ht] at h
      dsimp only at h
      split at h
      next hx =>
        obtain rfl := Option.some.inj h
        refine ⟨hx, List.mem_cons_self, List.forall_mem_cons.mpr ⟨fun _ => Nat.le_refl _, fun d hd hc => ?_⟩⟩
        exact absurd hc (lowestIdx_none ht d hd)
      next => exact absurd h (by simp)
    | some y =>
      obtain ⟨hcls, hmem, hmin⟩ := ih ht
      rw [ht] at h
      dsimp only at h
      split at h
      next hx =>
        obtain rfl := Option.some.inj h
        refine ⟨hx.1, List.mem_cons_self, List.forall_mem_cons.mpr ⟨fun _ => Nat.le_refl _, fun d hd hc => ?_⟩⟩
        exact hx.2.trans (hmin d hd hc)
      next hx =>
        obtain rfl := Option.some.inj h
        exact ⟨hcls, List.mem_cons_of_mem _ hmem, List.forall_mem_cons.mpr ⟨fun hc => by omega, hmin⟩⟩
end

/-- Settles O48. -/
theorem sentencesPlaced : Obligations.SentencesPlaced := by
  intro s hw
  refine ⟨fun j hj hl => ?derived, fun m e h => buildDerived_bad m h, fun m e s1 c h hc hd => buildDerived_overflow m h hc hd,
    fun h rest hst hfit hd => ?held, fun ep c v => ?starts, fun ep c h => choose_p0 h, fun ep c h0 h => choose_p1 h0 h,
    fun cls l c h => lowestIdx_some h⟩
  case derived =>
    intro b
    have hexec : exec .derivedRecordBuild s = .next (settle s (flow (deriveNext s))) :=
      calc exec .derivedRecordBuild s = done s (core (fun s => flow (deriveNext s)) s) := rfl
        _ = _ := done_core _ hw
    exact exec_to hexec (congrArg flow (deriveNext_now hj hl))
  case held =>
    intro tk u
    have hexec : exec .heldRelease s = .next (settle s (flow (fireHeld h u))) :=
      calc exec .heldRelease s = done s (core (fun s => flow (if stitchFirstDue s || fitFirstDue s then s else heldFire s)) s) := rfl
        _ = _ := by rw [done_core _ hw, if_neg (by simp [hst, hfit]), heldFire_first hd]; rfl
    exact ⟨fun hn => exec_to hexec (congrArg flow (fireHeld_ready hn)), fun hn => exec_to hexec (congrArg flow (fireHeld_waits hn))⟩
  case starts =>
    intro u hr hc
    have hexec : exec (.sentenceBoundary ep) s = .next (settle s (flow (boundary ep s))) :=
      calc exec (.sentenceBoundary ep) s = done s (core (fun s => flow (boundary ep s)) s) := rfl
        _ = _ := done_core _ hw
    exact exec_to hexec (congrArg flow (boundary_starts hr hc))

end Sys2Proof.Machine
end

section
/-!
SUPPORT. Bobbins and the store (O49): lease lapse, FLUSH, the background scan and aged pins.
-/
namespace Sys2Proof.Machine

section
variable {s : State}

theorem lapse_lapses {b : Nat} (hw : s.awake = true) (hn : (s.bob b).notch.isSome = true) (hc : classL s b = true)
    (hu : field (s.bob b).lease 16 2 = 1 ∨ field (s.bob b).lease 16 2 = 2) : lapse b s =
    raise 0x8F00 2 (count (ctBb b 2) 1 (s.setBob b { s.bob b with
      notch := none, lapsed := true, lp := max (s.bob b).lp (min (s.bob b).rp ((oldestPin b s.pins).getD (s.bob b).rp)) })) := by
  unfold lapse
  exact if_pos (by simp [hw, hn, hc, hu])

/-! ## FLUSH -/

theorem writeReg_flush {b : Nat} (hb : b < 512) : writeReg (0x900C + 0x10 * b) 1#32 s = flushBob b s := by
  have hd : dated (0x900C + 0x10 * b) = false := decide_eq_false (by omega)
  have hmod : (0x900C + 0x10 * b) % 0x10 = 0xC := by omega
  have hnum : (0x900C + 0x10 * b - 0x9000) / 0x10 = b := by omega
  have hpage : (0x900C + 0x10 * b) / 0x1000 = 9 ∨ (0x900C + 0x10 * b) / 0x1000 = 0xA := by omega
  have hgo : (if (0x900C + 0x10 * b) % 0x10 = 0xC then whenDo (bit 1#32 0) (flushBob ((0x900C + 0x10 * b - 0x9000) / 0x10)) s
      else wrPlain (0x900C + 0x10 * b) 1#32 s) = flushBob b s := by
    rw [if_pos hmod, hnum, show bit 1#32 0 = true from by decide, whenDo_true]
  unfold writeReg
  dsimp only
  rw [hd, whenDo_false]
  rcases hpage with h | h <;> rw [h] <;> exact hgo

theorem flushBob_classL {b : Nat} (hc : classL s b = true) : flushBob b s = raise 0x8F00 0x10 s := by
  unfold flushBob
  exact if_pos hc

theorem flushBob_classS {b : Nat} (hc : classL s b = false) (hl : mapFind s.laneLq b = none) (hn : (s.bob b).rp < (s.bob b).wp) :
    flushBob b s = raise 0x8F00 8 (count (ctBb b 2) ((s.bob b).wp - (s.bob b).rp)
      (s.setBob b { s.bob b with rp := (s.bob b).wp, lp := (s.bob b).wp })) := by
  have hk : mapGet (dflt 128) s.laneLq b = 128 := by
    unfold mapGet
    rw [hl]
    rfl
  unfold flushBob
  dsimp only
  rw [if_neg (by simp [hc]), hk, if_neg (by omega), if_neg (by omega), decide_eq_true (by omega), whenDo_true]

/-! ## The background scan -/

/-- In a map in canonical order one key is met once, with the value found there. -/
theorem mapKeys_filter_one {α : Type} {m : SMap α} (hm : mapSorted m = true) (a : Nat) (p : α → Bool) :
    mapKeys (mapFilter (fun b w => decide (a ≤ b ∧ b ≤ a) && p w) m) = match mapFind m a with
      | some w => if p w then [a] else []
      | none => [] := by
  induction m with
  | nil => rfl
  | cons e t ih =>
    obtain ⟨k, w⟩ := e
    obtain ⟨hk, ht⟩ := (mapSorted_cons k w t).mp hm
    unfold mapFind
    by_cases h : a = k
    · subst h
      have htail : t.filter (fun e => decide (a ≤ e.1 ∧ e.1 ≤ a) && p e.2) = [] :=
        List.filter_eq_nil_iff.mpr fun e he => by
          have := hk e he
          rw [decide_eq_false (by omega)]
          simp
      unfold mapKeys mapFilter
      rw [if_pos rfl, List.filter_cons, htail]
      cases hp : p w <;> simp [hp]
    · have hne : decide (a ≤ k ∧ k ≤ a) = false := decide_eq_false (by omega)
      rw [if_neg h, ← ih ht]
      simp only [mapFilter, List.filter_cons, hne, Bool.false_and, Bool.false_eq_true, if_false]

/-- The scan of one word of a store in canonical form. -/
theorem scanSpan_one {a : Nat} (hm : mapSorted s.store = true) (ha : a < 0x200000) :
    scanSpan a a s = if parityOk (s.word a) then s else scanBad a s := by
  have hzero : parityOk 0#33 = true := by decide
  have hword : s.word a = (mapFind s.store a).getD 0#33 := by
    unfold State.word mapGet
    rw [Nat.mod_eq_of_lt ha]
    rfl
  unfold scanSpan
  rw [mapKeys_filter_one hm a (fun w => !parityOk w), hword]
  cases mapFind s.store a with
  | none => simp [hzero]
  | some w => cases hp : parityOk w <;> simp [hp]

theorem scanBad_bob {a b : Nat} (hb : bobOfAddr s a 512 = some b) :
    let r := (raise 0x8F20 2 (count (ctBb b 3) 1 s)).setReg 0x8F14 (w32 (a + b2n (wordLive s b a) * 0x200000))
    scanBad a s = if wordLive s b a then r else r.setWord a 0#32 := by
  unfold scanBad
  rw [hb]

/-- The store that a scan read sees: as it stands, or with an upset of the word. -/
def upsetSeen (a : Nat) (up : Option (Fin 33)) (s : State) : State :=
  match up with
  | some i => upsetWord a i s
  | none => s

theorem upsetSeen_sorted {a : Nat} (up : Option (Fin 33)) (h : mapWf (dflt 0#33) s.store = true) :
    mapSorted (upsetSeen a up s).store = true := by
  have hsorted : ∀ {m : SMap StoreWord}, mapWf (dflt 0#33) m = true → mapSorted m = true := fun h => (Bool.and_eq_true_iff.mp h).1
  cases up with
  | none => exact hsorted h
  | some i => exact hsorted (mapWf_mapSet _ _ _ _ h)

theorem scanRead_eq {a : Nat} (up : Option (Fin 33)) (hw : s.awake = true) (h0 : s.rb 0x8F10 0 = true) :
    let top := if s.pw.store4 then 0x100000 else 0x200000
    s.scan < top → a + 1 < top →
    scanRead a (up.map (·.val)) s =
      let s1 := if s.scan ≤ a then scanSpan s.scan a (upsetSeen a up s)
        else scanSpan 0 a (scanPass (scanSpan s.scan (top - 1) (upsetSeen a up s)))
      { s1 with scan := a + 1 } := by
  intro top hs ha
  have htop : (if s.pw.store4 = true then 0x100000 else 0x200000) = top := rfl
  unfold scanRead
  dsimp only
  rw [htop]
  clear_value top
  rw [if_pos (by simp only [hw, h0, Bool.true_and, decide_eq_true_eq]; omega), if_pos hs, if_neg (by omega)]
  cases up <;> rfl

/-! ## Aged pins -/

theorem pinAge_ages {a : Nat} {p : Pin} (hw : s.awake = true) (hp : s.pin a = some p) (hc : p.complete = true) (hh : p.holds = 0)
    (hwt : p.wait = 0) (hr : p.refs ≠ 0) : pinAge a s = raise 0x8F00 0x20 (unpinCheck a (s.setPin a { p with refs := 0 })) := by
  unfold pinAge
  rw [hp]
  exact if_pos (by simp [hw, hc, hh, hwt, hr])
end

theorem agentPre_bob (a : Nat) (s : State) (b : Nat) : (agentPre a s).bob b = s.bob b := by
  unfold agentPre; split <;> rfl
theorem agentPre_classL (a : Nat) (s : State) (b : Nat) : classL (agentPre a s) b = classL s b := by
  unfold agentPre; split <;> rfl

/-- Settles O49. -/
theorem storeKept : Obligations.StoreKept := by
  intro s hw
  refine ⟨fun b => ?lapses, fun a b => ?flush, fun addr up => ?scan, fun addr p hp hc hh hwt hr => ?aged⟩
  case lapses =>
    intro v hn hc hu
    have hexec : exec (.leaseLapse b) s = .next (settle s (flow (lapse b s))) :=
      calc exec (.leaseLapse b) s = done s (core (fun s => flow (lapse b s)) s) := rfl
        _ = _ := done_core _ hw
    exact exec_to hexec (congrArg flow (lapse_lapses hw hn hc hu))
  case flush =>
    intro o u v hmay
    have hexec : exec (.flush a b) s = .next (settle s (flow (agentDone a o s (flushBob b u)))) :=
      calc exec (.flush a b) s = done s (core (fun s => flow (agentWrite a (0x900C + 0x10 * b.val) 1#32 s)) s) := rfl
        _ = _ := by rw [done_core _ hw, agentWrite_served hmay, writeReg_flush b.isLt]
    refine ⟨fun hc => exec_to hexec (congrArg (fun t => flow (agentDone a o s t)) ?_),
      fun hc hl hn => exec_to hexec (congrArg (fun t => flow (agentDone a o s t)) ?_)⟩
    · exact flushBob_classL ((agentPre_classL ..).trans hc)
    · have hv : u.bob b = v := agentPre_bob ..
      rw [flushBob_classS ((agentPre_classL ..).trans hc) ((congrArg (mapFind · b) (agentPre_laneLq ..)).trans hl) (by rw [hv]; exact hn), hv]
  case scan =>
    intro top u h0 hs ha x
    have hu : upsetSeen addr up s = u := by cases up <;> rfl
    have hx : ∀ {t}, scanRead addr (up.map (·.val)) s = t → x = .next (settle s t) := fun {t} h =>
      calc x = done s (core (scanRead addr (up.map (·.val))) s) := rfl
        _ = _ := by rw [done_core _ hw, h]
    have hread := scanRead_eq up hw h0 hs ha
    rw [hu] at hread
    refine ⟨fun h => hx (hread.trans (by rw [if_pos h])), fun h => hx (hread.trans (by rw [if_neg (by omega)])), fun h hwf => ?_⟩
    have hsorted : mapSorted u.store = true := by
      rw [← hu]
      exact upsetSeen_sorted up (Bool.and_eq_true_iff.mp hwf).1
    have hone := scanSpan_one hsorted addr.isLt
    refine ⟨fun hp => hx (hread.trans ?_), fun b hp hb => hx (hread.trans ?_)⟩
    · rw [if_pos (by omega), h, hone, if_pos hp]
    · rw [if_pos (by omega), h, hone, if_neg (by simp [hp]), scanBad_bob hb]
  case aged =>
    have hexec : exec (.pinAged addr) s = .next (settle s (flow (pinAge addr s))) :=
      calc exec (.pinAged addr) s = done s (core (fun s => flow (pinAge addr s)) s) := rfl
        _ = _ := done_core _ hw
    exact exec_to hexec (congrArg flow (pinAge_ages hw hp hc hh hwt hr))

end Sys2Proof.Machine
end

section
/-!
SUPPORT. Rate cells (O50): when a cell falls due, and what the emitter makes of the first due one.
-/
namespace Sys2Proof.Machine

section
variable {s : State} {c : Nat}

/-- A cell that falls due at an instant, but for the instant itself. -/
def cellFallen (s : State) (c : Nat) (d : Nat × Nat) : CellSt :=
  { s.cell c with last := some d.2, pendChg := false, news := 0, since := s.now, lastAddr := none,
                  nextDt := (s.cell c).nextDt.map (fun n => n + 1000 * (wordAt (cellImg s c) 1).toNat) }

theorem cellDueGo_first {d : Nat × Nat} (hf : cellFalls s c = some d) (hd : (s.cell c).due = none) :
    cellDueGo c s = s.setCell c { cellFallen s c d with due := some d } := by
  unfold cellDueGo
  rw [hf]
  dsimp only
  rw [hd]
  exact if_neg (by simp)

theorem xcLast_some (k : Nat) : xcLast (some c) k s = s.setReg 0x8188 (w32 (c + k * 0x400)) := by
  unfold xcLast
  rw [show b2n (some c).isNone = 0 from rfl, Nat.zero_mul, Nat.add_zero]
  rfl

theorem cellDueGo_again {d e : Nat × Nat} (hf : cellFalls s c = some d) (hd : (s.cell c).due = some e) :
    cellDueGo c s = (raise 0x8180 8 (count (ctXc 3) 1 (s.setCell c (cellFallen s c d)))).setReg 0x8188 (w32 (c + 3 * 0x400)) := by
  have hy : { cellFallen s c d with due := some e } = cellFallen s c d := by
    rw [← hd]
    rfl
  unfold cellDueGo
  rw [hf]
  dsimp only
  rw [hd]
  refine (if_pos (by simp)).trans ?_
  rw [xcLast_some, ← hy]
  rfl

theorem cellFalls_period {d : Nat} (hw : s.awake = true) (he : cellEn s c = true) (ht : cellTrig s c = 0) (hd : (s.cell c).nextDt = some d) :
    cellFalls s c = if d ≤ s.dt then some (d, s.now - (s.dt - d) * 1000) else none := by
  unfold cellFalls
  dsimp only
  rw [if_neg (by simp [hw, he]), ht]
  refine Eq.trans (b := match (s.cell c).nextDt with
    | some d => if d ≤ s.dt then some (d, s.now - (s.dt - d) * 1000) else none
    | none => none) rfl ?_
  rw [hd]

theorem emitCell_first {dt el : Nat} {rest : List (Nat × Nat × Nat)} (hw : s.awake = true) (hd : dueCells s = (c, dt, el) :: rest) :
    emitCell s = cellForm c dt el s := by
  unfold emitCell
  rw [hd]
  exact if_pos hw

/-- The cell's due instant is taken before its checks. -/
def cellTaken (c : Nat) (s : State) : State := s.setCell c { s.cell c with due := none, lastAddr := none }

variable {dt el : Nat}

theorem cellForm_unwritten (h : (reqSlots (cellImg s c)).any (fun i => !((s.cell c).slot i).wr) = true) :
    cellForm c dt el s = cellNone c 2 2 (cellTaken c s) := by
  unfold cellForm
  exact if_pos h

theorem cellForm_stale {i : Nat} (hr : reqSlots (cellImg s c) = [i]) (hw : ((s.cell c).slot i).wr = true)
    (hs : slotStale (cellImg s c) dt ((s.cell c).slot i) = true) (h3 : bit (wordAt (cellImg s c) 0) 3 = true) :
    cellForm c dt el s = cellNone c 1 2 (cellTaken c s) := by
  unfold cellForm
  dsimp only
  rw [hr, if_neg (by simp [hw]), if_neg (c := [i] = []) (by simp)]
  exact if_pos (by simp [hs, h3])

/-- The values of a cell's written slots. -/
def cellVals (s : State) (c : Nat) : List (Option Word) :=
  (List.range 4).map (fun i => if ((s.cell c).slot i).wr then some ((s.cell c).slot i).val else none)

theorem cellForm_recorded {i : Nat} {s1 : State} (hr : reqSlots (cellImg s c) = [i]) (hw : ((s.cell c).slot i).wr = true)
    (hs : slotStale (cellImg s c) dt ((s.cell c).slot i) = false) :
    let u := cellTaken c s
    let w0 := wordAt (cellImg s c) 0
    let t := 0x400 + c
    let q := u.seqOf t
    let ti := img (devBank u) 8 (field w0 9 9)
    let body := runTemplate ti { vals := cellVals s c, bind := mkH1 t q }
    let pay := wordBytes (w32 (field (wordAt ti 0) 0 8)) ++ wordBytes (wordAt ti 1) ++ body
    ti ≠ [] → body.length ≤ 2040 → s.now ≤ el + 1000000 →
    addRecord [mkH0 0x40 (field w0 6 3) false false false (8 + body.length), mkH1 t q, w32 dt, w32 (dt / 0x100000000),
      h4At u (field w0 4 2) el, w32 (c + field w0 9 9 * 0x400)] pay { hits := hitsAt u el } u = (s1, .recorded) →
    cellForm c dt el s = count (2144 + 1024 + c) 1 ((s1.setSeq t (q + 1)).setCell c
      { s1.cell c with vals := some (cellVals s c), lastAddr := some (mkH1 t q).toNat }) := by
  intro u w0 t q ti body pay hti hb hn hrec
  have hstale : [i].any (fun i => slotStale (cellImg s c) dt ((s.cell c).slot i)) = false := by simp [hs]
  have hnow : u.now = s.now := rfl
  have hu : s.setCell c { s.cell c with due := none, lastAddr := none } = u := rfl
  have hvals : (List.range 4).map (fun i => if ((s.cell c).slot i).wr then some ((s.cell c).slot i).val else none) = cellVals s c := rfl
  unfold cellForm
  dsimp only
  rw [hr, if_neg (c := [i] = []) (by simp), hstale, hu, hvals, if_neg (by simp [hw]), if_neg (by simp)]
  have hgo : ¬(img (devBank u) 8 (field (wordAt (cellImg s c) 0) 9 9) = [] ∨ 2040 < (runTemplate
      (img (devBank u) 8 (field (wordAt (cellImg s c) 0) 9 9)) { vals := cellVals s c, bind := mkH1 (0x400 + c) (u.seqOf (0x400 + c)) }).length) :=
    fun h => h.elim hti (Nat.not_lt.mpr hb)
  rw [if_neg hgo, show b2n false = 0 from rfl, Nat.zero_mul, Nat.add_zero, show addRecord _ _ _ u = _ from hrec]
  dsimp only
  rw [whenDo_false, hnow, decide_eq_false (by omega), whenDo_false]
end

/-- Settles O50. -/
theorem cellsRun : Obligations.CellsRun := by
  intro s c hw im x
  refine ⟨fun d hst hfit hh hf => ?falls, fun d he ht hd => cellFalls_period hw he ht hd, fun dt el rest hd => ?emits⟩
  case falls =>
    intro y
    have hexec : exec (.cellDue c) s = .next (settle s (cellDueGo c s)) :=
      calc exec (.cellDue c) s
          = done s (core (fun s => if stitchFirstDue s || fitFirstDue s || decide (heldDue s ≠ []) then s else cellDueGo c s) s) := rfl
        _ = _ := by rw [done_core _ hw, if_neg (by simp [hst, hfit, hh])]
    exact ⟨fun h => exec_to hexec (cellDueGo_first hf h), fun e h => exec_to hexec (cellDueGo_again hf h)⟩
  case emits =>
    intro u t q ti body pay
    have hexec : exec .cellEmission s = .next (settle s (flow (cellForm c dt el s))) :=
      calc exec .cellEmission s = done s (core (fun s => flow (emitCell s)) s) := rfl
        _ = _ := by rw [done_core _ hw, emitCell_first hw hd]
    exact ⟨fun h => exec_to hexec (congrArg flow (cellForm_unwritten h)),
      fun i hr h1 h2 h3 => exec_to hexec (congrArg flow (cellForm_stale hr h1 h2 h3)),
      fun i s1 hr h1 h2 hti hb hn hrec => exec_to hexec (congrArg flow (cellForm_recorded hr h1 h2 hti hb hn hrec))⟩

end Sys2Proof.Machine
end

section
/-!
SUPPORT. Staged configuration (O51): what of the consistency block the stitch sets and what its parts leave alone, the re-baste,
and the fittings.
-/
namespace Sys2Proof.Machine

/-- A choice keeps what both its sides keep. -/
theorem ite_keep {α γ : Type} (g : α → γ) {p : Prop} [Decidable p] {a b : α} {x : γ} (ha : g a = x) (hb : g b = x) :
    g (if p then a else b) = x := by
  split
  · exact ha
  · exact hb

/-! ## The parts of the stitch leave the consistency block alone -/

theorem stitchLq_cons (k : Nat) (s : State) : (stitchLq k s).cons = s.cons := by
  unfold stitchLq
  dsimp only
  split
  · simp
  · split <;> simp
theorem stitchCarve_cons (b : Nat) (s : State) : (stitchCarve b s).cons = s.cons := by
  unfold stitchCarve
  dsimp only
  split
  · rfl
  · split <;> simp
theorem stitchWin_cons (s : State) : (stitchWin s).cons = s.cons := by
  refine forAll_keep State.cons _ (fun i s => ?_) _ _
  dsimp only
  split
  · rfl
  · exact setLive_cons ..
theorem stitchProfile_cons (s : State) : (stitchProfile s).cons = s.cons := by
  unfold stitchProfile
  split <;> rfl
theorem applyUser_cons (u : UserRec) (src : Nat) (s : State) : (applyUser u src s).cons = s.cons := by
  unfold applyUser
  exact whenDo_keep State.cons _ _ _ (raise_cons ..)
theorem storeUser_cons (u : UserRec) (s : State) : (storeUser u s).cons = s.cons := by
  unfold storeUser
  exact pcount_cons ..
theorem stitchCal_cons (s : State) : (stitchCal s).cons = s.cons := by
  unfold stitchCal
  split
  · rfl
  · exact (whenDo_keep State.cons _ _ _ (storeUser_cons ..)).trans (applyUser_cons ..)
theorem stitchFirst_cons (s : State) : (stitchFirst s).cons = s.cons := by
  unfold stitchFirst
  split
  · rfl
  · simp
theorem cellSchedule_cons (c : Nat) (s : State) : (cellSchedule c s).cons = s.cons := by
  unfold cellSchedule
  exact ite_keep State.cons ((setCell_cons ..).trans (setCell_cons ..)) (setCell_cons ..)
theorem cellNew_cons (c : Nat) (s : State) : (cellNew c s).cons = s.cons :=
  (cellSchedule_cons ..).trans (setCell_cons ..)
theorem stitchCell_cons (old new : List Word) (c : Nat) (s : State) : (stitchCell old new c s).cons = s.cons := by
  unfold stitchCell
  dsimp only
  split
  · split
    · exact setCell_cons ..
    · rfl
  · split
    · exact cellNew_cons ..
    · split
      · exact cellSchedule_cons ..
      · rfl
theorem stitchCells_cons (old : Bank) (s : State) : (stitchCells old s).cons = s.cons :=
  (forAll_keep State.cons _ (fun _ _ => stitchCell_cons ..) _ _).trans (forAll_keep State.cons _ (fun _ _ => setCell_cons ..) _ _)

/-- What a stitch sets in the consistency block, which a cut of a checkpoint leaves. -/
def stitchView (s : State) : Nat × Option Stitch × Bool × Word × Nat × Nat :=
  (s.cons.liveBank, s.cons.stitch, s.cons.rebaste, s.cons.seq, s.cons.sDt, s.cons.sIdx)

theorem giveItem_cons (m : Nat) (it : EItem) (s : State) : (giveItem m it s).cons = s.cons :=
  forAll_keep State.cons _ (fun _ _ => modEng_cons ..) _ _
theorem cutAt_cons (m : Nat) (s : State) : (cutAt m s).cons = s.cons :=
  (giveItem_cons ..).trans (forAll_keep State.cons _ (fun _ _ => modEng_cons ..) _ _)
theorem cutSoon_view (m i : Nat) (s : State) : stitchView (cutSoon m i s) = stitchView s := by
  unfold cutSoon
  split
  · unfold stitchView
    rw [cutAt_cons]
  · rfl

/-- The stitch: the banks change places, none is pending, a re-baste is owed, and the stitch is counted (R412, R413, R417). -/
theorem stitchAt_view (f : Nat → Nat) {s : State} (h : s.cons.stitch.isSome = true) :
    stitchView (stitchAt f s) = (1 - s.cons.liveBank, none, true, s.cons.seq + 1#32, s.dt, f 0) := by
  obtain ⟨x, hx⟩ := Option.isSome_iff_exists.mp h
  unfold stitchAt
  rw [hx]
  refine (forAll_keep stitchView _ (fun _ _ => cutSoon_view ..) _ _).trans ?_
  refine (whenDo_keep stitchView _ _ _ (congrArg (fun c : Cons => (c.liveBank, c.stitch, c.rebaste, c.seq, c.sDt, c.sIdx)) (raise_cons ..))).trans ?_
  refine (whenDo_keep stitchView _ _ _ (congrArg (fun c : Cons => (c.liveBank, c.stitch, c.rebaste, c.seq, c.sDt, c.sIdx)) (raise_cons ..))).trans ?_
  unfold stitchView
  rw [raise_cons, modCons_cons]
  have hparts : ∀ old t, (stitchCells old (stitchFirst (stitchCal (stitchProfile (stitchWin (forAll (List.range 512) stitchCarve
      (forAll (List.range 128) stitchLq t))))))).cons = t.cons := fun old t => by
    rw [stitchCells_cons, stitchFirst_cons, stitchCal_cons, stitchProfile_cons, stitchWin_cons,
      forAll_keep State.cons _ (fun _ _ => stitchCarve_cons ..), forAll_keep State.cons _ (fun _ _ => stitchLq_cons ..)]
  simp only [hparts, modCons_cons]

section
variable {s : State}

theorem stitchGo_takes (hf : stitchFree s = true) (hd : stitchDue s = true) :
    stitchGo s = stitchAt (fun m => if restarting s m then afterReleased s m else nextIdx s m) s := by
  unfold stitchGo
  exact if_pos (by simp [hf, hd])

/-! ## The re-baste -/

theorem rebasteGo_copies (hw : s.awake = true) (h1 : s.cons.rebaste = true) (h2 : s.cons.rebasteGo = true) (h3 : s.cons.rebasteRun = false)
    (h4 : oldBankWork s = false) :
    rebasteGo s = modCons (fun c => { c with rebasteRun := true }) (setBanks (stagingBank s) (devBank s) s) := by
  unfold rebasteGo
  exact if_pos (by simp [hw, h1, h2, h3, h4])

theorem rebasteEnd_ends (hw : s.awake = true) (h : s.cons.rebasteRun = true) :
    rebasteEnd s = raise 0xD030 4 { s with cons := { s.cons with rebaste := false, rebasteGo := false, rebasteRun := false } } := by
  unfold rebasteEnd
  exact if_pos (by simp [hw, h])

/-! ## Fittings -/

theorem fitCapture_captures {second : Bool} {f : Fit} {rest : List Fit} (hw : s.awake = true) (hf : s.cons.fits.drop (b2n second) = f :: rest)
    (hst : stitchFirstDue s = false) (hd : fitDue s f = true) (hr : s.seam.restarting = 0) (h0 : f.status = 0) :
    fitCapture second s = { s with cons := { s.cons with
      shadow := mapIns s.cons.shadow f.bank (fitRecord s f), fitSeq := s.cons.fitSeq + 1#32,
      fits := s.cons.fits.map (fun x => if x.bank = f.bank then { x with captured := true, captureDt := s.dt } else x) } } := by
  unfold fitCapture
  rw [hf]
  dsimp only
  rw [if_neg (by simp [hw, hst, hd, hr]), h0]
  rfl

theorem fitWritten_ends {bank : Nat} {f : Fit} {r : List Byte} (hf : s.cons.fits.find? (fun f => decide (f.bank = bank)) = some f)
    (hr : mapFind s.cons.shadow bank = some r) (hc : f.captured = true) (hu : s.hostUp = true) :
    fitWritten bank s = doneCmd f.cmd f.status (w32 f.captureDt) (w32 (f.captureDt / 0x100000000))
      (raise 0xD030 2 (hostWrites f.addr r { s with cons := { s.cons with
        fits := s.cons.fits.filter (fun x => x.bank ≠ bank), shadow := mapDel s.cons.shadow bank } })) := by
  unfold fitWritten
  rw [hf, hr]
  exact if_neg (by simp [hc, hu])
end

/-- Settles O51. -/
theorem stagedChanges : Obligations.StagedChanges := by
  intro s hw
  refine ⟨fun hf hd => ?stitch, fun f h => ?view, fun h1 h2 h3 h4 => ?rebaste, fun h => ?ends, fun second f rest hf hst hd hr h0 => ?capture,
    fun bank f r => ?written⟩
  case stitch =>
    have hexec : exec .stitchTakesEffect s = .next (settle s (flow (stitchGo s))) :=
      calc exec .stitchTakesEffect s = done s (core (fun s => flow (stitchGo s)) s) := rfl
        _ = _ := done_core _ hw
    exact exec_to hexec (congrArg flow (stitchGo_takes hf hd))
  case view =>
    have hview := stitchAt_view f h
    unfold stitchView at hview
    simpa only [Prod.mk.injEq] using hview
  case rebaste =>
    have hexec : exec .rebaste s = .next (settle s (rebasteGo s)) := done_core _ hw
    exact exec_to hexec (rebasteGo_copies hw h1 h2 h3 h4)
  case ends =>
    intro u
    have hexec : exec .rebasteDone s = .next (settle s (loadsGo (rebasteEnd s).cmds (rebasteEnd s))) :=
      calc exec .rebasteDone s
          = done s (core (fun s => if s.cons.rebasteRun then (let t := rebasteEnd s; loadsGo t.cmds t) else s) s) := rfl
        _ = _ := by rw [done_core _ hw, if_pos h]
    refine exec_to hexec ?_
    rw [rebasteEnd_ends hw h, raise_cmds]
  case capture =>
    have hexec : exec (.fittingCapture second) s = .next (settle s (fitCapture second s)) := done_core _ hw
    exact exec_to hexec (fitCapture_captures hw (by cases second <;> exact hf) hst hd hr h0)
  case written =>
    intro b hf hr hc hu
    have hb : b2n bank = b := by cases bank <;> rfl
    have hexec : exec (.fittingRecordWritten bank) s = .next (settle s (fitWritten (b2n bank) s)) := done_core _ hw
    rw [hb] at hexec
    exact exec_to hexec (fitWritten_ends hf hr hc hu)

end Sys2Proof.Machine
end

section
/-!
SUPPORT. Device time, the servo and PPS (O52).
-/
namespace Sys2Proof.Machine

/-! ## Writes of page 3 -/

/-- A write of a register of page 3 that captures ask no earlier value of. -/
theorem writeReg_tape {o : Nat} (v : Word) (s : State) (hp : o / 0x1000 = 3) (h : o < 0x3080 ∨ 0x30A4 ≤ o) :
    writeReg o v s = wrTape o v s := by
  have hd : dated o = false := decide_eq_false (by omega)
  unfold writeReg
  dsimp only
  rw [hd, whenDo_false, hp]
  rfl

/-! ## Numbers -/

theorem unsigned_signed (n v : Nat) : unsigned n (signed n v) = v % 2 ^ n := by
  have hlt : v % 2 ^ n < 2 ^ n := Nat.mod_lt _ (Nat.two_pow_pos n)
  have hcast : ((v % 2 ^ n : Nat) : Int) % (2 ^ n : Int) = ((v % 2 ^ n : Nat) : Int) := by
    rw [Int.emod_eq_of_lt (by omega)]
    exact_mod_cast hlt
  unfold unsigned signed
  split
  · exact (congrArg Int.toNat hcast).trans rfl
  · refine (congrArg Int.toNat ?_).trans (Int.toNat_natCast (v % 2 ^ n))
    rw [Int.sub_emod_right]
    exact hcast

theorem w32_unsigned_sInt (v : Word) : w32 (unsigned 32 (sInt v)) = v := by
  unfold sInt w32
  rw [unsigned_signed, Nat.mod_eq_of_lt v.isLt, BitVec.ofNat_toNat, BitVec.setWidth_eq]

/-! ## Steps -/

section
variable {s : State}

/-- The parts of the tape unit and of the state that a regrid leaves. -/
theorem regrid_tape (s : State) : (regrid s).tape.ofs = s.tape.ofs ∧ (regrid s).tape.clk = s.tape.clk ∧
    (regrid s).tape.chans = s.tape.chans := by
  have hkeep : ∀ {γ : Type} (g : Tape → γ), (∀ t n, g { t with ppsNext := n } = g t) → (∀ t m, g { t with strobes := m } = g t) →
      g (regrid s).tape = g s.tape := fun g hp hs => by
    unfold regrid
    dsimp only
    refine (forAll_keep (fun s : State => g s.tape) _ (fun n s => ?_) _ _).trans (hp ..)
    exact ite_keep (fun s : State => g s.tape) (hs ..) rfl
  exact ⟨hkeep _ (fun _ _ => rfl) (fun _ _ => rfl), hkeep _ (fun _ _ => rfl) (fun _ _ => rfl), hkeep _ (fun _ _ => rfl) (fun _ _ => rfl)⟩

theorem regrid_keep {γ : Type} (g : State → γ) (ht : ∀ s t, g { s with tape := t } = g s) (hc : ∀ s c, g { s with cells := c } = g s)
    (s : State) : g (regrid s) = g s :=
  (hc ..).trans ((forAll_keep g _ (fun _ s => ite_keep g (b := s) (x := g s) (ht ..) rfl) _ _).trans (ht ..))

theorem stepDt_keep {γ : Type} (g : State → γ) (ht : ∀ s t, g { s with tape := t } = g s) (hc : ∀ s c, g { s with cells := c } = g s)
    (hr : ∀ s o m, g (raise o m s) = g s) (d : Int) (s : State) : g (stepDt d s) = g s :=
  (hr ..).trans ((regrid_keep g ht hc _).trans ((ht ..).trans (ht ..)))

/-- What a step of DT does to the tape unit (R72, R73). -/
theorem stepDt_tape (d : Int) (s : State) : (stepDt d s).tape.ofs = s.tape.ofs + d ∧ (stepDt d s).tape.clk = s.tape.clk ∧
    (stepDt d s).tape.chans = s.tape.chans := by
  unfold stepDt
  dsimp only
  rw [raise_tape]
  obtain ⟨hofs, hclk, hchans⟩ := regrid_tape (modTape (fun t => { t with held := t.held.map (fun h =>
    match h.target with
    | .dt x => if 0 < d ∧ s.dt < x ∧ x ≤ (modTape (fun t => { t with steps := (t.clk, t.ofs) :: t.steps, ofs := t.ofs + d }) s).dt
      then { h with stepped := true } else h
    | _ => h) }) (modTape (fun t => { t with steps := (t.clk, t.ofs) :: t.steps, ofs := t.ofs + d }) s))
  exact ⟨hofs, hclk, hchans⟩

theorem stepDt_cause (d : Int) (s : State) : (stepDt d s).rb 0x3040 20 = true := by
  unfold stepDt State.rb bit
  dsimp only
  rw [State.reg_raise, if_pos rfl, BitVec.getLsbD_or, show (w32 0x100000).getLsbD 20 = true from by decide, Bool.or_true]

/-! ## FREQ -/

theorem setFreq_inRange {v : Word} (h1 : -0x20C49BA5 ≤ sInt v) (h2 : sInt v ≤ 0x20C49BA5) :
    setFreq v s = { s with tape := { s.tape with freq := v } } := by
  have hg : clampInt (-0x20C49BA5) 0x20C49BA5 (sInt v) = sInt v := by
    unfold clampInt
    rw [if_neg (by omega), if_neg (by omega)]
  unfold setFreq
  dsimp only
  rw [hg, w32_unsigned_sInt, decide_eq_false (by simp), whenDo_false]
  rfl

/-- A correction out of range saturates, with its cause (R71). -/
theorem setFreq_saturates {v : Word} {g : Int} (hg : clampInt (-0x20C49BA5) 0x20C49BA5 (sInt v) = g) (h : g ≠ sInt v) :
    setFreq v s = { raise 0x3040 0x80000 s with tape := { s.tape with freq := w32 (unsigned 32 g) } } := by
  unfold setFreq
  dsimp only
  rw [hg, decide_eq_true h, whenDo_true]
  unfold modTape
  rw [raise_tape]

/-! ## The servo -/

theorem servoTo_unlocked {st : Nat} (h : s.tape.servo ≠ 2) :
    servoTo st s = { s with tape := { s.tape with servo := st, lockCnt := 0 } } := by
  unfold servoTo
  rw [decide_eq_false (fun h' => h h'.1), whenDo_false]
  rfl
theorem servoTo_unlocks {st : Nat} (h : s.tape.servo = 2) (hst : st ≠ 2) :
    servoTo st s = { raise 0x3040 0x40000 s with tape := { s.tape with servo := st, lockCnt := 0 } } := by
  unfold servoTo
  rw [decide_eq_true ⟨h, hst⟩, whenDo_true]
  dsimp only
  unfold modTape
  rw [raise_tape]

theorem servoSample_locked {off : Int} (h : s.tape.servo = 2) (hf : 2 ^ (s.rf 0x3020 5 3) * 1000 < off.natAbs) :
    servoSample off s = servoTo 1 s := by
  unfold servoSample
  dsimp only
  rw [h]
  exact if_pos (decide_eq_true hf)
theorem servoSample_hold (off : Int) (h : s.tape.servo = 3) : servoSample off s = servoTo 1 s := by
  unfold servoSample
  dsimp only
  rw [h]
  rfl
theorem servoSample_far {off : Int} (h : s.tape.servo = 1) (hf : 2 ^ (s.rf 0x3020 5 3) * 1000 < off.natAbs)
    (hn : 2 ^ (s.rf 0x3020 8 4) < off.natAbs) : servoSample off s = modTape (fun t => { t with lockCnt := 0 }) (stepDt (-off) s) := by
  unfold servoSample
  dsimp only
  rw [h, decide_eq_true hf, decide_eq_false (by omega)]
  rfl

theorem wrDisc_eq (v : Word) : wrDisc v s = if field v 0 2 = 0 then servoTo 0 (s.setReg 0x3020 (v &&& 0xFFFF#32))
    else if field v 0 2 ≠ s.rf 0x3020 0 2 then servoTo 1 (s.setReg 0x3020 (v &&& 0xFFFF#32)) else s.setReg 0x3020 (v &&& 0xFFFF#32) := rfl

theorem servoMiss_pps (h1 : s.rf 0x3020 0 2 = 1) (h2 : s.tape.servo = 2) :
    servoMiss s = raise 0x3040 0x10000 (raise 0x3040 0x40000 (servoTo 3 s)) := by
  unfold servoMiss
  dsimp only
  rw [h1, if_pos ⟨by decide, .inr h2⟩]
  rfl

/-- A cause raised does not look at the servo. -/
theorem raise_servo (o m x y : Nat) : raise o m { s with tape := { s.tape with servo := x, lockCnt := y } } =
    { raise o m s with tape := { s.tape with servo := x, lockCnt := y } } := rfl

/-! ## PPS -/

theorem ppsIn_notSource (age : Nat) (h : s.rf 0x3020 0 2 ≠ 1) :
    ppsIn age s = (s.setReg 0x3028 (w32 (capture s (age + trimPs s 124) 25 0 false).dt)).setReg 0x302C
      (w32 ((capture s (age + trimPs s 124) 25 0 false).dt / 0x100000000)) := by
  unfold ppsIn
  exact if_neg h

theorem ppsOut_drives {d : Nat} (hd : s.tape.ppsNext = some d) (hle : d ≤ s.dt) (h0 : s.rb 0x3030 0 = true) :
    ppsOut s = emit (.pin 4 (!s.rb 0x3030 1)) { s with tape := { s.tape with ppsActive := true, ppsNext := some (d + 1000000000) } } := by
  unfold ppsOut
  rw [hd]
  exact if_pos ⟨h0, hle⟩
theorem ppsEnd_returns (h : s.tape.ppsActive = true) :
    ppsEnd s = emit (.pin 4 (s.rb 0x3030 1)) { s with tape := { s.tape with ppsActive := false } } := by
  unfold ppsEnd
  exact if_pos h
end

/-- Settles O52. -/
theorem clockKept : Obligations.ClockKept := by
  intro s a v u
  have hutape : u.tape = s.tape := agentPre_tape ..
  have hwrite : ∀ {i o w t}, exec i s = done s (core (agentWrite a o w) s) → agentMayWrite a s o w = true → o / 0x1000 = 3 →
      (o < 0x3080 ∨ 0x30A4 ≤ o) → wrTape o w u = t → exec i s = .next (settle s (agentDone a o s t)) := fun {i o w t} hi hmay hp hd h => by
    rw [hi, done_agentWrite hmay, writeReg_tape _ _ hp hd, h]
  refine ⟨fun hmay => ?step, fun d => ?stepped, fun hmay => ⟨fun h => ?freq, fun h => ?noFreq⟩, setFreq_inRange, fun h => ?above, fun h => ?below,
    fun hmay => ?valid, fun hmay => ?disc, fun hmay => ?offs, fun off => ⟨fun h hf => ?locked, fun h => ?hold, fun h hf hn => servoSample_far h hf hn⟩,
    fun hw => ⟨fun age h => ?ppsIn, fun h1 h2 => ?miss, fun d hd hle h0 => ?ppsOut, fun h => ?ppsEnd⟩⟩
  case step =>
    refine hwrite rfl hmay (by decide) (by decide) ?_
    show wrStepHi v u = _
    unfold wrStepHi
    rw [agentPre_at_reg]
  case stepped =>
    obtain ⟨hofs, hclk, hchans⟩ := stepDt_tape d s
    exact ⟨hofs, hclk, stepDt_cause d s, hchans, stepDt_keep State.store (fun _ _ => rfl) (fun _ _ => rfl) raise_store d s,
      stepDt_keep State.engs (fun _ _ => rfl) (fun _ _ => rfl) raise_engs d s⟩
  case freq =>
    exact hwrite rfl hmay (by decide) (by decide) (if_pos ((agentPre_at_rf ..).trans h))
  case noFreq =>
    exact hwrite rfl hmay (by decide) (by decide) (if_neg (fun h' => h ((agentPre_at_rf ..).symm.trans h')))
  case above =>
    exact setFreq_saturates (g := 0x20C49BA5) (by unfold clampInt; rw [if_neg (by omega), if_pos h]) (by omega)
  case below =>
    exact setFreq_saturates (g := -0x20C49BA5) (by unfold clampInt; rw [if_pos h]) (by omega)
  case valid =>
    refine hwrite rfl hmay (by decide) (by decide) ?_
    show modTape (fun t => { t with dtValid := true }) u = _
    unfold modTape
    rw [hutape]
  case disc =>
    intro r
    refine hwrite rfl hmay (by decide) (by decide) ?_
    show wrDisc v u = _
    rw [wrDisc_eq, agentPre_at_rf]
  case offs =>
    refine hwrite rfl hmay (by decide) (by decide) ?_
    show (if 2 ≤ u.rf 0x3020 0 2 then servoSample (sInt v) u else u) = _
    rw [agentPre_at_rf]
  case locked => rw [servoSample_locked h hf, servoTo_unlocks h (by decide)]
  case hold => rw [servoSample_hold off h, servoTo_unlocked (by rw [h]; decide)]
  case ppsIn =>
    intro c
    have hexec : exec (.ppsInEdge age) s = .next (settle s (ppsIn age s)) := done_core _ hw
    exact exec_to hexec (ppsIn_notSource age h)
  case miss =>
    have hexec : exec .servoHold s = .next (settle s (servoMiss s)) := done_core _ hw
    have hto : servoTo 3 s = raise 0x3040 0x40000 { s with tape := { s.tape with servo := 3, lockCnt := 0 } } :=
      (servoTo_unlocks h2 (by decide)).trans (raise_servo ..).symm
    exact exec_to hexec (by rw [servoMiss_pps h1 h2, hto])
  case ppsOut =>
    have hexec : exec .ppsOutEdge s = .next (settle s (ppsOut s)) := done_core _ hw
    exact exec_to hexec (ppsOut_drives hd hle h0)
  case ppsEnd =>
    have hexec : exec .ppsOutPulseEnd s = .next (settle s (ppsEnd s)) := done_core _ hw
    exact exec_to hexec (ppsEnd_returns h)

end Sys2Proof.Machine
end

section
/-!
SUPPORT. Phase channels and strobes (O53, O54): reference events by the channel's state, and the writes of their registers.
-/
namespace Sys2Proof.Machine

/-! ## Reference events -/

section
variable {v : State} {n : Nat} {e : RefEv}

/-- The direction of a reference event. -/
def evDir (e : RefEv) : Int := if e.step < 0 then -1 else 1

/-- The channel with the settings in force from the event on. -/
def evSet (v : State) (n : Nat) : State := v.setChan n (evSettings v n (v.chan n))

theorem chanEvent_lost (hm : prMode (v.reg (prOff n 0)) ≠ 2) (hst : chanSt (v.chan n) = 4) : (chanEvent n false e v).1 =
    enterAcquire n ((chanPos (v.chan n) e.te + turn) / turn * turn + prOfs (v.reg (prOff n 8))) e.te (evDir e) true (evSet v n) := by
  have hreg : prMode ((evSet v n).reg (prOff n 0)) ≠ 2 := hm
  have hset : v.setChan n (evSettings v n (v.chan n)) = evSet v n := rfl
  unfold chanEvent
  dsimp only
  rw [hset, hst]
  refine Eq.trans (b := enterAcquire n _ e.te (evDir e) true (if prMode ((evSet v n).reg (prOff n 0)) = 2 then _ else evSet v n)) rfl ?_
  rw [if_neg hreg]

theorem chanEvent_acquireBad (hst : chanSt (v.chan n) = 1) (hb : e.bad = true) :
    let w := enterAcquire n (e.pos.getD (chanPos (v.chan n) e.te)) e.te (evDir e) true (inputErr n (evSet v n))
    (chanEvent n false e v).1 = carriedPast n (chanPos (v.chan n) v.now) (chanPos (w.chan n) v.now) w := by
  unfold chanEvent
  dsimp only
  rw [hst, hb]
  simp only [Bool.true_or, if_true]
  rfl

/-- Whether an event has a position whose phase error is below a bound. -/
def errBelow (v : State) (n : Nat) (e : RefEv) (b : Nat) : Bool :=
  e.pos.any (fun p => decide ((phaseErr (chanPos (v.chan n) e.te) p).natAbs < b))

theorem chanEvent_acquireGood (hst : chanSt (v.chan n) = 1) (hb : e.bad = false) :
    let g := if errBelow v n e 0x400000000000000 then (v.chan n).good + 1 else 0
    (chanEvent n false e v).1 = if 16 ≤ g then raise 0x3040 (2 ^ (8 + n)) (loopOn n 2 g e v) else loopOn n 1 g e v := by
  intro g
  have hg : (if e.pos.any (fun p => decide ((phaseErr (chanPos (v.chan n) e.te) p).natAbs < 0x400000000000000)) then
      (v.chan n).good + 1 else 0) = g := rfl
  unfold chanEvent
  dsimp only
  rw [hst, hb]
  simp only [Bool.or_self, Bool.false_eq_true, if_false]
  rw [hg]
  split <;> rfl

theorem chanEvent_track (hst : chanSt (v.chan n) = 2) : (chanEvent n false e v).1 = loopOn n 2 (v.chan n).good e v := by
  unfold chanEvent
  dsimp only
  rw [hst]
  rfl

theorem chanEvent_holdover (hst : chanSt (v.chan n) = 3) (he : errBelow v n e 0x2000000000000000 = true) :
    (chanEvent n false e v).1 = raise 0x3040 (2 ^ (8 + n)) (loopOn n 2 (v.chan n).good e v) := by
  have hall : e.pos.all (fun p => decide ((phaseErr (chanPos (v.chan n) e.te) p).natAbs < 0x2000000000000000)) = true := by
    unfold errBelow at he
    cases hp : e.pos with
    | none => rfl
    | some p =>
      rw [hp] at he
      exact he
  unfold chanEvent
  dsimp only
  rw [hst]
  simp only [Bool.false_eq_true, if_false]
  rw [if_pos hall]
end

/-! ## What comes to a channel -/

section
variable {s : State} {n : Nat}

/-- The zero crossing of a channel at an elapsed instant, not blanked. -/
def zcEv (s : State) (n te : Nat) : RefEv :=
  { te := te, pos := some (evPos (s.chan n) te (prOfs (s.reg (prOff n 8))) turn), step := turn, iv := (s.chan n).lastEv.map (te - ·),
    bad := ((s.chan n).lastEv.map (te - ·)).any (fun i => outside i (1000 * (s.reg (prOff n 4)).toNat)) }

theorem refEvent_zc (b : Bool) (age : Nat) (hm : prMode (s.reg (prOff n 0)) = 1) (hb : field (s.chan n).cfg 16 2 = 0)
    (hst : chanSt (s.chan n) ≠ 0) :
    refEvent n 0 b age s = (chanEvent n false (zcEv s n (s.now - (age + trimPs s (112 + 3 * n)))) s).1 := by
  have hblank : ∀ iv, blanked (s.chan n) iv = false := fun iv => by
    unfold blanked
    cases iv <;> simp [hb]
  unfold refEvent
  dsimp only
  rw [if_neg hst, if_neg (by decide), hm, if_neg (by simp)]
  refine Eq.trans (b := zcEvent n _ s) rfl ?_
  unfold zcEvent
  dsimp only
  rw [hblank, if_neg (by simp)]
  rfl

theorem refEvent_illegal (b : Bool) (age : Nat) (hm : prMode (s.reg (prOff n 0)) = 2) (hst : chanSt (s.chan n) ≠ 0) :
    refEvent n 3 b age s = inputErr n s := by
  unfold refEvent
  dsimp only
  rw [if_neg hst, hm]
  rfl

theorem toHoldover_goes (hst : chanSt (s.chan n) = 2) (hq : ¬(prMode (s.reg (prOff n 0)) = 2 ∧ bit (s.reg (prOff n 0)) 7 = true)) :
    toHoldover n s = raise 0x3040 (2 ^ n) (s.setChan n
      ((s.chan n).push { (s.chan n).segs.head?.getD {} with t := s.now, st := 3, pos := chanPos (s.chan n) s.now })) := by
  unfold toHoldover
  exact if_pos ⟨hst, hq⟩
theorem toLost_goes (hst : chanSt (s.chan n) = 1 ∨ chanSt (s.chan n) = 3) : toLost n s = raise 0x3040 (2 ^ (4 + n)) (enterLost n 4 s) := by
  unfold toLost
  exact if_pos (hst.elim .inl (.inr ∘ .inl))
theorem qeStop_stops (hst : chanSt (s.chan n) = 2) (hm : prMode (s.reg (prOff n 0)) = 2) (h7 : bit (s.reg (prOff n 0)) 7 = true) :
    qeStop n s = s.setChan n { ((s.chan n).push { t := s.now, st := 2, pos := qePos s n (s.chan n).ofs (s.chan n).qcnt, rate := 0 }) with
      freq := 0 } := by
  unfold qeStop
  exact if_pos ⟨hst, hm, h7⟩

/-! ## A write of TP_PRn_CFG -/

theorem prOff_page (hn : n < 4) {r : Nat} (hr : r < 0x40) : prOff n r / 0x1000 = 3 ∧ 0x30A4 ≤ prOff n r ∧ 0x3100 ≤ prOff n r ∧
    prOff n r < 0x3200 ∧ (prOff n r - 0x3100) / 0x40 = n ∧ prOff n r % 0x40 = r := by
  unfold prOff
  omega

theorem writeReg_prCfg (hn : n < 4) (v : Word) : writeReg (prOff n 0) v s = wrPr n false v s := by
  obtain ⟨hp, hd, h1, h2, hnum, hreg⟩ := prOff_page hn (show 0 < 0x40 by decide)
  rw [writeReg_tape v s hp (.inr hd)]
  unfold wrTape
  dsimp only
  rw [if_neg (by omega), if_neg (by omega), if_neg (by omega), if_neg (by omega), if_neg (by omega), if_neg (by omega),
    if_pos ⟨h1, h2⟩, hnum, hreg]
  rfl
theorem writeReg_prExt (hn : n < 4) (v : Word) : writeReg (prOff n 0x1C) v s = wrExt n v s := by
  obtain ⟨hp, hd, h1, h2, hnum, hreg⟩ := prOff_page hn (show 0x1C < 0x40 by decide)
  rw [writeReg_tape v s hp (.inr hd)]
  unfold wrTape
  dsimp only
  rw [if_neg (by omega), if_neg (by omega), if_neg (by omega), if_neg (by omega), if_neg (by omega), if_neg (by omega),
    if_pos ⟨h1, h2⟩, hnum, hreg]
  rfl

variable {v : Word}

theorem wrPr_same (h1 : prMode (v &&& 0x0FFFFFFF#32) = prMode (s.reg (prOff n 0)))
    (h2 : field (v &&& 0x0FFFFFFF#32) 3 1 = field (s.reg (prOff n 0)) 3 1)
    (h3 : field (v &&& 0x0FFFFFFF#32) 26 2 = field (s.reg (prOff n 0)) 26 2) :
    wrPr n false v s = s.setReg (prOff n 0) (v &&& 0x0FFFFFFF#32) := by
  unfold wrPr
  simp only [Bool.false_eq_true, if_false]
  exact if_pos (decide_eq_false (by rw [h1, h2, h3]; simp))

theorem wrPr_restarts (h1 : prMode (v &&& 0x0FFFFFFF#32) ≠ prMode (s.reg (prOff n 0))) (h0 : prMode (v &&& 0x0FFFFFFF#32) ≠ 0)
    (hst : chanSt (s.chan n) = 2) : wrPr n false v s =
      chanStart n (raise 0x3040 (2 ^ (4 + n)) (enterLost n 4 (s.setReg (prOff n 0) (v &&& 0x0FFFFFFF#32)))) := by
  have hoff : decide (prMode ((s.setReg (prOff n 0) (v &&& 0x0FFFFFFF#32)).reg (prOff n 0)) = 0) = false := by
    rw [State.reg_setReg, if_pos rfl]
    exact decide_eq_false h0
  have hchanged : decide (prMode (s.reg (prOff n 0)) ≠ prMode (v &&& 0x0FFFFFFF#32) ∨
      field (s.reg (prOff n 0)) 3 1 ≠ field (v &&& 0x0FFFFFFF#32) 3 1 ∨
      field (s.reg (prOff n 0)) 26 2 ≠ field (v &&& 0x0FFFFFFF#32) 26 2) = true := decide_eq_true (.inl (Ne.symm h1))
  unfold wrPr
  simp only [Bool.false_eq_true, if_false]
  rw [hchanged, if_neg (c := true = false) (by simp), hoff, hst, if_pos (c := 2 = 1 ∨ 2 = 2 ∨ 2 = 3) (by decide)]
  rfl

theorem chanStart_noQe (hm : prMode (s.reg (prOff n 0)) ≠ 2) :
    let here := chanPos (s.chan n) s.now
    chanStart n s = enterAcquire n here s.now 1 false (s.setChan n
      { (evSettings s n (s.chan n)) with qcnt := here / turn * Int.ofNat (prCpr s n), extDt := none }) := by
  unfold chanStart
  dsimp only
  rw [decide_eq_false hm, if_neg (by simp)]

/-! ## A write of TP_PRn_EXT -/

theorem wrExt_old {d : Nat} {l : Nat} (hd : (mkD (s.reg (prOff n 0x24)) (s.reg (prOff n 0x20))).toNat = d)
    (hm : prMode (s.reg (prOff n 0)) = 4) (hst : chanSt (s.chan n) ≠ 0) (hl : (s.chan n).extDt = some l) (h : d ≤ l) :
    wrExt n v s = inputErr n s := by
  unfold wrExt
  dsimp only
  rw [hd, if_neg (by simp [hm, hst]), if_pos (by simp [hl, h])]

/-- An external sample at a DT, as the loop takes it (R87). -/
def extEv (s : State) (n d : Nat) (v : Word) : RefEv :=
  let c := s.chan n
  let te := ((Int.ofNat d - s.tape.ofs) * 1000).toNat
  let own := chanPos c te / turn
  let pos := (own + signed 8 (unsigned 8 (Int.ofNat (field v 24 8) - own))) * turn + Int.ofNat (field v 0 24) * 0x10000000000
  { te := te, pos := some pos, step := (c.base.map (pos - ·)).getD turn, iv := c.lastEv.map (te - ·),
    bad := (c.lastEv.map (te - ·)).any (fun i => outside i (1000 * (s.reg (prOff n 4)).toNat)) }

theorem wrExt_new {d : Nat} (hd : (mkD (s.reg (prOff n 0x24)) (s.reg (prOff n 0x20))).toNat = d) (hm : prMode (s.reg (prOff n 0)) = 4)
    (hst : chanSt (s.chan n) ≠ 0) (hl : (s.chan n).extDt = none ∨ ∃ l, (s.chan n).extDt = some l ∧ l < d) :
    wrExt n v s = (chanEvent n false (extEv s n d v) (s.setChan n { s.chan n with extDt := some d })).1 := by
  have hany : (s.chan n).extDt.any (fun e => decide (d ≤ e)) = false := by
    rcases hl with hl | ⟨l, hl, hlt⟩
    · rw [hl]
      rfl
    · rw [hl]
      exact decide_eq_false (by omega)
  unfold wrExt extEv
  dsimp only
  rw [hd, if_neg (by simp [hm, hst]), if_neg (by rw [hany]; simp)]
  cases (s.chan n).base <;> rfl
end

theorem agentPre_chan (a : Nat) (s : State) (n : Nat) : (agentPre a s).chan n = s.chan n := by
  unfold State.chan
  rw [agentPre_tape]

/-- Settles O53. -/
theorem phaseChannels : Obligations.PhaseChannels := by
  intro s ch c cfg inErr
  refine ⟨fun v e hm => ?events, fun hw => ⟨fun b age hm hb hst => ?zc, fun age hm hst => ?illegal, fun hst hq => ?holdover, fun hst => ?lost,
    fun hst hm h7 => ?still⟩, fun a v hmay => ?cfg, fun v hm => chanStart_noQe hm, fun a v hmay hm hst => ?ext⟩
  case events =>
    intro d here dir u err
    refine ⟨fun h => chanEvent_lost hm h, fun h hb => chanEvent_acquireBad h hb, fun h hb => ?_, fun h => chanEvent_track h,
      fun h he => chanEvent_holdover h (of_decide_eq_true he)⟩
    intro g
    have hg : (if errBelow v ch e 0x400000000000000 then (v.chan ch).good + 1 else 0) = g := by
      simp only [g, err, d, here, decide_eq_true_eq]
      rfl
    rw [chanEvent_acquireGood h hb, hg]
  case zc =>
    intro te e
    have hexec : exec (.referenceEvent ch (if b then 4 else 0) age) s = .next (settle s (refEvent ch 0 b age s)) := by
      cases b <;> exact done_core _ hw
    exact exec_to hexec (refEvent_zc b age hm hb hst)
  case illegal =>
    have hexec : exec (.referenceEvent ch 3 age) s = .next (settle s (refEvent ch 3 false age s)) := done_core _ hw
    exact exec_to hexec (refEvent_illegal false age hm hst)
  case holdover =>
    have hexec : exec (.holdover ch) s = .next (settle s (toHoldover ch s)) := done_core _ hw
    exact exec_to hexec (toHoldover_goes hst hq)
  case lost =>
    have hexec : exec (.lost ch) s = .next (settle s (toLost ch s)) := done_core _ hw
    exact exec_to hexec (toLost_goes hst)
  case still =>
    have hexec : exec (.qeStillStop ch) s = .next (settle s (qeStop ch s)) := done_core _ hw
    exact exec_to hexec (qeStop_stops hst hm h7)
  case cfg =>
    intro new u
    have hexec : exec (.phaseChannelCfgWrite a ch false v) s =
        .next (settle s (agentDone a (prOff ch 0) s (wrPr ch false v (agentPre a s)))) := by
      rw [← writeReg_prCfg ch.isLt v]
      exact done_agentWrite hmay
    refine ⟨fun h1 h2 h3 => exec_to hexec (congrArg (agentDone a (prOff ch 0) s) (wrPr_same ?_ ?_ ?_)),
      fun h1 h0 hst => exec_to hexec (congrArg (agentDone a (prOff ch 0) s) (wrPr_restarts ?_ h0 ?_))⟩
    · rw [agentPre_at_reg]; exact h1
    · rw [agentPre_at_reg]; exact h2
    · rw [agentPre_at_reg]; exact h3
    · rw [agentPre_at_reg]; exact h1
    · rw [agentPre_chan]; exact hst
  case ext =>
    intro d u x ends te own pos e
    have hx : ∀ {t}, wrExt ch v u = t → x = ends t := fun {t} h =>
      calc x = .next (settle s (agentDone a (prOff ch 0x1C) s (writeReg (prOff ch 0x1C) v u))) := done_agentWrite hmay
        _ = _ := by rw [writeReg_prExt ch.isLt, h]
    have hd : (mkD (u.reg (prOff ch 0x24)) (u.reg (prOff ch 0x20))).toNat = d := by simp only [u, agentPre_at_reg, d]
    have hum : prMode (u.reg (prOff ch 0)) = 4 := (congrArg prMode (agentPre_at_reg ..)).trans hm
    have huc : u.chan ch = c := agentPre_chan ..
    have hev : extEv u ch d v = e := by
      unfold extEv
      rw [huc, agentPre_tape, agentPre_at_reg]
    refine ⟨fun hl => hx ?_, fun l hl h => hx (wrExt_old hd hum (by rw [huc]; exact hst) (by rw [huc]; exact hl) h)⟩
    rw [wrExt_new hd hum (by rw [huc]; exact hst) (by rw [huc]; exact hl), hev, huc]

/-! ## Strobes -/

section
variable {s : State} {n : Nat} {w : Word}

theorem writeReg_strobe (hn : n < 4) {r : Nat} (hr : r < 6) (w : Word) (s : State) : writeReg (poOff n (4 * r)) w s = wrStrobe n r w s := by
  have hp : poOff n (4 * r) / 0x1000 = 3 := by unfold poOff; omega
  have hnum : (poOff n (4 * r) - 0x3300) / 0x20 = n := by unfold poOff; omega
  have hreg : poOff n (4 * r) % 0x20 / 4 = r := by unfold poOff; omega
  have hin : 0x3300 ≤ poOff n (4 * r) ∧ poOff n (4 * r) < 0x3380 ∧ poOff n (4 * r) % 0x20 < 0x18 := by unfold poOff; omega
  rw [writeReg_tape w s hp (.inr (by omega))]
  unfold wrTape
  dsimp only
  rw [if_neg (by omega), if_neg (by omega), if_neg (by omega), if_neg (by omega), if_neg (by omega), if_neg (by omega),
    if_neg (by omega), if_pos hin, hnum, hreg]

theorem wrStrobe_disables (h : bit w 0 = false) : wrStrobe n 0 w s =
    (s.setReg (poOff n 0) (w &&& 0xFF7F#32)).setStrobe n { s.strobe n with next := none } := by
  have hon : (s.setReg (poOff n 0) (w &&& 0xFF7F#32)).rb (poOff n 0) 0 = false := by
    unfold State.rb bit
    rw [State.reg_setReg, if_pos rfl, BitVec.getLsbD_and, show w.getLsbD 0 = false from h, Bool.false_and]
  unfold wrStrobe
  simp only [Nat.mul_zero, if_true]
  rw [hon, if_pos rfl, if_neg (by simp)]
  rfl

theorem wrStrobe_width (h : s.rb (poOff n 0) 0 = true) : wrStrobe n 2 w s = s.setReg (poOff n 8) (w &&& 0xFFFFFF#32) := by
  have hon : (s.setReg (poOff n 8) (w &&& 0xFFFFFF#32)).rb (poOff n 0) 0 = true := by
    unfold State.rb
    rw [State.reg_setReg, if_neg (by unfold poOff; omega)]
    exact h
  unfold wrStrobe
  dsimp only
  rw [if_neg (c := 2 = 0) (by decide), if_pos (c := 2 ≤ 2) (by decide), show 4 * 2 = 8 from rfl, hon, if_neg (c := true = false) (by simp),
    if_pos (c := decide (2 ≠ 2 ∧ 2 ≠ 4) = false) (by decide)]
  exact if_neg (by simp)

theorem strobeDue_of_next {d : Nat} (hm : poMode s n ≠ 0) (he : s.rb (poOff n 0) 0 = true) (hd : (s.strobe n).next = some d) (hle : d ≤ s.dt) :
    strobeDue s n = true := by
  unfold strobeDue
  rw [he, if_neg hm, hd]
  exact decide_eq_true hle

theorem strobeGo_period {d : Nat} (he : s.rb (poOff n 0) 0 = true) (hd : (s.strobe n).next = some d) (hle : d ≤ s.dt) (hm : poMode s n = 1)
    (hp : (s.reg (poOff n 0x0C)).toNat ≠ 0) : strobeGo n s =
      poFire n (s.setStrobe n { s.strobe n with next := some (d + (s.reg (poOff n 0x0C)).toNat) }) := by
  unfold strobeGo
  dsimp only
  rw [strobeDue_of_next (by rw [hm]; decide) he hd hle, if_neg (by simp), if_neg (by rw [hm]; decide), if_pos hm, hd]
  dsimp only [Option.bind]
  rw [if_neg hp]

theorem strobeGo_oneshot {d : Nat} (he : s.rb (poOff n 0) 0 = true) (hd : (s.strobe n).next = some d) (hle : d ≤ s.dt)
    (hm : poMode s n = 2) : strobeGo n s = poFire n s := by
  unfold strobeGo
  dsimp only
  rw [strobeDue_of_next (by rw [hm]; decide) he hd hle, if_neg (by simp), if_neg (by rw [hm]; decide), if_neg (by rw [hm]; decide)]

theorem poFire_starts (hm : poMode s n ≠ 2) (ha : (s.strobe n).active = false) : poFire n s =
    emit (.pin n (!s.rb (poOff n 0) 5)) (s.setStrobe n { s.strobe n with active := true }) := by
  unfold poFire
  dsimp only
  rw [if_neg hm, ha, whenDo_false]
  unfold poDrive
  rw [Bool.true_bne]
  rfl

theorem reg_overlap (s : State) (n : Nat) : (raise 0x3040 0x800000 s).reg (poOff n 0) = s.reg (poOff n 0) := by
  rw [State.reg_raise, if_neg (by unfold poOff; omega)]

@[simp] theorem strobe_setStrobe (s : State) (n : Nat) (x : Strobe) : (s.setStrobe n x).strobe n = x := by
  unfold State.strobe State.setStrobe
  simp
theorem strobe_emit (x : Output) (s : State) (n : Nat) : (emit x s).strobe n = s.strobe n := by
  unfold State.strobe
  rw [emit_tape]

/-- The active level of a one-shot strobe that restarts. -/
def overlapDriven (n : Nat) (s : State) : State :=
  emit (.pin n (!s.rb (poOff n 0) 5)) ((raise 0x3040 0x800000 s).setStrobe n { s.strobe n with active := true })

theorem overlapDriven_reg (n : Nat) (s : State) : (overlapDriven n s).reg (poOff n 0) = s.reg (poOff n 0) := by
  unfold overlapDriven
  exact (congrArg (mapGet regReset · (poOff n 0)) (emit_regs ..)).trans (reg_overlap s n)
theorem overlapDriven_strobe (n : Nat) (s : State) : (overlapDriven n s).strobe n = { s.strobe n with active := true } := by
  unfold overlapDriven
  rw [strobe_emit, strobe_setStrobe]

theorem poFire_oneshot (hm : poMode s n = 2) (ha : (s.strobe n).active = true) : poFire n s =
    touch (poOff n 0) 1 (((overlapDriven n s).setReg (poOff n 0) (setField (s.reg (poOff n 0)) 0 1 0)).setStrobe n
      { s.strobe n with active := true, next := none }) := by
  have hdrive : poDrive n true ((raise 0x3040 0x800000 s).setStrobe n { s.strobe n with active := true }) = overlapDriven n s := by
    have hrb : ((raise 0x3040 0x800000 s).setStrobe n { s.strobe n with active := true }).rb (poOff n 0) 5 = s.rb (poOff n 0) 5 :=
      congrArg (bit · 5) (reg_overlap s n)
    unfold poDrive overlapDriven
    rw [hrb, Bool.true_bne]
  unfold poFire
  dsimp only
  rw [if_pos hm, ha, whenDo_true, hdrive, overlapDriven_reg, overlapDriven_strobe]

theorem strobeEnd_returns (ha : (s.strobe n).active = true) :
    strobeEnd n s = emit (.pin n (s.rb (poOff n 0) 5)) (s.setStrobe n { s.strobe n with active := false }) := by
  unfold strobeEnd
  dsimp only
  rw [if_pos ha]
  unfold poDrive
  rw [Bool.false_bne]
  rfl
end

theorem agentPre_strobe (a : Nat) (s : State) (n : Nat) : (agentPre a s).strobe n = s.strobe n := by
  unfold State.strobe
  rw [agentPre_tape]

/-- Settles O54. -/
theorem strobesFire : Obligations.StrobesFire := by
  intro s po cfg v
  refine ⟨fun a w hmay h => ?off, fun a w hmay h => ?width, fun d hw htf he hd hle => ?edge, fun hw ha => ?ends⟩
  case off =>
    have hexec : exec (.strobeWrite a po 0 w) s = .next (settle s (agentDone a cfg s (writeReg (poOff po (4 * 0)) w (agentPre a s)))) :=
      done_agentWrite hmay
    refine exec_to hexec (congrArg (agentDone a cfg s) ?_)
    rw [writeReg_strobe po.isLt (by decide), wrStrobe_disables h, agentPre_strobe]
  case width =>
    have hexec : exec (.strobeWrite a po 2 w) s =
        .next (settle s (agentDone a (poOff po 8) s (writeReg (poOff po (4 * 2)) w (agentPre a s)))) := done_agentWrite hmay
    refine exec_to hexec (congrArg (agentDone a (poOff po 8) s) ?_)
    rw [writeReg_strobe po.isLt (by decide), wrStrobe_width (by rw [agentPre_at_rb]; exact h)]
  case edge =>
    intro p
    have hexec : exec (.strobeEdge po) s = .next (settle s (strobeGo po s)) :=
      calc exec (.strobeEdge po) s = done s (core (fun s => if timedFirst s then s else strobeGo po s) s) := rfl
        _ = _ := by rw [done_core _ hw, if_neg (by simp [htf])]
    refine ⟨fun hm hp ha => exec_to hexec ?_, fun hm ha => exec_to hexec ?_⟩
    · refine (strobeGo_period he hd hle hm hp).trans
        ((poFire_starts (s := s.setStrobe po { s.strobe po with next := some (d + p) }) (fun h => ?_) ?_).trans ?_)
      · exact absurd (hm.symm.trans h) (by decide)
      · rw [strobe_setStrobe]; exact ha
      · rw [strobe_setStrobe]; rfl
    · rw [strobeGo_oneshot he hd hle hm, poFire_oneshot hm ha]
      rfl
  case ends =>
    have hexec : exec (.strobePulseEnd po) s = .next (settle s (strobeEnd po s)) := done_core _ hw
    exact exec_to hexec (strobeEnd_returns ha)

end Sys2Proof.Machine
end

section
/-!
SUPPORT. The peer link (R390 to R395): training, flits, replays, the fall of the link and sentence frames.
-/
namespace Sys2Proof.Machine

/-- A write of page C is the link's own. -/
theorem writeReg_peer {o : Nat} (v : Word) (s : State) (hp : o / 0x1000 = 0xC) : writeReg o v s = wrPeer o v s := by
  have hd : dated o = false := decide_eq_false (by omega)
  unfold writeReg
  dsimp only
  rw [hd, whenDo_false, hp]
  rfl

theorem writeReg_pbCtrl (v : Word) (s : State) : writeReg 0xC000 v s = wrPbCtrl v s := writeReg_peer v s (by decide)

theorem bit_or_self (v : Word) (i : Nat) (m : Word) (hm : bit m i = true) : bit (v ||| m) i = true := by
  unfold bit at *
  rw [BitVec.getLsbD_or, hm, Bool.or_true]

/-! ## PB_CTRL -/

/-- EN set on a link that is DOWN starts training. -/
theorem wrPbCtrl_enables {v : Word} {s : State} (h0 : bit v 0 = true) (h2 : bit v 2 = false) (hst : s.peer.st = 0) :
    wrPbCtrl v s = modPeer (fun p => { p with st := 1 }) (s.setReg 0xC000 (v &&& 3#32)) := by
  simp [wrPbCtrl, h0, h2, hst]

/-- RETRAIN of a link that is UP retrains it. -/
theorem wrPbCtrl_retrains {v : Word} {s : State} (h0 : bit v 0 = true) (h2 : bit v 2 = true) (hst : s.peer.st = 2) :
    wrPbCtrl v s = count (ctPb 20) 1 (modPeer (fun p => { p with st := 1, retraining := true })
      (linkFlit 3 (s.setReg 0xC000 (v &&& 3#32)))) := by
  have hup : peerUp (s.setReg 0xC000 (v &&& 3#32)) = true := by simp [peerUp, hst]
  simp [wrPbCtrl, h0, h2, hst, linkRetrains, hup]

/-! ## Training -/

/-- Equal ranks end the training of a new link. -/
theorem linkTrained_equal {s : State} (fl0 fl1 : Bool) (hw : s.awake = true) (hen : s.rb 0xC000 0 = true) (hup : peerUp s = false)
    (hre : s.peer.retraining = false) :
    linkTrained s.rank fl0 fl1 s = modPeer (fun x => { x with st := 0 }) (raise 0xC008 8 s) := by
  simp [linkTrained, hw, hen, hup, hre, pbCause]

/-- The link of a partner of another rank, before training has come to any end. -/
def linkNew (st : Nat) (s : State) : State :=
  modPeer (fun x => { x with
    st := st, far := !s.rank, retraining := false, replays := 0, txSeq := 0, rxSeq := 0, nak := false,
    credit := (List.range 10).map (fun k => (k, if k < 8 then 64 else 32)) }) s

theorem linkFlit_bootWait (k : Nat) (s : State) : (linkFlit k s).peer.bootWait = s.peer.bootWait := by
  obtain ⟨f, cr, r, c, -, -, h⟩ := linkFlit_eq k s
  rw [h]

theorem linkTrained_both {s : State} (hw : s.awake = true) (hen : s.rb 0xC000 0 = true) (hup : peerUp s = false)
    (hre : s.peer.retraining = false) (hb : s.peer.bootWait = false) :
    linkTrained (!s.rank) true true s = raise 0xC008 1 (linkFlit 1 (linkNew 2 s)) := by
  have hbw : (raise 0xC008 1 (linkFlit 1 (linkNew 2 s))).peer.bootWait = false := by
    rw [raise_peer, linkFlit_bootWait]; exact hb
  simp only [linkTrained, hen, hup, hw, hre, Bool.true_eq_false, Bool.false_eq_true, or_self, if_false, Bool.not_eq_self,
    Bool.and_self, Bool.not_true, false_and, if_true, whenDo_false]
  exact (congrArg (fun b => whenDo b (linkFlit 4) (raise 0xC008 1 (linkFlit 1 (linkNew 2 s)))) hb).trans rfl

theorem linkTrained_one {s : State} (hw : s.awake = true) (hen : s.rb 0xC000 0 = true) (hup : peerUp s = false)
    (hre : s.peer.retraining = false) (hb : s.peer.bootWait = false) (hx1 : s.rb 0xC000 1 = true) :
    linkTrained (!s.rank) true false s = raise 0xC008 1 (linkFlit 1 (raise 0xC008 4 (count (ctPb 22) 1 (linkNew 3 s)))) := by
  simp only [linkTrained, hen, hup, hw, hre, hx1, Bool.true_eq_false, Bool.false_eq_true, or_self, if_false, Bool.not_eq_self,
    Bool.and_false, Bool.not_true, false_and, and_false, Bool.not_false, whenDo_true, pbCause, raise_peer, count_peer]
  exact (congrArg (fun b => whenDo b (linkFlit 4) _) hb).trans rfl

/-! ## Flits -/

theorem flitIn_badCrc {s : State} (hdr : Word) (pay : List Word) (k : Nat) (hw : s.awake = true) (hup : peerUp s = true) :
    flitIn false hdr pay k s = linkFlit 2 (modPeer (fun x => { x with nak := true }) (count (ctPb 18) 1 s)) := by
  simp [flitIn, hw, hup]

theorem flitIn_inSequence {s : State} (hdr : Word) (pay : List Word) (k : Nat) (hw : s.awake = true) (hup : peerUp s = true)
    (hvc : field hdr 0 2 ≠ 3) (hseq : field hdr 2 10 = (flitHeader hdr s).peer.rxSeq) :
    flitIn true hdr pay k s =
      linkFlit 2 (creditsBack (flitAccepted (field hdr 0 2) k pay (flitCredits hdr (flitHeader hdr s)))) := by
  simp [flitIn, hw, hup, hvc, hseq]

/-- After the replay time every flit that has no acknowledgement is sent again; the eighth replay retrains. -/
theorem replay_all {s : State} {f : Flit} {rest : List Flit} (hup : peerUp s = true) (hu : s.peer.unacked = f :: rest) :
    replay s =
      (let u := count (ctPb 19) 1 (forAll s.peer.unacked (fun f s => emit (.flit f) s)
        (modPeer (fun x => { x with replays := s.peer.replays + 1 }) s))
      if 8 ≤ s.peer.replays + 1 then linkRetrains u else u) := by
  unfold replay
  rw [hup, hu]

/-! ## Sentence frames -/

/-- The first complete frame of a sub-channel leaves its queue when the bobbin takes its record. -/
theorem frameIn_taken {s s1 : State} {k : Nat} {f : List Word} {rest : List (List Word)} (hw : s.awake = true)
    (hf : mapGet (dflt []) s.peer.frames k = f :: rest) (hr : frameRecord k f s = (s1, true)) :
    frameIn k s = creditsBack (modPeer (fun x => { x with frames := mapSet (dflt []) x.frames k rest }) s1) := by
  unfold frameIn
  rw [hf]
  dsimp only
  rw [if_neg (by simp [hw]), hr]

/-- The sentence whose last flit is acknowledged is delivered. -/
theorem frameAcked_delivers {s : State} {k lq q : Nat} {r : Ref} {rest : List (Nat × Ref × Nat)}
    (hs : mapGet (dflt []) s.peer.sent k = (lq, r, q) :: rest)
    (hu : s.peer.unacked.any (fun f => field f.hdr 2 10 = q) = false) :
    frameAcked k s = count (ctPb k) 1 (delivered lq r (modPeer (fun x => { x with sent := mapSet (dflt []) x.sent k rest }) s)) := by
  unfold frameAcked
  rw [hs]
  dsimp only
  rw [if_neg (by simp [hu])]

/-- A frame whose trailer does not hold is counted, and makes no record. -/
theorem frameRecord_badTrailer {s : State} {k : Nat} {f : List Word} (hp : bit (wordAt f 1) 16 = false)
    (ht : trailerOf ((f.drop 1).take 6) ((f.drop 7).take (field (wordAt f 0) 6 10 - 7)) ≠ wordAt f (field (wordAt f 0) 6 10)) :
    frameRecord k f s = (raise 0xC008 16 (count (ctPb 25) 1 s), true) := by
  have h0 : wordAt ((f.drop 1).take 6) 0 = wordAt f 1 := by
    rcases f with _ | ⟨a, _ | ⟨b, t⟩⟩ <;> rfl
  unfold frameRecord
  dsimp only
  rw [h0, if_pos ⟨hp, ht⟩]
  rfl

/-! ## The fall of the link -/

theorem unpinCheck_peer (a : Nat) (s : State) : (unpinCheck a s).peer = s.peer := by
  unfold unpinCheck
  cases s.pin a with
  | none => rfl
  | some p =>
    refine ite_keep (fun t : State => t.peer) ?_ rfl
    unfold releaseBob releaseTo
    exact ite_keep (fun t : State => t.peer) rfl rfl

theorem dropRef_peer (a : Nat) (s : State) : (dropRef a s).peer = s.peer := by
  unfold dropRef modPin
  cases s.pin a with
  | none => rfl
  | some p => exact unpinCheck_peer a _

/-- What the fall of the link leaves of the link: it is DOWN, keeps no flit, no lock of the partner and no read. -/
def linkLost (p : Peer) : Nat × List Flit × Option Nat × List (Nat × Nat) := (p.st, p.unacked, p.inLock, p.reads)

theorem logOut_linkLost (e : FaultEnt) (s : State) : linkLost (logOut e s).peer = linkLost s.peer := by
  unfold logOut
  exact ite_keep (fun t : State => linkLost t.peer) (by rw [count_peer]; rfl) (by rw [raise_peer, raise_peer, count_peer]; rfl)

theorem readFails_linkLost (tag off : Nat) (b : Bool) {s : State} (h : s.peer.reads = []) :
    linkLost (readFails tag off b s).peer = linkLost s.peer := by
  have hpeer : (readFails tag off b s).peer = { s.peer with reads := s.peer.reads.filter (fun r => r.1 ≠ tag) } := by
    unfold readFails pbCause
    dsimp only
    rw [emit_peer, raise_peer]
    exact whenDo_keep (fun t : State => t.peer) _ _ _ (count_peer ..)
  rw [hpeer, h]
  simp only [linkLost, h, List.filter_nil]

theorem forAll_readFails_linkLost (l : List (Nat × Nat)) : ∀ {s : State}, s.peer.reads = [] →
    linkLost (forAll l (fun r => readFails r.1 r.2 true) s).peer = linkLost s.peer := by
  induction l with
  | nil => intro s _; rfl
  | cons r l ih =>
    intro s h
    have hr := readFails_linkLost r.1 r.2 true h
    have hreads : (readFails r.1 r.2 true s).peer.reads = [] := (congrArg (fun x => x.2.2.2) hr).trans h
    exact (ih hreads).trans hr

/-- A link that goes down has lost what it held. -/
theorem linkFalls_lost (s : State) : linkLost (linkFalls s).peer = (0, [], none, []) := by
  unfold linkFalls
  dsimp only
  generalize hs1 : modPeer _ s = s1
  have h1 : linkLost s1.peer = (0, [], none, []) := by subst hs1; rfl
  clear hs1
  generalize hs2 : forAll _ _ (count (ctPb 24) _ _) = s2
  have h2 : linkLost s2.peer = (0, [], none, []) := by
    subst hs2
    refine (forAll_keep (fun t : State => linkLost t.peer) (fun (r : Ref) => dropRef r.addr) (fun r t => by rw [dropRef_peer]) _ _).trans ?_
    rw [count_peer, count_peer, h1]
  clear hs2
  generalize hs3 : forAll s.peer.writes _ s2 = s3
  have h3 : linkLost s3.peer = (0, [], none, []) := by
    subst hs3
    refine Eq.trans ?_ h2
    apply forAll_keep (fun t : State => linkLost t.peer)
    exact fun w t => logOut_linkLost _ t
  clear hs3
  generalize hs4 : forAll s.peer.reads _ s3 = s4
  have h4 : linkLost s4.peer = (0, [], none, []) := by
    subst hs4
    rw [forAll_readFails_linkLost _ (congrArg (fun x => x.2.2.2) h3), h3]
  clear hs4
  unfold pbCause
  rw [raise_peer, count_peer, count_peer]
  refine (forAll_keep (fun t : State => linkLost t.peer) _ (fun i t => by rw [doneCmd_peer]) _ _).trans ?_
  cases s.peer.lockWin
  · exact h4
  · exact h4

/-! ## O56 -/

/-- Settles O56: each clause is one of the lemmas above. -/
theorem peerLinkRuns : Obligations.PeerLinkRuns := by
  unfold Obligations.PeerLinkRuns
  intro s
  dsimp only
  have hlost := linkFalls_lost s
  refine ⟨fun a hm hst h2 => ?enable, fun a hm hst h0 => ?retrain,
    fun hw => ⟨fun hen hup hre => ⟨fun fl0 fl1 => ?equal, fun hb => ⟨?both, fun hx1 => ?one⟩⟩,
      fun hup => ⟨fun hdr pay k => ?badCrc, fun hdr pay k hvc hseq => ?inSequence, ?falls⟩,
      fun f rest hup hu => ?replays, fun k f rest s1 hf hr => ?frame, fun k lq r q rest hs hu => ?acked⟩,
    fun k f hp ht => frameRecord_badTrailer hp ht,
    congrArg (fun x => x.1) hlost, congrArg (fun x => x.2.1) hlost, congrArg (fun x => x.2.2.1) hlost,
    congrArg (fun x => x.2.2.2) hlost⟩
  case enable =>
    have hexec : exec (.peerLinkEnable a) s = .next (settle s (agentDone a 0xC000 s
        (writeReg 0xC000 (s.reg 0xC000 ||| 1#32) (agentPre a s)))) :=
      (done_core (fun s => agentWrite a 0xC000 (s.reg 0xC000 ||| 1#32) s) (agentMayWrite_awake hm)).trans
        (by rw [agentWrite_served hm])
    refine exec_to hexec ?_
    rw [writeReg_pbCtrl, wrPbCtrl_enables (bit0_or_one _) ((bit2_or_one _).trans h2) (by rw [agentPre_peer]; exact hst)]
  case retrain =>
    have hexec : exec (.retrain a) s = .next (settle s (agentDone a 0xC000 s
        (writeReg 0xC000 (s.reg 0xC000 ||| 4#32) (agentPre a s)))) :=
      (done_core (fun s => agentWrite a 0xC000 (s.reg 0xC000 ||| 4#32) s) (agentMayWrite_awake hm)).trans
        (by rw [agentWrite_served hm])
    refine exec_to hexec ?_
    have hbit0 : bit (s.reg 0xC000 ||| 4#32) 0 = true := by simp [bit] at h0 ⊢; exact h0
    rw [writeReg_pbCtrl, wrPbCtrl_retrains hbit0 (bit_or_self _ 2 _ (by decide)) (by rw [agentPre_peer]; exact hst)]
  case equal => exact exec_to (done_core _ hw) (linkTrained_equal fl0 fl1 hw hen hup hre)
  case both => exact exec_to (done_core _ hw) (linkTrained_both hw hen hup hre hb)
  case one => exact exec_to (done_core _ hw) (linkTrained_one hw hen hup hre hb hx1)
  case badCrc => exact exec_to (done_core _ hw) (congrArg flow (flitIn_badCrc hdr pay k hw hup))
  case inSequence => exact exec_to (done_core _ hw) (congrArg flow (flitIn_inSequence hdr pay k hw hup hvc hseq))
  case falls => exact exec_to (done_core _ hw) (by unfold linkDownNow; rw [if_pos (Or.inl hup)])
  case replays => exact exec_to (done_core _ hw) (replay_all hup hu)
  case frame => exact exec_to (done_core _ hw) (congrArg flow (frameIn_taken hw hf hr))
  case acked => exact exec_to (done_core _ hw) (congrArg flow (frameAcked_delivers hs hu))

end Sys2Proof.Machine
end

section
/-!
SUPPORT. Locks (R404 to R406): ACQUIRE and RELEASE, the partner's requests, and the answers to this device's own.
-/
namespace Sys2Proof.Machine

/-- A write of PB_PWn_LOCK releases, or asks for, the lock of its window. -/
theorem writeReg_pwLock (win : Fin 8) (v : Word) (s : State) : writeReg (0xC044 + 8 * win.val) v s =
    whenDo (bit v 1) (lockRelease win) (whenDo (bit v 0) (lockAcquire win) s) := by
  have hlt := win.isLt
  have hn : (0xC044 + 8 * win.val - 0xC040) / 8 = win.val := by omega
  rw [writeReg_peer v s (by omega)]
  unfold wrPeer
  rw [if_neg (by omega), if_pos (by omega), hn]

theorem winCfg_agentPre (a : Nat) (s : State) (n : Nat) : winCfg (agentPre a s) n = winCfg s n := agentPre_at_reg a s _
theorem peerUp_agentPre (a : Nat) (s : State) : peerUp (agentPre a s) = peerUp s := by unfold peerUp; rw [agentPre_peer]
theorem reqRoom_agentPre (a : Nat) (s : State) : reqRoom (agentPre a s) = reqRoom s := by
  unfold reqRoom reqCredit peerCredit
  rw [peerUp_agentPre, agentPre_peer]

/-! ## ACQUIRE and RELEASE -/

section
variable {s : State} {n : Nat}

theorem lockAcquire_asks (hn : s.peer.lockWin = none) (hl : bit (winCfg s n) 2 = true) (hup : peerUp s = true) :
    lockAcquire n s = whenDo (npRoom 1 s) (sendReq [reqWord 3 0 n false true]) (setLock n 1
      (modPeer (fun x => { x with lockWin := some n, lockTry := mapDel s.peer.lockTry n, lockWait := !npRoom 1 s }) s)) := by
  unfold lockAcquire
  rw [if_neg (by simp [hn]), if_neg (by simp [hn, hl]), if_neg (by simp [hup])]
  rfl

theorem lockAcquire_linkDown (hn : s.peer.lockWin = none) (hl : bit (winCfg s n) 2 = true) (hup : peerUp s = false) :
    lockAcquire n s = setLock n 6 s := by
  unfold lockAcquire
  rw [if_neg (by simp [hn]), if_neg (by simp [hn, hl]), if_pos hup]

theorem lockAcquire_busy {w : Nat} (hn : s.peer.lockWin = some w) (hne : w ≠ n) : lockAcquire n s = setLock n 5 s := by
  unfold lockAcquire
  rw [if_neg (by simp [hn, hne]), if_pos (Or.inl (by simp [hn]))]

/-- RELEASE frees the window, and tells the partner now or once a credit is there. -/
theorem lockRelease_frees (hn : s.peer.lockWin = some n) :
    lockRelease n s =
      (let u := setLock n 0 (modPeer (fun x => { x with lockWin := none, lockWait := false }) s)
      if s.peer.lockWait then u
      else if reqRoom s then sendReq [reqWord 4 0 n false true] u
      else modPeer (fun x => { x with releaseDue := some n }) u) := if_pos hn

/-! ## Requests and answers -/

theorem lockAsked_refused (hup : peerUp s = true) (hp : ∃ w, s.peer.lockWin = some w ∧ lockState s w = 1) (hr : s.rank = false) :
    lockAsked n s = sendCpl [cplWord 5 0 0] s := by
  obtain ⟨w, hw, h1⟩ := hp
  unfold lockAsked
  rw [if_neg (by simp [hup]), if_pos (by simp [hw, h1, hr])]

theorem lockAsked_granted (hup : peerUp s = true) (h : s.rank = true ∨ s.peer.lockWin = none) :
    lockAsked n s = sendCpl [cplWord 4 0 0] (modPeer (fun x => { x with inLock := some n }) s) := by
  unfold lockAsked
  rw [if_neg (by simp [hup]), if_neg (by rcases h with h | h <;> simp [h])]

theorem lockAnswered_granted (hn : s.peer.lockWin = some n) (h1 : lockState s n = 1) (hw : s.peer.lockWait = false) :
    lockAnswered true s = count (ctPb 36) 1 (setLock n 2 s) := by
  unfold lockAnswered
  rw [hn]
  dsimp only
  rw [if_neg (by simp [h1, hw]), if_pos rfl]

/-- A refusal is counted; the last attempt is CONFLICT, an earlier one waits for its backoff. -/
theorem lockAnswered_refused (hn : s.peer.lockWin = some n) (h1 : lockState s n = 1) (hw : s.peer.lockWait = false) :
    lockAnswered false s =
      (let m := mapGet (dflt 0) s.peer.lockTry n + 1
      let t := count (ctPb 37) 1 (modPeer (fun x => { x with lockTry := mapSet (dflt 0) s.peer.lockTry n m }) s)
      if s.rf 0xC010 8 4 ≤ m then
        raise 0xC008 256 (count (ctPb 38) 1 (setLock n 3 (modPeer (fun x => { x with lockWin := none }) t)))
      else modPeer (fun x => { x with lockWait := true }) t) := by
  have hmax : (max 1 (s.rf 0xC010 8 4) ≤ mapGet (dflt 0) s.peer.lockTry n + 1) =
      (s.rf 0xC010 8 4 ≤ mapGet (dflt 0) s.peer.lockTry n + 1) := by
    apply propext
    omega
  unfold lockAnswered
  rw [hn]
  dsimp only
  rw [if_neg (by simp [h1, hw]), if_neg (by decide)]
  simp only [hmax]
  rfl

theorem lockAgain_sends (hn : s.peer.lockWin = some n) (hw : s.peer.lockWait = true) (hroom : npRoom 1 s = true) :
    lockAgain s = sendReq [reqWord 3 0 n false true] (modPeer (fun x => { x with lockWait := false }) s) := by
  unfold lockAgain
  rw [hn]
  exact if_pos ⟨hw, hroom⟩

theorem lockBroken_own (hn : s.peer.lockWin = some n) (h2 : lockState s n = 2) :
    lockBroken true s = raise 0xC008 512 (count (ctPb 39) 1 (setLock n 4
      (modPeer (fun x => { x with lockWin := none, lockFault := x.lockFault.filter (· ≠ n) ++ [n] }) s))) := by
  unfold lockBroken
  rw [if_pos rfl, hn]
  exact if_pos h2

end

/-! ## O58 -/

/-- A let-through ACQUIRE. -/
theorem exec_acquire {s : State} {a : Fin 3} {win : Fin 8} (hm : agentMayWrite a s (0xC044 + 8 * win.val) 1#32 = true) :
    exec (.acquire a win) s = .next (settle s (agentDone a (0xC044 + 8 * win.val) s (lockAcquire win (agentPre a s)))) :=
  exec_to (done_agentWrite hm) (congrArg (agentDone a _ s) (writeReg_pwLock win 1#32 (agentPre a s)))

/-- A let-through RELEASE. -/
theorem exec_release {s : State} {a : Fin 3} {win : Fin 8} (hm : agentMayWrite a s (0xC044 + 8 * win.val) 2#32 = true) :
    exec (.release a win) s = .next (settle s (agentDone a (0xC044 + 8 * win.val) s (lockRelease win (agentPre a s)))) :=
  exec_to (done_agentWrite hm) (congrArg (agentDone a _ s) (writeReg_pwLock win 2#32 (agentPre a s)))

/-- Settles O58: each clause is one of the lemmas above. -/
theorem locksHeld : Obligations.LocksHeld := by
  unfold Obligations.LocksHeld
  intro s win
  dsimp only
  refine ⟨fun a hm => ⟨fun hn hl hup hroom => ?asks, fun hn hl hup hroom => ?waits, fun hn hl hup => ?linkDown,
      fun w hn hne => ?busy⟩, fun a hm hn => ?release,
    fun hw => ⟨fun hup => ⟨fun hp hr => ?refuses, fun h => ?grants⟩,
      fun hn => ⟨fun h1 hlw => ⟨?held, fun hlt => ?again, fun hle => ?conflict⟩, fun hlw hroom => ?retry, fun h2 => ?broken⟩,
      done_core (lockBroken false) hw⟩⟩
  case asks =>
    refine exec_to (exec_acquire hm) (congrArg (agentDone a _ s) ?_)
    rw [lockAcquire_asks (by rw [agentPre_peer]; exact hn) ((congrArg (bit · 2) (winCfg_agentPre a s win)).trans hl)
      ((peerUp_agentPre a s).trans hup), hroom, agentPre_peer]
    rfl
  case waits =>
    refine exec_to (exec_acquire hm) (congrArg (agentDone a _ s) ?_)
    rw [lockAcquire_asks (by rw [agentPre_peer]; exact hn) ((congrArg (bit · 2) (winCfg_agentPre a s win)).trans hl)
      ((peerUp_agentPre a s).trans hup), hroom, agentPre_peer]
    rfl
  case linkDown =>
    exact exec_to (exec_acquire hm) (congrArg (agentDone a _ s) (lockAcquire_linkDown (by rw [agentPre_peer]; exact hn)
      ((congrArg (bit · 2) (winCfg_agentPre a s win)).trans hl) ((peerUp_agentPre a s).trans hup)))
  case busy =>
    exact exec_to (exec_acquire hm) (congrArg (agentDone a _ s) (lockAcquire_busy (by rw [agentPre_peer]; exact hn) hne))
  case release =>
    refine exec_to (exec_release hm) (congrArg (agentDone a _ s) ?_)
    rw [lockRelease_frees (by rw [agentPre_peer]; exact hn), agentPre_peer, reqRoom_agentPre]
  case refuses => exact exec_to (done_core _ hw) (lockAsked_refused hup hp hr)
  case grants => exact exec_to (done_core _ hw) (lockAsked_granted hup h)
  case held => exact exec_to (done_core _ hw) (lockAnswered_granted hn h1 hlw)
  case again =>
    refine exec_to (done_core _ hw) ((lockAnswered_refused hn h1 hlw).trans ?_)
    exact if_neg (Nat.not_le.mpr hlt)
  case conflict =>
    refine exec_to (done_core _ hw) ((lockAnswered_refused hn h1 hlw).trans ?_)
    exact if_pos hle
  case retry => exact exec_to (done_core _ hw) (lockAgain_sends hn hlw hroom)
  case broken => exact exec_to (done_core _ hw) (lockBroken_own hn h2)

end Sys2Proof.Machine
end

section
/-!
SUPPORT. The bridge (R400 to R403, R407): the host's accesses of an aperture, the partner's requests, timeouts, notices and
the fault logs.
-/
namespace Sys2Proof.Machine

/-! ## The host's accesses of an aperture -/

/-- The register offset of an aperture's byte. -/
def apertureOff (win : Fin 8) (off : Byte) : Nat := 0xC800 + 0x100 * win.val + off.toNat

section
variable (win : Fin 8) (off : Byte)

theorem apertureOff_bounds : 0xC800 ≤ apertureOff win off ∧ apertureOff win off < 0xD000 := by
  have := win.isLt
  have := off.isLt
  unfold apertureOff
  omega

theorem apertureOff_win : (apertureOff win off - 0xC800) / 0x100 = win.val := by
  have := off.isLt
  unfold apertureOff
  omega

theorem apertureOff_byte : apertureOff win off % 0x100 = off.toNat := by
  have := off.isLt
  unfold apertureOff
  omega

theorem apertureOff_aligned (h : off.toNat % 4 = 0) : apertureOff win off % 4 = 0 := by
  unfold apertureOff
  omega

/-- The host's write of an aperture that its checks let through is a bridge write. -/
theorem hostWrite_aperture {s : State} (data : Word) (hs : hostServed s = true) (hw : s.awake = true) (hb : s.boot.done = true)
    (hl : locked s = true → s.rb 0xF044 12 = true) (h4 : off.toNat % 4 = 0) :
    hostWrite (apertureOff win off) (mkD 0#32 data) 4 true false s = bridgeWr win off.toNat data true s := by
  obtain ⟨hlo, hhi⟩ := apertureOff_bounds win off
  have hpage : apertureOff win off / 0x1000 = 12 := by omega
  rw [hostWrite_reg hs hw _ (by omega) (apertureOff_aligned win off h4), loW_mkD]
  unfold hostRegWrite
  dsimp only
  rw [if_neg (by simp [hb]), if_neg (by rw [hpage]; rintro ⟨h, -, -, hr⟩; rw [hl h] at hr; exact absurd hr (by decide)),
    if_pos ⟨hlo, hhi⟩, apertureOff_win, apertureOff_byte]

/-- The host's 4-byte read of an aperture is a bridge read. -/
theorem hostRead_aperture {s : State} (hs : hostServed s = true) (hw : s.awake = true) (h4 : off.toNat % 4 = 0) :
    hostRead (apertureOff win off) false s = bridgeRd win off.toNat s := by
  obtain ⟨hlo, hhi⟩ := apertureOff_bounds win off
  have hal := apertureOff_aligned win off h4
  simp [hostRead, hs, hw, hal, hlo, hhi, show ¬ 0x18000 ≤ apertureOff win off by omega,
    show ¬ 0x10000 ≤ apertureOff win off by omega, apertureOff_win, apertureOff_byte]

end

/-! ## Bridge writes and reads -/

/-- A write of a window sent to the partner, posted or not, with the next tag. -/
def writeSent (win : Nat) (o : Nat) (data : Word) (posted : Bool) (s : State) : State :=
  sendReq [reqWord 2 s.peer.wtag win posted true, w32 (farOff s win o), data]
    (modPeer (fun y => { y with
      wtag := (s.peer.wtag + 1) % 1024,
      writes := s.peer.writes ++ [{ tag := s.peer.wtag, win := win, addr := farOff s win o, posted := posted }] }) s)

section
variable {s : State} {n : Nat} (o : Nat) (data : Word)

theorem bridgeWr_disabled (h : bit (winCfg s n) 0 = false) : bridgeWr n o data true s = raise 0x1928 4 (count (ctHi 335) 1 s) :=
  if_pos (Or.inl h)

variable (h0 : bit (winCfg s n) 0 = true) (hb : bridgeBusy s = false)
include h0 hb

/-- A write that is not posted, after a broken lock: LOCK_TIMEOUT. -/
theorem bridgeWr_lockFault (h1 : bit (winCfg s n) 1 = false) (hf : s.peer.lockFault.contains n = true) :
    bridgeWr n o data true s = logOut { tag := s.peer.wtag, reason := 4, win := n, addr := farOff s n o } (modPeer (fun y =>
      { y with wtag := (s.peer.wtag + 1) % 1024, lockFault := s.peer.lockFault.filter (· ≠ n) }) s) := by
  unfold bridgeWr
  dsimp only
  rw [if_neg (by simp [h0]), if_neg (by simp [hb]), if_pos (by rw [hf, h1]; rfl)]
  rfl

variable (hf : s.peer.lockFault.contains n = false)
include hf

theorem bridgeWr_linkDown (hup : peerUp s = false) :
    bridgeWr n o data true s = logOut { tag := s.peer.wtag, reason := 5, win := n, addr := farOff s n o }
      (modPeer (fun y => { y with wtag := (s.peer.wtag + 1) % 1024 }) s) := by
  unfold bridgeWr
  dsimp only
  rw [if_neg (by simp [h0]), if_neg (by simp [hb]), if_neg (by rw [hf]; simp), if_pos hup]
  rfl

theorem bridgeWr_posted (hup : peerUp s = true) (hr : reqRoom s = true) (h1 : bit (winCfg s n) 1 = true) (hl : lockState s n ≠ 2)
    (hlen : s.peer.writes.length < 256) :
    bridgeWr n o data true s = count (ctPb 27) 1 (writeSent n o data true s) := by
  have hposted : (bit (winCfg s n) 1 && !decide (lockState s n = 2)) = true := by simp [h1, hl]
  unfold bridgeWr
  dsimp only
  rw [hposted, if_neg (by simp [h0]), if_neg (by simp [hb]), if_neg (by rw [hf]; simp), if_neg (by simp [hup]),
    if_neg (by simp [hr, hlen])]
  rfl

theorem bridgeWr_nonPosted (hup : peerUp s = true) (h1 : bit (winCfg s n) 1 = false) (hr : npRoom 1 s = true) :
    bridgeWr n o data true s = count (ctPb 28) 1 (writeSent n o data false s) := by
  have hposted : (bit (winCfg s n) 1 && !decide (lockState s n = 2)) = false := by simp [h1]
  have hreq : reqRoom s = true := by simp only [npRoom, Bool.and_eq_true] at hr; exact hr.1
  unfold bridgeWr
  dsimp only
  rw [hposted, if_neg (by simp [h0]), if_neg (by simp [hb]), if_neg (by rw [hf]; simp), if_neg (by simp [hup]),
    if_neg (by simp [hr, hreq])]
  rfl

omit hf in
theorem bridgeRd_sends (hup : peerUp s = true) (hr : npRoom 1 s = true) :
    bridgeRd n o s = count (ctPb 29) 1 (sendReq [reqWord 1 s.peer.rtag n false true, w32 (farOff s n o)]
      (modPeer (fun z => { z with
        rtag := (s.peer.rtag + 1) % 1024, reads := s.peer.reads ++ [(s.peer.rtag, 0xC800 + 0x100 * n + o)] }) s)) := by
  unfold bridgeRd
  dsimp only
  rw [if_neg (by simp [h0]), if_neg (by simp [hb]), if_neg (by simp [hup]), if_neg (by simp [hr])]
  rfl

end

theorem bridgeRd_disabled {s : State} {n : Nat} (o : Nat) (h0 : bit (winCfg s n) 0 = false) :
    bridgeRd n o s = emit (.readData 0 (0xC800 + 0x100 * n + o) 0#64) s := if_pos h0

/-! ## The partner's requests -/

section
variable {s : State} {win : Nat} (hup : peerUp s = true) (hw : s.awake = true) (hl : ∀ w, s.peer.inLock = some w → w = win)
include hup hw hl

/-- A request through the window that holds the lock, or without a lock, is served. -/
theorem inbound_taken (wr : Bool) (o : Nat) (v : Word) (full : Bool) (tag : Nat) (posted : Bool) :
    inbound wr o v full tag win posted s =
      if wr then inboundWrite o v full tag posted (count (ctPb 30) 1 s) else inboundRead o tag (count (ctPb 30) 1 s) := by
  have hlock : s.peer.inLock.any (fun w => decide (w ≠ win)) = false := by
    cases h : s.peer.inLock with
    | none => rfl
    | some w => simp [hl w h]
  unfold inbound
  rw [hup, hw, hlock, if_neg (by decide)]

end

theorem inboundRead_served {s : State} {o : Nat} (tag : Nat) (hp : o / 0x1000 ≠ 0xC) (hb : s.peer.bootWait = false) :
    inboundRead o tag s = sendCpl [cplWord 1 tag 0, readReg s 1 o] (readEffect 1 o s) := by
  unfold inboundRead
  dsimp only
  rw [if_neg (by simp [hp, hb])]
  rfl

theorem inboundRead_denied {s : State} {o : Nat} (tag : Nat) (hp : o / 0x1000 = 0xC) (h4 : o ≠ 0xC004) (h404 : o ≠ 0xC404) :
    inboundRead o tag s = sendCpl [cplWord 1 tag 15, 0xFFFFFFFF#32] (count (ctPb 31) 1 s) := by
  unfold inboundRead
  dsimp only
  rw [if_pos ⟨Or.inl hp, by simp [h4, h404]⟩]

theorem inboundWrite_served {s : State} {o : Nat} (v : Word) {full : Bool} (tag : Nat) (posted : Bool) (hp : o / 0x1000 ≠ 0xC)
    (he : inboundError o full s = 0) (hi : (regInfo o).isSome = true) :
    inboundWrite o v full tag posted s = inboundAnswer o tag 0 posted (writeReg o v s) := by
  have heff : inboundEffect o v s = writeReg o v s := by
    unfold inboundEffect
    rw [if_neg (by omega), if_neg (by omega), if_neg (by rw [Option.isNone_eq_false_iff.mpr hi]; decide)]
  unfold inboundWrite
  dsimp only
  rw [he, if_pos rfl, heff]

theorem inboundWrite_fails {s : State} {o e : Nat} (v : Word) {full : Bool} (tag : Nat) (posted : Bool)
    (he : inboundError o full s = e) (h0 : e ≠ 0) (h2 : e ≠ 2) :
    inboundWrite o v full tag posted s = inboundAnswer o tag e posted (sendCpl [cplWord 6 tag e, w32 o]
      (logIn { tag := tag, reason := e, win := 0, addr := o } (count (ctPb 31) 1 s))) := by
  unfold inboundWrite
  dsimp only
  rw [he, if_neg h0, decide_eq_false h2, whenDo_false]

/-! ## Timeouts, acknowledgements and notices -/

theorem bridgeLate_read {s : State} {tag : Nat} {r : Nat × Nat} (h : s.peer.reads.find? (fun r => r.1 = tag) = some r) :
    bridgeLate tag true s = readFails tag r.2 true s := by
  unfold bridgeLate
  rw [if_pos rfl, h]

theorem bridgeLate_write {s : State} {tag : Nat} {w : BrWrite}
    (h : s.peer.writes.find? (fun w => w.tag = tag && !w.posted) = some w) :
    bridgeLate tag false s =
      fencesCheck (closeWrite tag (logOut { tag := tag, reason := 7, win := w.win, addr := w.addr } s)) := by
  unfold bridgeLate
  rw [if_neg (by decide), h]

theorem ackTimer_acks {s : State} (hw : s.awake = true) (hn : s.peer.inUnacked ≠ 0) (hup : peerUp s = true) :
    ackTimer s = sendCpl [cplWord 3 ((s.peer.inTag + 1023) % 1024) 0] (modPeer (fun p => { p with inUnacked := 0 }) s) := by
  unfold ackTimer ackWrites
  rw [if_pos hw, if_neg (by simp [hn, hup])]

theorem faultArrives_closes {s : State} {tag : Nat} {w : BrWrite} (reason off : Nat)
    (h : s.peer.writes.find? (fun w => w.tag = tag) = some w) :
    faultArrives tag reason off s =
      fencesCheck (closeWrite tag (logOut { tag := tag, reason := reason, win := w.win, addr := off } s)) := by
  unfold faultArrives
  rw [h]

/-! ## The fault logs -/

/-- A read of an ENTRY register takes the oldest entry of the outbound log. -/
theorem readEffect_olog {s : State} {e : FaultEnt} {rest : List FaultEnt} (a : Nat) (h : s.peer.olog = e :: rest) :
    readEffect a 0xC084 s = setLatch a 0xC088 (w32 (e.addr % 65536)) (modPeer (fun p => { p with olog := rest }) s) :=
  calc readEffect a 0xC084 s = popFault a false s := rfl
    _ = _ := by
      unfold popFault
      rw [if_neg (by decide), h]
      rfl

/-- A read of an ENTRY register takes the oldest entry of the inbound log. -/
theorem readEffect_ilog {s : State} {e : FaultEnt} {rest : List FaultEnt} (a : Nat) (h : s.peer.ilog = e :: rest) :
    readEffect a 0xC094 s = setLatch a 0xC098 (w32 (e.addr % 65536)) (modPeer (fun p => { p with ilog := rest }) s) :=
  calc readEffect a 0xC094 s = popFault a true s := rfl
    _ = _ := by
      unfold popFault
      rw [if_pos rfl, h]
      rfl

/-! ## O57 -/

section
variable {s : State} (hw : s.awake = true)
include hw

/-- BRIDGE_WRITE that the checks of a host write let through. -/
theorem exec_bridgeWrite (win : Fin 8) (off : Byte) (data : Word) (hs : hostServed s = true) (hb : s.boot.done = true)
    (hl : locked s = true → s.rb 0xF044 12 = true) (h4 : off.toNat % 4 = 0) :
    exec (.bridgeWrite win off data true) s = .next (settle s (bridgeWr win off.toNat data true s)) :=
  calc exec (.bridgeWrite win off data true) s
      = done s (hostWrite (apertureOff win off) (mkD 0#32 data) 4 true false s) := rfl
    _ = _ := by rw [hostWrite_aperture win off data hs hw hb hl h4, done_eq]

/-- BRIDGE_READ of an aligned register. -/
theorem exec_bridgeRead (win : Fin 8) (off : Byte) (hs : hostServed s = true) (h4 : off.toNat % 4 = 0) :
    exec (.bridgeRead win off) s = .next (settle s (bridgeRd win off.toNat s)) :=
  calc exec (.bridgeRead win off) s = done s (hostRead (apertureOff win off) false s) := rfl
    _ = _ := by rw [hostRead_aperture win off hs hw h4, done_eq]

/-- INBOUND_REQUEST that no lock holds back. -/
theorem exec_inboundRequest (wr : Bool) (off : BitVec 16) (data : Word) (full : Bool) (tag : BitVec 10) (win : Fin 8)
    (posted : Bool) (hup : peerUp s = true) (hl : ∀ w, s.peer.inLock = some w → w = win.val) :
    exec (.inboundRequest wr off data full tag win posted) s = .next (settle s
      (if wr then inboundWrite off.toNat data full tag.toNat posted (count (ctPb 30) 1 s)
       else inboundRead off.toNat tag.toNat (count (ctPb 30) 1 s))) :=
  exec_to (done_core (inbound wr off.toNat data full tag.toNat win posted) hw) (inbound_taken hup hw hl wr _ data full _ posted)

end

/-- The host's read of a fault log's ENTRY register. -/
theorem exec_faultLogPop {s : State} {o : Nat} (inb : Bool) (ho : (if inb then 0xC094 else 0xC084) = o) (h : hostMayRead s o = true) :
    exec (.faultLogPop 0 inb) s = .next (settle s (emit (.readData 0 o (mkD 0#32 (readReg s 0 o))) (readEffect 0 o s))) :=
  calc exec (.faultLogPop 0 inb) s = done s (core (hostRead (if inb then 0xC094 else 0xC084) false) s) := rfl
    _ = _ := by rw [ho, done_core _ (hostMayRead_served h).2.1, hostRead_reg h]

/-- Settles O57: each clause is one of the lemmas above. -/
theorem bridgeServes : Obligations.BridgeServes := by
  unfold Obligations.BridgeServes
  intro s hw
  dsimp only
  refine ⟨fun win off data hs hb hl h4 => ⟨fun h0 => ?disabled, fun h0 h1 hbusy hf => ?broken,
      fun h0 hbusy hf => ⟨fun hup => ?linkDown, fun hup hr h1 hls hlen => ?posted, fun hup h1 hr => ?nonPosted⟩,
      fun h0 => ?readDisabled, fun h0 hbusy hup hr => ?reads⟩,
    fun off data full tag win posted hup hl => ⟨fun hp hb => ?served, fun hp h4 h404 => ?denied, fun hp he hi => ?written,
      fun e he h0 h2 => ?failed⟩,
    fun tag r h => exec_to (done_core _ hw) (bridgeLate_read h),
    fun tag w h => exec_to (done_core _ hw) (bridgeLate_write h),
    fun hn hup => exec_to (done_core _ hw) (ackTimer_acks hw hn hup),
    fun tag reason off w h => exec_to (done_core _ hw) (faultArrives_closes _ _ h),
    fun e rest hm h => ?outLog, fun e rest hm h => ?inLog⟩
  case disabled => exact exec_to (exec_bridgeWrite hw win off data hs hb hl h4) (bridgeWr_disabled _ _ h0)
  case broken => exact exec_to (exec_bridgeWrite hw win off data hs hb hl h4) (bridgeWr_lockFault _ _ h0 hbusy h1 hf)
  case linkDown => exact exec_to (exec_bridgeWrite hw win off data hs hb hl h4) (bridgeWr_linkDown _ _ h0 hbusy hf hup)
  case posted =>
    exact exec_to (exec_bridgeWrite hw win off data hs hb hl h4) (bridgeWr_posted _ _ h0 hbusy hf hup hr h1 hls hlen)
  case nonPosted =>
    exact exec_to (exec_bridgeWrite hw win off data hs hb hl h4) (bridgeWr_nonPosted _ _ h0 hbusy hf hup h1 hr)
  case readDisabled => exact exec_to (exec_bridgeRead hw win off hs h4) (bridgeRd_disabled _ h0)
  case reads => exact exec_to (exec_bridgeRead hw win off hs h4) (bridgeRd_sends _ h0 hbusy hup hr)
  case served => exact exec_to (exec_inboundRequest hw false off data full tag win posted hup hl) (inboundRead_served _ hp hb)
  case denied =>
    exact exec_to (exec_inboundRequest hw false off data full tag win posted hup hl) (inboundRead_denied _ hp h4 h404)
  case written =>
    exact exec_to (exec_inboundRequest hw true off data full tag win posted hup hl) (inboundWrite_served _ _ _ hp he hi)
  case failed =>
    exact exec_to (exec_inboundRequest hw true off data full tag win posted hup hl) (inboundWrite_fails _ _ _ he h0 h2)
  case outLog => exact exec_to (exec_faultLogPop false rfl hm) (congrArg (emit _) (readEffect_olog 0 h))
  case inLog => exact exec_to (exec_faultLogPop true rfl hm) (congrArg (emit _) (readEffect_ilog 0 h))

end Sys2Proof.Machine
end

section
/-!
SUPPORT. Sending a character leaves the power state alone (R258, R276): the readers of the store, the ends of a sentence, and the
transmitter.
-/
namespace Sys2Proof.Machine

/-! ## Readers -/

@[simp] theorem noteParity_pw (a b : Nat) (s : State) : (noteParity a b s).pw = s.pw := by simp [noteParity]

@[simp] theorem readWord_pw (b a : Nat) (s : State) : (readWord b a s).1.pw = s.pw := by
  unfold readWord
  dsimp only
  split <;> simp

@[simp] theorem readWords_pw (b n : Nat) : ∀ (p : Nat) (s : State), (readWords b n p s).1.pw = s.pw := by
  induction n with
  | zero => intro p s; rfl
  | succ n ih => intro p s; exact (ih _ _).trans (readWord_pw ..)

@[simp] theorem checkView_pw (r k : Nat) (v : RecView) (s : State) : (checkView r k v s).1.pw = s.pw := by
  unfold checkView
  dsimp only
  split
  · rfl
  · rfl
  · rfl
  · split <;> simp

@[simp] theorem checkFrom_pw (r k a n : Nat) (c : Bool) (s : State) : (checkFrom r k a n c s).1.pw = s.pw := by
  unfold checkFrom
  dsimp only
  rw [checkView_pw, readWords_pw, readWords_pw]

/-! ## Ends of a sentence -/

@[simp] theorem unpinCheck_pw (a : Nat) (s : State) : (unpinCheck a s).pw = s.pw := by
  unfold unpinCheck
  split
  · rfl
  · refine ite_keep (fun t : State => t.pw) ?_ rfl
    unfold releaseBob releaseTo
    exact ite_keep (fun t : State => t.pw) rfl rfl

@[simp] theorem dropRef_pw (a : Nat) (s : State) : (dropRef a s).pw = s.pw := by
  unfold dropRef modPin
  split
  · rfl
  · simp

@[simp] theorem delivered_pw (k : Nat) (r : Ref) (s : State) : (delivered k r s).pw = s.pw := by
  unfold delivered
  rw [dropRef_pw, whenDo_keep (fun t : State => t.pw) _ _ _ (count_pw ..), count_pw]

@[simp] theorem abortCount_pw (k : Nat) (o : CheckOut) (t : Nat) (s : State) : (abortCount k o t s).pw = s.pw := by
  cases o <;> simp [abortCount, rtOutcome]

theorem serviceDone_pw (n : Nat) (s : State) : (serviceDone n s).pw = s.pw := rfl

@[simp] theorem serviceBoundary_pw (ep : Nat) (s : State) : (serviceBoundary ep s).pw = s.pw := by
  unfold serviceBoundary
  split
  · rfl
  split
  · split <;> simp [serviceDone_pw]
  split
  · split <;> simp [serviceDone_pw]
  split
  · split <;> simp [serviceDone_pw]
  · rfl

@[simp] theorem portEnd_pw (ep n : Nat) (s : State) : (portEnd ep n s).pw = s.pw := by simp [portEnd]

@[simp] theorem cutAbort_pw (n : Nat) (c : Cur) (sh : Option (Nat × Nat)) (o : CheckOut) (s : State) :
    (cutAbort n c sh o s).pw = s.pw := by
  unfold cutAbort
  exact ite_keep (fun t : State => t.pw) (by simp) (by simp)

@[simp] theorem cutLoad_pw (n k : Nat) : ∀ s : State, (cutLoad n k s).pw = s.pw := by
  induction k with
  | zero => intro s; rfl
  | succ k ih =>
    intro s
    unfold cutLoad
    split
    · rfl
    split
    · rfl
    dsimp only
    refine ite_keep (fun t : State => t.pw) rfl (ite_keep (fun t : State => t.pw) rfl (ite_keep (fun t : State => t.pw) ?word
      (ite_keep (fun t : State => t.pw) (ite_keep (fun t : State => t.pw) (by simp) ?trailer) rfl)))
    case word => exact ite_keep (fun t : State => t.pw) (by simp [ih]) (by simp)
    case trailer => split <;> simp

@[simp] theorem curOver_pw (ep n : Nat) (s : State) : (curOver ep n s).pw = s.pw := by
  unfold curOver
  split
  · rfl
  split
  · rfl
  split <;> simp

/-! ## The transmitter -/

@[simp] theorem curNext_pw (ep n k : Nat) (c : Cur) (s : State) : (curNext ep n k c s).pw = s.pw := by
  unfold curNext
  dsimp only
  rw [curOver_pw]
  exact ite_keep (fun t : State => t.pw) (by simp) (by simp)

@[simp] theorem linError_pw (n id r : Nat) (s : State) : (linError n id r s).pw = s.pw := by simp [linError]

@[simp] theorem charOut_pw (n v : Nat) (a : Option Nat) (s : State) : (charOut n v a s).pw = s.pw := emit_pw ..

@[simp] theorem collide_pw (ep n : Nat) (c : Cur) (s : State) : (collide ep n c s).pw = s.pw := by
  unfold collide
  exact ite_keep (fun t : State => t.pw) (by simp) (by simp)

@[simp] theorem txSend_pw (ep n : Nat) (loop : Bool) (mis : Option Nat) (s : State) : (txSend ep n loop mis s).pw = s.pw := by
  unfold txSend
  split
  · rfl
  split
  · rfl
  dsimp only
  split
  · simp
  split
  · simp
  · rw [curNext_pw]
    exact ite_keep (fun t : State => t.pw) (by simp) (by simp)

@[simp] theorem linSend_pw (n : Nat) (mis : Option Nat) (s : State) : (linSend n mis s).pw = s.pw := by
  unfold linSend
  dsimp only
  split
  · rfl
  · split <;> simp

@[simp] theorem txOne_pw (n : Nat) (mis : Option Nat) (s : State) : (txOne n mis s).pw = s.pw := by
  unfold txOne
  split
  · rfl
  split
  · split <;> simp
  split <;> simp

@[simp] theorem txChar_pw (n : Nat) (mis : Option Nat) (s : State) : (txChar_ n mis s).pw = s.pw := by
  unfold txChar_
  split
  · simp
  · exact whenDo_keep (fun t : State => t.pw) _ _ _ (by simp)

/-- The characters in the shifters are finished without a change of the power state. -/
@[simp] theorem finishChars_pw (s : State) : (finishChars s).pw = s.pw := by
  unfold finishChars
  apply forAll_keep (fun t : State => t.pw)
  exact fun n t => whenDo_keep (fun u : State => u.pw) _ _ _ (txChar_pw ..)

end Sys2Proof.Machine
end

section
/-!
SUPPORT. Wake events and the power states (R274 to R276, R450 to R454).
-/
namespace Sys2Proof.Machine

/-! ## Wake sources -/

section
variable {s : State}

/-- A falling edge on an armed port in DOZE is a wake event of the port. -/
theorem portEdge_doze {n : Nat} (ha : wakeAllowed s (decide (n < 8)) = true) (hr : s.rb (apOff n 0x20) 0 = true) (hst : s.pw.st = 2) :
    portEdge n s = wakeEvent 1 n (raise (apOff n 0x24) 0x200 (raise (apOff n 0x20) 2 (modPort n (fun p => { p with line := invRx s n }) s))) := by
  have hawake : (decide (s.pw.st = 3 ∨ s.pw.st = 4) && !s.pw.osc) = false := by simp [hst]
  unfold portEdge
  rw [if_neg (by simp [ha, hr])]
  dsimp only
  rw [hawake, whenDo_false]

theorem wakeIn_wakes {r : Bool} (ha : wakeAllowed s true = true) (h2 : s.rb 0x2004 2 = true) (h3 : s.rb 0x2004 3 = r) :
    wakeIn r s = wakeEvent 2 0 s := by
  unfold wakeIn
  rw [if_pos (by simp [ha, h2, h3])]

theorem hostWakes_wakes {v : Word} (hv : bit v 0 = true) (h4 : s.rb 0x2004 4 = true) (ha : wakeAllowed s false = true) :
    hostWakes v s = wakeEvent 3 0 s := by
  unfold hostWakes
  rw [if_pos (by simp [hv, h4, ha])]

theorem timerWakes_wakes (ha : wakeAllowed s false = true) (h5 : s.rb 0x2004 5 = true) (hd : s.tape.wakeDone = false)
    (ht : (mkD (s.reg 0x200C) (s.reg 0x2008)).toNat ≤ s.dt) :
    timerWakes s = wakeEvent 4 0 { s with tape := { s.tape with wakeDone := true } } := by
  unfold timerWakes
  rw [if_pos (by simp [ha, h5, hd, ht])]
  rfl

theorem wakeAllowed_agentPre (a : Nat) (s : State) (hib : Bool) : wakeAllowed (agentPre a s) hib = wakeAllowed s hib := by
  unfold agentPre
  split <;> rfl

/-- A write of PW_HOST_WAKE. -/
theorem writeReg_hostWake (v : Word) (s : State) : writeReg 0x2010 v s = hostWakes v s := by
  have hd : dated 0x2010 = false := by decide
  unfold writeReg
  dsimp only
  rw [hd, whenDo_false]
  rfl

/-- In NAP the host's write of PW_HOST_WAKE alone is served. -/
theorem hostWrite_asleep {v : Word} (hs : hostServed s = true) (hw : s.awake = false) :
    hostWrite 0x2010 (mkD 0#32 v) 4 true false s = hostWakes v s := by
  unfold hostWrite
  rw [if_neg (by simp [hs]), if_pos hw, if_pos ⟨rfl, rfl, rfl, rfl⟩, loW_mkD]

end

/-! ## What a wake event does -/

/-- A wake event noted with its source and its cause. -/
def wakeNoted (src port : Nat) (s : State) : State :=
  raise 0x2020 2 (modPw (fun p => { p with lastWake := src, wakePort := if src = 1 then port else p.wakePort }) s)

theorem wakeEvent_eq (src port : Nat) (s : State) : wakeEvent src port s =
    if (wakeNoted src port s).pw.req.isSome then modPw (fun p => { p with latched := some (src, port) }) (wakeNoted src port s)
    else match (wakeNoted src port s).pw.st with
      | 2 => if wakeTarget (wakeNoted src port s) = 2 then wakeNoted src port s else enterPower 1 (wakeNoted src port s)
      | 3 => wakeStart (wakeNoted src port s)
      | 4 => wakeStart (wakeNoted src port s)
      | _ => wakeNoted src port s := rfl

theorem wakeNoted_pw (src port : Nat) (s : State) : (wakeNoted src port s).pw =
    { s.pw with lastWake := src, wakePort := if src = 1 then port else s.pw.wakePort } := raise_pw ..

section
variable {s : State} (src port : Nat) (hreq : s.pw.req = none)
include hreq

/-- With no entry pending, the state decides what a wake event does. -/
theorem wakeEvent_noted : wakeEvent src port s = match s.pw.st with
    | 2 => if wakeTarget (wakeNoted src port s) = 2 then wakeNoted src port s else enterPower 1 (wakeNoted src port s)
    | 3 => wakeStart (wakeNoted src port s)
    | 4 => wakeStart (wakeNoted src port s)
    | _ => wakeNoted src port s := by
  have hr : (wakeNoted src port s).pw.req.isSome = false := by rw [wakeNoted_pw, hreq]; rfl
  have hst : (wakeNoted src port s).pw.st = s.pw.st := by rw [wakeNoted_pw]
  rw [wakeEvent_eq, hr, hst]
  rfl

theorem wakeEvent_doze (hst : s.pw.st = 2) (ht : s.rf 0x2004 0 2 ≠ 2) : wakeEvent src port s = raise 0x2020 1
    { wakeNoted src port s with pw := { (wakeNoted src port s).pw with st := 1, req := none } } := by
  have hrf : (wakeNoted src port s).rf 0x2004 0 2 = s.rf 0x2004 0 2 := by
    unfold State.rf wakeNoted
    rw [State.reg_raise, if_neg (by decide)]
    rfl
  have htarget : ¬ wakeTarget (wakeNoted src port s) = 2 := by
    unfold wakeTarget
    rw [hrf, if_neg ht]
    decide
  rw [wakeEvent_noted src port hreq, hst]
  exact if_neg htarget

theorem wakeEvent_nap (hst : s.pw.st = 3) (hk : s.pw.waking = false) : wakeEvent src port s =
    { wakeNoted src port s with pw := { (wakeNoted src port s).pw with waking := true } } := by
  have hk1 : ¬ (wakeNoted src port s).pw.waking = true := by rw [wakeNoted_pw]; simp [hk]
  have hst1 : ¬ (wakeNoted src port s).pw.st = 4 := by rw [wakeNoted_pw]; simp [hst]
  rw [wakeEvent_noted src port hreq, hst]
  exact (if_neg hk1).trans (if_neg hst1)

theorem wakeEvent_hibernate (hst : s.pw.st = 4) (hk : s.pw.waking = false) : wakeEvent src port s = emit (.pin 5 true)
    { wakeNoted src port s with pw := { (wakeNoted src port s).pw with waking := true, pwrReq := true } } := by
  have hk1 : ¬ (wakeNoted src port s).pw.waking = true := by rw [wakeNoted_pw]; simp [hk]
  have hst1 : (wakeNoted src port s).pw.st = 4 := by rw [wakeNoted_pw]; exact hst
  rw [wakeEvent_noted src port hreq, hst]
  exact (if_neg hk1).trans (if_pos hst1)

end

/-! ## Entries -/

section
variable {s : State}

theorem napEntered_enters (hw : s.awake = true) (hr : s.pw.req = some 3) (hc : ∀ i, i < 22 → (s.eg (48 + i)).cur = none) :
    napEntered s = napEnter s :=
  if_pos ⟨hr, hw, List.all_eq_true.mpr fun i hi => by simp [hc i (List.mem_range.mp hi)]⟩

theorem wakeStart_napSt {s : State} (h : s.pw.st = 3) : (wakeStart s).pw.st = 3 := by
  unfold wakeStart
  split
  · exact h
  · rw [if_neg (by omega)]
    exact h

/-- The entry to NAP ends with the device in NAP, woken again where a wake event was latched. -/
theorem napEnter_ends (s : State) : ∃ t, napEnter s =
    if (enterPower 3 t).pw.latched.isSome then wakeStart (modPw (fun p => { p with latched := none }) (enterPower 3 t))
    else enterPower 3 t := ⟨_, rfl⟩

theorem napEnter_st (s : State) : (napEnter s).pw.st = 3 := by
  obtain ⟨t, ht⟩ := napEnter_ends s
  have h3 : (enterPower 3 t).pw.st = 3 := by unfold enterPower; rw [raise_pw]
  rw [ht]
  exact ite_keep (fun u : State => u.pw.st) (wakeStart_napSt h3) h3

theorem hibEntered_enters (hw : s.awake = true) (hr : s.pw.req = some 4) (hh : hibReady s = true) : hibEntered s = hibEnter s :=
  if_pos ⟨hr, hw, hh⟩

/-- The state that the hibernate image is made of. -/
def hibSource (s : State) : State := persStore (pcount 1 (finishChars s))

theorem persStore_latched (t : State) : (persStore (pcount 1 t)).pw.latched = t.pw.latched := rfl
theorem persStore_out (t : State) : (persStore (pcount 1 t)).out = t.out := rfl

theorem hibSource_latched (s : State) : (hibSource s).pw.latched = s.pw.latched := by
  unfold hibSource
  rw [persStore_latched, finishChars_pw]

theorem hibSource_out (s : State) : (hibSource s).out = (finishChars s).out := persStore_out _

/-- What HIBERNATE leaves behind, before the balls PWR_REQ and CLKREQ_N are released. -/
def hibLeft (s1 : State) : State :=
  { coreReset s1 with
    regs := alwaysOnRegs s1.regs, ports := alwaysOnPorts s1.ports, boot := s1.boot, tap := {},
    pw := { (coreReset s1).pw with
      st := 4, hib := some (hibImage s1), lean := s1.pw.lean, coarse := s1.pw.coarse,
      store4 := s1.pw.store4, pwrReq := false, clkReq := false,
      lastWake := s1.pw.lastWake, wakePort := s1.pw.wakePort },
    seam := { split := s1.seam.split, profiled := s1.seam.profiled },
    peer := { rank := s1.peer.rank } }

theorem hibLeft_pins (t : State) : emit (.pin 6 true) (emit (.pin 5 false) (hibLeft t)) =
    { hibLeft t with out := .pin 6 true :: .pin 5 false :: t.out } := rfl

theorem hibEnter_eq (s : State) : hibEnter s =
    if (hibSource s).pw.latched.isSome then wakeStart (emit (.pin 6 true) (emit (.pin 5 false) (hibLeft (hibSource s))))
    else emit (.pin 6 true) (emit (.pin 5 false) (hibLeft (hibSource s))) := by
  unfold hibEnter hibSource
  generalize persStore (pcount 1 (finishChars s)) = t
  rfl

/-- With no wake latched, HIBERNATE is entered with both balls released. -/
theorem hibEnter_stays (hl : s.pw.latched = none) :
    hibEnter s = { hibLeft (hibSource s) with out := .pin 6 true :: .pin 5 false :: (finishChars s).out } := by
  rw [hibEnter_eq, hibSource_latched, hl, if_neg (by decide), hibLeft_pins, hibSource_out]

/-! ## PWR_GOOD -/

theorem powerGood_resumes {im : HibImage} (bist seams mram : Nat) (hst : s.pw.st = 4) (hk : s.pw.waking = true)
    (hh : s.pw.hib = some im) : powerGood true bist seams mram s = hibResume mram im s := by
  unfold powerGood
  rw [if_pos ⟨hst, hk⟩, hh]

theorem powerGood_boots {im : HibImage} (bist seams mram : Nat) (hst : s.pw.st = 4) (hk : s.pw.waking = true)
    (hh : s.pw.hib = some im) : powerGood false bist seams mram s =
      pcount 3 (modPw (fun p => { p with hibFail := true }) (bootUp s.boot.source s.rank s.pw.vio33 bist seams mram s)) := by
  unfold powerGood
  rw [if_pos ⟨hst, hk⟩, hh]

theorem pmicLate_stays (hst : s.pw.st = 4) (hk : s.pw.waking = true) : pmicLate s = emit (.pin 5 false)
    { s with pw := { s.pw with waking := false, osc := false, pwrReq := false, pmicMiss := true } } :=
  if_pos ⟨hst, hk⟩

end

/-! ## O59 -/

/-- The host's HOST_WAKE in NAP. -/
theorem exec_hostWake_nap {s : State} (hs : hostServed s = true) (hst : s.pw.st = 3) :
    exec (.hostWake 0) s = .next (settle s (hostWakes 1#32 s)) :=
  calc exec (.hostWake 0) s = done s (hostWrite 0x2010 (mkD 0#32 1#32) 4 true false s) := rfl
    _ = _ := by rw [hostWrite_asleep hs (by unfold State.awake; simp [hst]), done_eq]

/-- Settles O59: each clause is one of the lemmas above. -/
theorem powerMoves : Obligations.PowerMoves := by
  unfold Obligations.PowerMoves
  intro s
  refine ⟨fun n ha hr hst => ?port, fun r ha h2 h3 => ?wakeIn, fun a hm h4 ha => ?host, fun hs hst h4 ha => ?hostNap,
    fun ha h5 hd ht => ?timer, fun src port hreq => ?event, fun hw hr hc => exec_to (done_core _ hw) (napEntered_enters hw hr hc),
    napEnter_st s, fun hw hr hh => exec_to (done_core _ hw) (hibEntered_enters hw hr hh), fun hl => ?hibernate,
    fun bist seams mram im hst hk hh => ⟨?good, ?bad⟩, fun hst hk => exec_to (t := pmicLate s) rfl (pmicLate_stays hst hk)⟩
  case port => exact exec_to (t := portEdge n s) rfl (portEdge_doze ha hr hst)
  case wakeIn => exact exec_to (t := wakeIn r s) rfl (wakeIn_wakes ha h2 h3)
  case host =>
    have hexec : exec (.hostWake a) s = .next (settle s (agentDone a 0x2010 s (writeReg 0x2010 1#32 (agentPre a s)))) :=
      calc exec (.hostWake a) s = done s (agentWrite a 0x2010 1#32 s) := rfl
        _ = _ := by rw [agentWrite_served hm, done_eq]
    refine exec_to hexec (congrArg (agentDone a _ s) ?_)
    rw [writeReg_hostWake, hostWakes_wakes (by decide) (by rw [agentPre_at_rb]; exact h4) (by rw [wakeAllowed_agentPre]; exact ha)]
  case hostNap => exact exec_to (exec_hostWake_nap hs hst) (hostWakes_wakes (by decide) h4 ha)
  case timer => exact exec_to (t := timerWakes s) rfl (timerWakes_wakes ha h5 hd ht)
  case event =>
    intro u
    exact ⟨fun hst ht => wakeEvent_doze src port hreq hst ht, fun hst hk => wakeEvent_nap src port hreq hst hk,
      fun hst hk => wakeEvent_hibernate src port hreq hst hk⟩
  case hibernate =>
    rw [hibEnter_stays hl]
    unfold hibSource
    generalize persStore (pcount 1 (finishChars s)) = t
    exact ⟨rfl, rfl, rfl, rfl, rfl, rfl⟩
  case good => exact exec_to (t := powerGood true bist.toNat seams.toNat mram.toNat s) rfl (powerGood_resumes _ _ _ hst hk hh)
  case bad => exact exec_to (t := powerGood false bist.toNat seams.toNat mram.toNat s) rfl (powerGood_boots _ _ _ hst hk hh)

end Sys2Proof.Machine
end

section
/-!
SUPPORT. Resets, MRAM writes, monitors and the test access port (R457, R458, R464, R465, R475 to R481, R487).
-/
namespace Sys2Proof.Machine

/-! ## Resets -/

theorem brownedOut_resets {s : State} (hr : s.inReset = false) (ht : s.testEn = false) (h4 : s.pw.st ≠ 4) :
    brownedOut s = modPw (fun p => { p with brown := true }) (toReset s) :=
  if_pos ⟨by simp [alwaysOn, hr, ht], h4⟩

theorem vaonUp_starts {s : State} (h : s.pw.pwrReq = false) :
    vaonUp s = emit (.pin 5 true) { s with pw := { s.pw with pwrReq := true } } := by
  unfold vaonUp
  rw [h]
  exact if_neg (by decide)

/-! ## MRAM writes and monitors -/

section
variable {s : State} (hw : s.awake = true)
include hw

theorem persElapsed_writes {k g : Nat} (h : nextSlot s.pw.pers = (k, g)) :
    persElapsed s = { s with pw := { s.pw with pers := mapIns s.pw.pers k (g, s.pw.pcnt) } } := by
  unfold persElapsed persStore
  rw [if_pos hw, h]
  rfl

theorem slowStore_writes {k g : Nat} (h : nextSlot s.pw.slow = (k, g)) (hs : s.rf 0x2028 0 16 ≠ 0) :
    slowStore s = { s with pw := { s.pw with slow := mapIns s.pw.slow k (g, slowNow s) } } := by
  unfold slowStore
  rw [if_pos ⟨hw, hs⟩, h]
  rfl

/-- The hottest of four sensors, and the signed temperatures that it is chosen from. -/
def sensorTemp (t : List (BitVec 12)) (i : Nat) : Int := (t.getD i 0#12).toInt
def hottest (t : List (BitVec 12)) : Nat := (List.range 4).foldl (fun k i => if sensorTemp t k < sensorTemp t i then i else k) 0

/-- The hottest sensor is held against both thresholds, and is the highest temperature seen where it is higher. -/
theorem thermal_samples (t : List (BitVec 12)) :
    thermal t s =
      (let tj := sensorTemp t (hottest t)
      let w := therm s.pw.warnArmed (signed 12 (s.rf 0xE014 0 12)) tj
      let c := therm s.pw.critArmed (signed 12 (s.rf 0xE014 16 12)) tj
      whenDo c.1 (fun s => raise 0xE020 2 (pcount 6 s)) (whenDo w.1 (fun s => raise 0xE020 1 (pcount 5 s))
        { s with
          pw := { s.pw with
            tj := unsigned 12 tj, sensor := hottest t, warnArmed := w.2, critArmed := c.2,
            pcnt := mapSet (dflt 0#64) s.pw.pcnt 7 (BitVec.ofNat 64 (max (mapGet (dflt 0#64) s.pw.pcnt 7).toNat tj.toNat)) } })) := by
  unfold thermal
  rw [if_neg (by simp [hw])]
  rfl

theorem supplies_checked (out : Nat) :
    supplies out s =
      (let new := (bitsOf 9 out).filter (fun i => !nbit s.pw.supplyOut i)
      whenDo (decide (new ≠ [])) (raise 0xE020 4) (forAll new (fun _ => pcount 8) { s with pw := { s.pw with supplyOut := out } })) := by
  unfold supplies
  rw [if_neg (by simp [hw])]
  rfl

end

/-! ## The test access port -/

section
variable {s : State} (tms tdi : Bool)

/-- Outside the capture and shift states a rising edge only moves the controller. -/
theorem tapRise_moves (h3 : s.tap.st ≠ 3) (h4 : s.tap.st ≠ 4) (h10 : s.tap.st ≠ 10) (h11 : s.tap.st ≠ 11) :
    tapRise tms tdi s = { s with
      tap := { s.tap with st := tapNext s.tap.st tms, ir := if tapNext s.tap.st tms = 0 then 1 else s.tap.ir } } := by
  unfold tapRise
  dsimp only
  rw [if_neg (by simp [h3])]
  simp only

theorem tapNext_shift_ne (tms : Bool) : ¬ (if tms then 5 else 4) = 0 := by cases tms <;> decide

/-- In Shift-DR a rising edge shifts the data register. -/
theorem tapRise_shiftDr (h : s.tap.st = 4) :
    tapRise tms tdi s = { s with
      tap := { s.tap with dr := shiftIn (drBits s.tap.ir) s.tap.dr tdi, st := if tms then 5 else 4 } } := by
  unfold tapRise
  simp only [h, Nat.reduceEqDiff, false_and, if_false, tapNext, tapNext_shift_ne]

/-- In Capture-DR with IDCODE selected a rising edge loads the identity. -/
theorem tapRise_idcode (h : s.tap.st = 3) (hir : s.tap.ir = 1) :
    tapRise tms tdi s = { s with tap := { s.tap with dr := idcode, st := if tms then 5 else 4 } } := by
  have hscan : scanIr 1 = false := by decide
  unfold tapRise
  simp only [h, hir, hscan, Bool.false_eq_true, and_false, if_false, if_true, tapNext, tapNext_shift_ne]

/-- In Update-IR a falling edge makes the shifted instruction the current one. -/
theorem tapFall_updateIr (h : s.tap.st = 15) : tapFall s = { s with tap := { s.tap with ir := s.tap.irShift, tdo := none } } := by
  unfold tapFall
  simp only [h, Nat.reduceEqDiff, if_false]

theorem tapEdge_rising (h4 : s.pw.st ≠ 4) : tapEdge true tms tdi s = tapRise tms tdi s := by
  unfold tapEdge tapOn
  rw [if_pos (decide_eq_true h4)]
  rfl

theorem tapEdge_falling (h4 : s.pw.st ≠ 4) : tapEdge false tms tdi s = tapFall s := by
  unfold tapEdge tapOn
  rw [if_pos (decide_eq_true h4)]
  rfl

omit tms tdi in
theorem tapReset_resets (h4 : s.pw.st ≠ 4) : tapReset s = { s with tap := { s.tap with st := 0, ir := 1, tdo := none } } :=
  if_pos (decide_eq_true h4)

end

/-! ## O60 -/

/-- Settles O60: each clause is one of the lemmas above; the state that a reset leaves is coreReset's. -/
theorem resetsAndMonitors : Obligations.ResetsAndMonitors := by
  unfold Obligations.ResetsAndMonitors
  intro s
  refine ⟨rfl, ⟨rfl, rfl, rfl, rfl, rfl, rfl, rfl, rfl, rfl, rfl, rfl⟩, rfl, rfl,
    fun hr ht h4 => exec_to (t := brownedOut s) rfl (brownedOut_resets hr ht h4), rfl,
    fun h => exec_to (t := vaonUp s) rfl (vaonUp_starts h), fun hw => ⟨fun k g h => ?pers, fun k g h hs => ?slow,
      fun t0 t1 t2 t3 => ?thermal, fun out => ?supplies⟩, fun h4 => ?tap⟩
  case pers => exact exec_to (done_core _ hw) (persElapsed_writes hw h)
  case slow => exact exec_to (done_core _ hw) (slowStore_writes hw h hs)
  case thermal => exact exec_to (done_core _ hw) (thermal_samples hw [t0, t1, t2, t3])
  case supplies => exact exec_to (done_core _ hw) (supplies_checked hw out.toNat)
  case tap =>
    intro t
    refine ⟨fun tms tdi h3 hs4 h10 h11 => ?moves, fun tms tdi h => ?shift, fun tms tdi h hir => ?idcode, fun tms tdi h => ?update,
      exec_to (t := tapReset s) rfl (tapReset_resets h4)⟩
    case moves =>
      exact exec_to (t := tapEdge true tms tdi s) rfl ((tapEdge_rising tms tdi h4).trans (tapRise_moves tms tdi h3 hs4 h10 h11))
    case shift => exact exec_to (t := tapEdge true tms tdi s) rfl ((tapEdge_rising tms tdi h4).trans (tapRise_shiftDr tms tdi h))
    case idcode => exact exec_to (t := tapEdge true tms tdi s) rfl ((tapEdge_rising tms tdi h4).trans (tapRise_idcode tms tdi h hir))
    case update => exact exec_to (t := tapEdge false tms tdi s) rfl ((tapEdge_falling tms tdi h4).trans (tapFall_updateIr h))

end Sys2Proof.Machine
end

section
/-!
SUPPORT. What leaves the sentence store alone (R220): one lemma for each function of the model that writes no store word, in the
order of the definitions. The rules for a choice, for a conditional change and for a change of every element of a list come first.
-/
namespace Sys2Proof.Machine

@[simp] theorem ite_store (p : Prop) [Decidable p] (s t : State) : (if p then s else t).store = if p then s.store else t.store :=
  apply_ite State.store p s t

@[simp] theorem whenDo_store {c : Bool} {f : State → State} {s : State} (h : (f s).store = s.store) :
    (whenDo c f s).store = s.store := whenDo_keep State.store c f s h

@[simp] theorem forAll_store {β : Type} {f : β → State → State} (h : ∀ b s, (f b s).store = s.store) (l : List β)
    (s : State) :
    (forAll l f s).store = s.store := forAll_keep State.store f h l s

/-! ## Ops -/

@[simp] theorem touch_store (o : Nat) (m : Nat) (s : State) : (touch o m s).store = s.store := by simp [touch]
@[simp] theorem noteWas_store (o : Nat) (v : Word) (s : State) : (noteWas o v s).store = s.store := by simp [noteWas]

@[simp] theorem countTalker_store (t sub off n : Nat) (s : State) : (countTalker t sub off n s).store = s.store := by
  simp [countTalker]

@[simp] theorem noteParity_store (a : Nat) (b : Nat) (s : State) : (noteParity a b s).store = s.store := by simp [noteParity]

@[simp] theorem readWord_store (b a : Nat) (s : State) : (readWord b a s).1.store = s.store := by
  unfold readWord
  dsimp only
  split <;> simp

@[simp] theorem readWords_store (b n : Nat) : ∀ (p : Nat) (s : State), (readWords b n p s).1.store = s.store := by
  induction n with
  | zero => intro p s; rfl
  | succ n ih => intro p s; exact (ih _ _).trans (readWord_store ..)

@[simp] theorem releaseTo_store (b p : Nat) (s : State) : (releaseTo b p s).store = s.store := by simp [releaseTo]
@[simp] theorem releaseBob_store (b : Nat) (s : State) : (releaseBob b s).store = s.store := by simp [releaseBob]
@[simp] theorem unpinCheck_store (a : Nat) (s : State) : (unpinCheck a s).store = s.store := by unfold unpinCheck; split <;> simp

@[simp] theorem modPin_store (a : Nat) (f : Pin → Pin) (s : State) : (modPin a f s).store = s.store := by
  unfold modPin
  split <;> simp

@[simp] theorem dropRef_store (a : Nat) (s : State) : (dropRef a s).store = s.store := by simp [dropRef]
@[simp] theorem ingressRp_store (b : Nat) (s : State) : (ingressRp b s).store = s.store := by simp [ingressRp]

@[simp] theorem readRecord_store (b p : Nat) (s : State) : (readRecord b p s).1.store = s.store := by
  unfold readRecord
  dsimp only
  rw [readWords_store, readWords_store, readWords_store]

@[simp] theorem admUpdate_store (m : Nat) (s : State) : (admUpdate m s).store = s.store := by simp [admUpdate]
@[simp] theorem mergePut_store (m : Nat) (e : MEnt) (s : State) : (mergePut m e s).store = s.store := by simp [mergePut]
@[simp] theorem heldSpaceDrop_store (b : Nat) (s : State) : (heldSpaceDrop b s).store = s.store := by simp [heldSpaceDrop]
@[simp] theorem abandonFull_store (t sub : Nat) (s : State) : (abandonFull t sub s).store = s.store := by simp [abandonFull]
@[simp] theorem laneSkip_store (b : Nat) (s : State) : (laneSkip b s).store = s.store := by simp [laneSkip]

@[simp] theorem laneDropped_store (k : Nat) (ctr : Nat) (r : Ref) (s : State) : (laneDropped k ctr r s).store = s.store := by
  simp [laneDropped]

@[simp] theorem rtOutcome_store (bitNo k t : Nat) (s : State) : (rtOutcome bitNo k t s).store = s.store := by simp [rtOutcome]
@[simp] theorem fresh_store (s : State) : s.fresh.2.store = s.store := rfl

/-! ## HostOps -/

theorem hostWrites_go_store (n : Nat) : ∀ (a : Nat) (bs : List Byte) (s : State), (hostWrites.go n a bs s).store = s.store := by
  induction n with
  | zero => intro a bs s; rfl
  | succ n ih =>
    intro a bs s
    unfold hostWrites.go
    exact ite_keep State.store rfl ((ih ..).trans (emit_store ..))

@[simp] theorem hostWrites_store (a : Nat) (bs : List Byte) (s : State) : (hostWrites a bs s).store = s.store :=
  hostWrites_go_store ..

theorem hostReads_go_store (n : Nat) : ∀ (a l : Nat) (s : State), (hostReads.go n a l s).store = s.store := by
  induction n with
  | zero => intro a l s; rfl
  | succ n ih =>
    intro a l s
    unfold hostReads.go
    exact ite_keep State.store rfl ((ih ..).trans (emit_store ..))

@[simp] theorem hostReads_store (a l : Nat) (s : State) : (hostReads a l s).store = s.store := hostReads_go_store ..
@[simp] theorem wbIndex_store (r : Nat) (s : State) : (wbIndex r s).store = s.store := by simp [wbIndex]
@[simp] theorem raiseDone_store (r : Nat) (s : State) : (raiseDone r s).store = s.store := by simp [raiseDone]
@[simp] theorem ringCompleted_store (r : Nat) (s : State) : (ringCompleted r s).store = s.store := by simp [ringCompleted]
@[simp] theorem ringErr_store (r code idx : Nat) (s : State) : (ringErr r code idx s).store = s.store := by simp [ringErr]
@[simp] theorem serviceDone_store (port : Nat) (s : State) : (serviceDone port s).store = s.store := by simp [serviceDone]

/-! ## PeerOps -/

@[simp] theorem sendFlit_store (vc sub : Nat) (pay : List Word) (s : State) : (sendFlit vc sub pay s).store = s.store := by
  simp [sendFlit]

@[simp] theorem linkFlit_store (kind : Nat) (s : State) : (linkFlit kind s).store = s.store := by simp [linkFlit]
@[simp] theorem setCredit_store (k n : Nat) (s : State) : (setCredit k n s).store = s.store := by simp [setCredit]
@[simp] theorem peerFlit_store (s : State) : (peerFlit s).store = s.store := by simp [peerFlit]

@[simp] theorem peerPump_store (n : Nat) : ∀ s : State, (peerPump n s).store = s.store := by
  induction n with
  | zero => intro s; rfl
  | succ n ih =>
    intro s
    unfold peerPump
    exact ite_keep State.store ((ih _).trans (by simp)) rfl

@[simp] theorem peerFlush_store (s : State) : (peerFlush s).store = s.store := by simp [peerFlush]
@[simp] theorem logOut_store (e : FaultEnt) (s : State) : (logOut e s).store = s.store := by simp [logOut]
@[simp] theorem logIn_store (e : FaultEnt) (s : State) : (logIn e s).store = s.store := by simp [logIn]
@[simp] theorem closeWrite_store (tag : Nat) (s : State) : (closeWrite tag s).store = s.store := by simp [closeWrite]
@[simp] theorem fencesCheck_store (s : State) : (fencesCheck s).store = s.store := by simp [fencesCheck]

/-! ## Egress -/

@[simp] theorem egRefresh_store (ep : Nat) (s : State) : (egRefresh ep s).store = s.store := by simp [egRefresh]

@[simp] theorem choose_store (s : State) (ep : Nat) : (choose s ep).2.store = s.store := by
  unfold choose
  dsimp only
  split
  · rfl
  split <;> rfl

theorem choose_store_of {s t : State} {ep : Nat} {c : Option Cand} (h : choose s ep = (c, t)) : t.store = s.store :=
  (congrArg (fun y => y.2.store) h).symm.trans (choose_store ..)

@[simp] theorem checkView_store (r k : Nat) (v : RecView) (s : State) : (checkView r k v s).1.store = s.store := by
  unfold checkView
  dsimp only
  split
  · rfl
  · rfl
  · rfl
  · split <;> simp

@[simp] theorem checkRecord_store (r k a : Nat) (s : State) : (checkRecord r k a s).1.store = s.store := by
  unfold checkRecord
  dsimp only
  rw [checkView_store, readRecord_store]

@[simp] theorem checkFrom_store (r k a n : Nat) (c : Bool) (s : State) : (checkFrom r k a n c s).1.store = s.store := by
  unfold checkFrom
  dsimp only
  rw [checkView_store, readWords_store, readWords_store]

@[simp] theorem verifyRecord_store (a : Nat) (s : State) : (verifyRecord a s).store = s.store := by
  unfold verifyRecord
  split <;> simp

@[simp] theorem epCheck_store (ep k a : Nat) (s : State) : (epCheck ep k a s).1.store = s.store := by
  unfold epCheck
  repeat' split
  all_goals simp

@[simp] theorem abortCount_store (k : Nat) (o : CheckOut) (t : Nat) (s : State) : (abortCount k o t s).store = s.store := by
  unfold abortCount
  split <;> simp

@[simp] theorem withdrawn_store (k : Nat) (s : State) : (withdrawn k s).store = s.store := by simp [withdrawn]

@[simp] theorem formatMismatch_store (k : Nat) (r : Ref) (s : State) : (formatMismatch k r s).store = s.store := by
  simp [formatMismatch]

@[simp] theorem heldDelay_store (k : Nat) (r : Ref) (s : State) : (heldDelay k r s).store = s.store := by
  unfold heldDelay
  split <;> simp

@[simp] theorem delivered_store (k : Nat) (r : Ref) (s : State) : (delivered k r s).store = s.store := by simp [delivered]
@[simp] theorem serviceBoundary_store (ep : Nat) (s : State) : (serviceBoundary ep s).store = s.store := by simp [serviceBoundary]

@[simp] theorem closeFrame_store (n : Nat) (s : State) : (closeFrame n s).store = s.store := by
  unfold closeFrame
  dsimp only
  split <;> simp

@[simp] theorem placeSentence_store (k : Nat) (r : Ref) (c : Checked) (s : State) : (placeSentence k r c s).store = s.store := by
  unfold placeSentence
  dsimp only
  repeat' split
  all_goals simp

@[simp] theorem hostDeliver_store (k : Nat) (r : Ref) (c : Checked) (s : State) : (hostDeliver k r c s).store = s.store := by
  unfold hostDeliver
  dsimp only
  split <;> simp

theorem linLoad_store {n : Nat} {ty : Word} {pay : List Byte} {s t : State} (h : linLoad n ty pay s = some t) :
    t.store = s.store := by
  unfold linLoad at h
  dsimp only at h
  split at h
  · exact absurd h (by simp)
  · rw [← Option.some.inj h, setPort_store]

@[simp] theorem markBob_store (b : Nat) (s : State) : (markBob b s).store = s.store := by simp [markBob]
@[simp] theorem unmarkBob_store (b : Nat) (s : State) : (unmarkBob b s).store = s.store := by simp [unmarkBob]
@[simp] theorem rewindBob_store (b : Nat) (s : State) : (rewindBob b s).1.store = s.store := by unfold rewindBob; split <;> simp
@[simp] theorem canRelease_store (ep b : Nat) (s : State) : (canRelease ep b s).store = s.store := by simp [canRelease]
@[simp] theorem popRef_store (ep b : Nat) (s : State) : (popRef ep b s).1.store = s.store := by simp [popRef]

@[simp] theorem poisonRef_store (k : Nat) (r : Ref) (ok0 ok1 : Bool) (s : State) : (poisonRef k r ok0 ok1 s).store = s.store := by
  unfold poisonRef
  dsimp only
  repeat' split
  all_goals simp

@[simp] theorem portEnd_store (ep n : Nat) (s : State) : (portEnd ep n s).store = s.store := by simp [portEnd]

@[simp] theorem cutAbort_store (n : Nat) (c : Cur) (sh : Option (Nat × Nat)) (o : CheckOut) (s : State) :
    (cutAbort n c sh o s).store = s.store := by
  simp [cutAbort]

@[simp] theorem cutLoad_store (n k : Nat) : ∀ s : State, (cutLoad n k s).store = s.store := by
  induction k with
  | zero => intro s; rfl
  | succ k ih =>
    intro s
    unfold cutLoad
    split
    · rfl
    split
    · rfl
    dsimp only
    refine ite_keep State.store rfl (ite_keep State.store rfl (ite_keep State.store ?word
      (ite_keep State.store (ite_keep State.store (by simp) ?trailer) rfl)))
    case word => exact ite_keep State.store (by simp [ih]) (by simp)
    case trailer => split <;> simp

@[simp] theorem curOver_store (ep n : Nat) (s : State) : (curOver ep n s).store = s.store := by unfold curOver; split <;> simp

theorem onCuts_store {f : Nat → Cur → State → State} (h : ∀ n c t, (f n c t).store = t.store) (a : Nat) (s : State) :
    (onCuts a f s).store = s.store := by
  unfold onCuts
  apply forAll_store
  intro n t
  split
  · exact ite_keep State.store (h ..) rfl
  · rfl

@[simp] theorem cutFeed_store (a : Nat) (s : State) : (cutFeed a s).store = s.store :=
  onCuts_store (fun _ _ _ => (curOver_store ..).trans (cutLoad_store ..)) a s

@[simp] theorem cutBad_store (a : Nat) (s : State) : (cutBad a s).store = s.store :=
  onCuts_store (fun _ _ _ => cutAbort_store ..) a s

@[simp] theorem drivePort_store (n : Nat) (s : State) : (drivePort n s).store = s.store := by simp [drivePort]

@[simp] theorem beginCut_store (ep k b : Nat) (r : Ref) (p : Pin) (s : State) : (beginCut ep k b r p s).store = s.store := by
  unfold beginCut
  dsimp only
  exact ite_keep State.store (by simp) (ite_keep State.store (by simp) (ite_keep State.store (by simp) (by simp)))

@[simp] theorem beginPeer_store (k : Nat) (r : Ref) (p : Pin) (c : Checked) (s : State) :
    (beginPeer k r p c s).store = s.store := by
  unfold beginPeer
  dsimp only
  rw [peerPump_store, abortCount_store]
  exact (ite_keep State.store rfl (by simp)).trans (heldDelay_store ..)

@[simp] theorem beginMedium_store (ep k b port : Nat) (r : Ref) (p : Pin) (c : Checked) (s : State) :
    (beginMedium ep k b port r p c s).store = s.store := by
  unfold beginMedium
  split
  · split
    · rename_i h
      simp [linLoad_store h]
    · simp
  · split
    · simp
    · simp
    · dsimp only
      split
      · exact ite_keep State.store (by simp) (by simp)
      · exact ite_keep State.store (by simp) (by simp)

@[simp] theorem beginRef_store (ep k b : Nat) (r : Ref) (s : State) : (beginRef ep k b r s).store = s.store := by simp [beginRef]
@[simp] theorem startAt_store (ep k b : Nat) (s : State) : (startAt ep k b s).store = s.store := by simp [startAt]

@[simp] theorem boundary_store (ep : Nat) (s : State) : (boundary ep s).store = s.store := by
  unfold boundary
  refine ite_keep State.store ?_ (by simp)
  dsimp only
  split
  · rename_i h
    simp [choose_store_of h]
  · rename_i h
    simp [choose_store_of h]

/-! ## Fanout -/

@[simp] theorem withdrawSet_store (e : DecEntry) (s : State) : (withdrawSet e s).store = s.store := by simp [withdrawSet]
@[simp] theorem waitOver_store (a : Nat) (s : State) : (waitOver a s).store = s.store := by simp [waitOver]
@[simp] theorem xcOverflow_store (s : State) : (xcOverflow s).store = s.store := by simp [xcOverflow]
@[simp] theorem xcPoison_store (s : State) : (xcPoison s).store = s.store := by simp [xcPoison]

@[simp] theorem buildEnds_store (x : Build) (s : State) : (buildEnds x s).store = s.store := by
  unfold buildEnds
  dsimp only
  split <;> simp

@[simp] theorem holdCount_store (k t sub : Nat) (s : State) : (holdCount k t sub s).store = s.store := by simp [holdCount]
@[simp] theorem dropHeld_store (x : Held) (s : State) : (dropHeld x s).store = s.store := by simp [dropHeld]
@[simp] theorem cancelHeld_store (x : Held) (s : State) : (cancelHeld x s).store = s.store := by simp [cancelHeld]

@[simp] theorem acceptHold_store (e : DecEntry) (x : HoldSpec) (s : State) : (acceptHold e x s).1.store = s.store := by
  unfold acceptHold
  dsimp only
  repeat' split
  all_goals simp

/-! ## Tape -/

@[simp] theorem poDrive_store (n : Nat) (on : Bool) (s : State) : (poDrive n on s).store = s.store := by simp [poDrive]
@[simp] theorem poFire_store (n : Nat) (s : State) : (poFire n s).store = s.store := by simp [poFire]
@[simp] theorem regrid_store (s : State) : (regrid s).store = s.store := by simp [regrid]
@[simp] theorem stepDt_store (d : Int) (s : State) : (stepDt d s).store = s.store := by simp [stepDt]
@[simp] theorem wrStepHi_store (v : Word) (s : State) : (wrStepHi v s).store = s.store := by simp [wrStepHi]
@[simp] theorem setFreq_store (v : Word) (s : State) : (setFreq v s).store = s.store := by simp [setFreq]
@[simp] theorem wrFreq_store (v : Word) (s : State) : (wrFreq v s).store = s.store := by simp [wrFreq]
@[simp] theorem wrTpCtrl_store (v : Word) (s : State) : (wrTpCtrl v s).store = s.store := by simp [wrTpCtrl]
@[simp] theorem servoTo_store (st : Nat) (s : State) : (servoTo st s).store = s.store := by simp [servoTo]
@[simp] theorem wrDisc_store (v : Word) (s : State) : (wrDisc v s).store = s.store := by simp [wrDisc]
@[simp] theorem servoDrive_store (s : State) : (servoDrive s).store = s.store := by simp [servoDrive]

@[simp] theorem servoSample_store (off : Int) (s : State) : (servoSample off s).store = s.store := by
  unfold servoSample
  split <;> simp

@[simp] theorem wrOffs_store (v : Word) (s : State) : (wrOffs v s).store = s.store := by simp [wrOffs]
@[simp] theorem ppsIn_store (age : Nat) (s : State) : (ppsIn age s).store = s.store := by simp [ppsIn]
@[simp] theorem servoMiss_store (s : State) : (servoMiss s).store = s.store := by simp [servoMiss]
@[simp] theorem xcLast_store (c : Option Nat) (k : Nat) (s : State) : (xcLast c k s).store = s.store := by simp [xcLast]
@[simp] theorem skipLost_store (n : Nat) (s : State) : (skipLost n s).store = s.store := by simp [skipLost]
@[simp] theorem cellSkip_store (c : Nat) (s : State) : (cellSkip c s).store = s.store := by simp [cellSkip]
@[simp] theorem strobeSkip_store (n : Nat) (s : State) : (strobeSkip n s).store = s.store := by simp [strobeSkip]
@[simp] theorem schedLost_store (n : Nat) (s : State) : (schedLost n s).store = s.store := by simp [schedLost]

@[simp] theorem nomRate_store (s : State) (n : Nat) : (nomRate s n).2.store = s.store := by
  unfold nomRate
  split <;> rfl

@[simp] theorem enterAcquire_store (n : Nat) (pos : Int) (at_ : Nat) (dir : Int) (ev : Bool) (s : State) :
    (enterAcquire n pos at_ dir ev s).store = s.store := by
  simp [enterAcquire]

@[simp] theorem schedPast_store (p : Target → Bool) (s : State) : (schedPast p s).store = s.store := by simp [schedPast]
@[simp] theorem inputErr_store (n : Nat) (s : State) : (inputErr n s).store = s.store := raise_store ..

@[simp] theorem loopOn_store (n st good : Nat) (x : RefEv) (s : State) : (loopOn n st good x s).store = s.store := by
  simp [loopOn]

@[simp] theorem qeIndex_store (n : Nat) (s : State) : (qeIndex n s).store = s.store := by simp [qeIndex]
@[simp] theorem toHoldover_store (n : Nat) (s : State) : (toHoldover n s).store = s.store := by simp [toHoldover]
@[simp] theorem qeStop_store (n : Nat) (s : State) : (qeStop n s).store = s.store := by simp [qeStop]
@[simp] theorem chanStart_store (n : Nat) (s : State) : (chanStart n s).store = s.store := by simp [chanStart]
@[simp] theorem wrStrobe_store (n r : Nat) (v : Word) (s : State) : (wrStrobe n r v s).store = s.store := by simp [wrStrobe]
@[simp] theorem strobeGo_store (n : Nat) (s : State) : (strobeGo n s).store = s.store := by simp [strobeGo]
@[simp] theorem strobeEnd_store (n : Nat) (s : State) : (strobeEnd n s).store = s.store := by simp [strobeEnd]
@[simp] theorem ppsOut_store (s : State) : (ppsOut s).store = s.store := by unfold ppsOut; split <;> simp
@[simp] theorem ppsEnd_store (s : State) : (ppsEnd s).store = s.store := by simp [ppsEnd]
@[simp] theorem wrPps_store (o : Nat) (v : Word) (s : State) : (wrPps o v s).store = s.store := by simp [wrPps]

/-! ## Cells -/

@[simp] theorem cellWrite_store (c m : Nat) (f : List Word) (stamp : Nat) (s : State) :
    (cellWrite c m f stamp s).store = s.store := by
  simp [cellWrite]

@[simp] theorem cellSchedule_store (c : Nat) (s : State) : (cellSchedule c s).store = s.store := by simp [cellSchedule]
@[simp] theorem cellNew_store (c : Nat) (s : State) : (cellNew c s).store = s.store := by simp [cellNew]
@[simp] theorem cellDueGo_store (c : Nat) (s : State) : (cellDueGo c s).store = s.store := by unfold cellDueGo; split <;> simp
@[simp] theorem cellNone_store (c k bitNo : Nat) (s : State) : (cellNone c k bitNo s).store = s.store := by simp [cellNone]

@[simp] theorem cellsAfterNap_store (s : State) : (cellsAfterNap s).store = s.store := by
  unfold cellsAfterNap
  apply forAll_store
  intro c t
  refine ite_keep State.store rfl ?_
  split <;> simp

/-! ## Early -/

@[simp] theorem canAbandon_store (n : Nat) (s : State) : (canAbandon n s).store = s.store := by unfold canAbandon; split <;> simp
@[simp] theorem canCounts_store (n tec rcv : Nat) (s : State) : (canCounts n tec rcv s).store = s.store := by simp [canCounts]

@[simp] theorem canDestroy_store (n : Nat) (o : CheckOut) (s : State) : (canDestroy n o s).store = s.store := by
  unfold canDestroy
  split <;> simp

@[simp] theorem earlyRemove_store (a : Nat) (p : Pin) (s : State) : (earlyRemove a p s).store = s.store := by simp [earlyRemove]

/-! ## Framing -/

@[simp] theorem junkN_store (n k : Nat) (s : State) : (junkN n k s).store = s.store := by simp [junkN]
@[simp] theorem unitFull_store (n : Nat) (u : UnitSt) (s : State) : (unitFull n u s).store = s.store := by simp [unitFull]
@[simp] theorem linError_store (n id reason : Nat) (s : State) : (linError n id reason s).store = s.store := by simp [linError]
@[simp] theorem linBegin_store (n : Nat) (c : RxChar) (s : State) : (linBegin n c s).store = s.store := by simp [linBegin]
@[simp] theorem portqRead_store (n : Nat) (e : RxEnt) (s : State) : (portqRead n e s).store = s.store := by simp [portqRead]

/-! ## Async -/

@[simp] theorem rxPush_store (n : Nat) (w : Word) (cap : Cap) (s : State) (b : Bool) : (rxPush n w cap s b).store = s.store := by
  unfold rxPush
  exact ite_keep State.store (by simp) (by simp)

@[simp] theorem rxFalse_store (n : Nat) (s : State) : (rxFalse n s).store = s.store := by simp [rxFalse]

@[simp] theorem rxCatch_store (n : Nat) (fs : Bool) (w : Word) (age : Nat) (s : State) :
    (rxCatch n fs w age s).store = s.store := by
  simp [rxCatch]

@[simp] theorem linMeasure_store (n sync : Nat) (s : State) : (linMeasure n sync s).1.store = s.store := by
  unfold linMeasure
  dsimp only
  repeat' split
  all_goals simp

@[simp] theorem rxStop_store (n : Nat) (fs : Bool) (v : Nat) (par stop noisy early : Bool) (sync age : Nat) (s : State) :
    (rxStop n fs v par stop noisy early sync age s).store = s.store := by
  unfold rxStop
  dsimp only
  refine ite_keep State.store (ite_keep State.store rfl (ite_keep State.store ?loop (ite_keep State.store (by simp)
    (ite_keep State.store (by simp) (ite_keep State.store (by simp) (by simp)))))) (ite_keep State.store (by simp) rfl)
  split
  · rfl
  · exact ite_keep State.store (by simp) rfl

@[simp] theorem rxChar_store (n : Nat) (fs : Bool) (v : Nat) (par stop noisy early : Bool) (sync age : Nat) (s : State) :
    (rxChar_ n fs v par stop noisy early sync age s).store = s.store := by
  simp [rxChar_]

@[simp] theorem linBreakEnd_store (n bits age : Nat) (s : State) : (linBreakEnd n bits age s).store = s.store := by
  simp [linBreakEnd]

@[simp] theorem rateTake_store (n : Nat) (rx tx : Bool) (s : State) : (rateTake n rx tx s).store = s.store := by simp [rateTake]

@[simp] theorem wrRate_store (n : Nat) (char : Bool) (v : Word) (s : State) : (wrRate n char v s).store = s.store := by
  simp [wrRate]

@[simp] theorem rateApply_store (n : Nat) (tx : Bool) (s : State) : (rateApply_ n tx s).store = s.store := by simp [rateApply_]
@[simp] theorem collide_store (ep n : Nat) (c : Cur) (s : State) : (collide ep n c s).store = s.store := by simp [collide]

@[simp] theorem charOut_store (n v : Nat) (auto : Option Nat) (s : State) : (charOut n v auto s).store = s.store := by
  simp [charOut]

@[simp] theorem curNext_store (ep n k : Nat) (c : Cur) (s : State) : (curNext ep n k c s).store = s.store := by
  unfold curNext
  dsimp only
  rw [curOver_store]
  exact ite_keep State.store (by simp) (by simp)

@[simp] theorem txSend_store (ep n : Nat) (loop : Bool) (mis : Option Nat) (s : State) :
    (txSend ep n loop mis s).store = s.store := by
  unfold txSend
  repeat' split
  all_goals simp

@[simp] theorem linSend_store (n : Nat) (mis : Option Nat) (s : State) : (linSend n mis s).store = s.store := by
  unfold linSend
  dsimp only
  repeat' split
  all_goals simp

@[simp] theorem txOne_store (n : Nat) (mis : Option Nat) (s : State) : (txOne n mis s).store = s.store := by simp [txOne]
@[simp] theorem txChar_store (n : Nat) (mis : Option Nat) (s : State) : (txChar_ n mis s).store = s.store := by simp [txChar_]

@[simp] theorem txSkip_store (n : Nat) (s : State) : (txSkip n s).store = s.store := by
  unfold txSkip
  dsimp only
  repeat' split
  all_goals simp

@[simp] theorem backoffOver_store (n : Nat) (s : State) : (backoffOver n s).store = s.store := by
  unfold backoffOver
  split <;> simp

@[simp] theorem ifsOver_store (n : Nat) (s : State) : (ifsOver n s).store = s.store := by simp [ifsOver]
@[simp] theorem deOver_store (n : Nat) (s : State) : (deOver n s).store = s.store := by simp [deOver]

@[simp] theorem linRespond_store (n : Nat) (s : State) : (linRespond n s).store = s.store := by
  unfold linRespond
  dsimp only
  repeat' split
  all_goals simp

@[simp] theorem linSchedule_store (n : Nat) (mis : Option Nat) (s : State) : (linSchedule n mis s).store = s.store := by
  unfold linSchedule
  dsimp only
  repeat' split
  all_goals simp

@[simp] theorem rxFlush_store (n : Nat) (s : State) : (rxFlush n s).store = s.store := by simp [rxFlush]

/-! ## Bobbins -/

@[simp] theorem flushBob_store (b : Nat) (s : State) : (flushBob b s).store = s.store := by simp [flushBob]
@[simp] theorem lapse_store (b : Nat) (s : State) : (lapse b s).store = s.store := by simp [lapse]
@[simp] theorem scanPass_store (s : State) : (scanPass s).store = s.store := by simp [scanPass]
@[simp] theorem pinAge_store (a : Nat) (s : State) : (pinAge a s).store = s.store := by unfold pinAge; split <;> simp

/-! ## CheckUnits -/

@[simp] theorem cuRefused_store (n : Nat) (s : State) : (cuRefused n s).store = s.store := by simp [cuRefused]
@[simp] theorem cuOpenReject_store (n : Nat) (s : State) : (cuOpenReject n s).store = s.store := by simp [cuOpenReject]
@[simp] theorem cuStart_store (n : Nat) (s : State) : (cuStart n s).store = s.store := by simp [cuStart]
@[simp] theorem cuFinish_store (n : Nat) (s : State) : (cuFinish n s).store = s.store := by simp [cuFinish]
@[simp] theorem cuClear_store (n : Nat) (s : State) : (cuClear n s).store = s.store := by simp [cuClear]
@[simp] theorem cuSelftest_store (n : Nat) (s : State) : (cuSelftest n s).store = s.store := by simp [cuSelftest]
@[simp] theorem wrCkCmd_store (n : Nat) (v : Word) (s : State) : (wrCkCmd n v s).store = s.store := by simp [wrCkCmd]
@[simp] theorem cuTestEnd_store (n : Nat) (pass : Bool) (s : State) : (cuTestEnd n pass s).store = s.store := by simp [cuTestEnd]
@[simp] theorem wrCkData_store (n k : Nat) (v : Word) (s : State) : (wrCkData n k v s).store = s.store := by simp [wrCkData]
@[simp] theorem wrCkCfg_store (n : Nat) (v : Word) (s : State) : (wrCkCfg n v s).store = s.store := by simp [wrCkCfg]
@[simp] theorem wrCkParam_store (n i : Nat) (v : Word) (s : State) : (wrCkParam n i v s).store = s.store := by simp [wrCkParam]
@[simp] theorem wrCkRunLo_store (n : Nat) (v : Word) (s : State) : (wrCkRunLo n v s).store = s.store := by simp [wrCkRunLo]
@[simp] theorem wrCkPlain_store (n r : Nat) (v : Word) (s : State) : (wrCkPlain n r v s).store = s.store := by simp [wrCkPlain]
@[simp] theorem wrCk_store (n r : Nat) (v : Word) (s : State) : (wrCk n r v s).store = s.store := by unfold wrCk; split <;> simp
@[simp] theorem closeOpen_store (s : State) : (closeOpen s).store = s.store := by simp [closeOpen]

/-! ## CanPort -/

@[simp] theorem protoExc_store (n : Nat) (s : State) : (protoExc n s).store = s.store := by simp [protoExc]
@[simp] theorem recAfter_store (n : Nat) (s : State) : (recAfter n s).store = s.store := by simp [recAfter]

@[simp] theorem canBuild_store (n : Nat) (c : Cur) (f : Nat) (s : State) : (canBuild n c f s).1.store = s.store :=
  checkFrom_store ..

theorem canBuild_store_of {n : Nat} {c : Cur} {f : Nat} {s t : State} {x : CheckOut × Option Output}
    (h : canBuild n c f s = (t, x)) :
    t.store = s.store := (congrArg (fun y => y.1.store) h).symm.trans (canBuild_store ..)

@[simp] theorem canRetry_store (n : Nat) (s : State) : (canRetry n s).store = s.store := by
  unfold canRetry
  dsimp only
  split
  · rfl
  rename_i c _
  split
  · simp
  rename_i s2 ok0 ok1 h
  have h2 : s2.store = s.store := by
    split at h
    · split at h
      · rename_i s1 hr
        have h1 : s1.store = s.store := (congrArg (fun y => y.1.store) hr).symm.trans (rewindBob_store ..)
        obtain ⟨rfl, -⟩ := Prod.mk.inj (Option.some.inj h)
        exact (popRef_store ..).trans h1
      · exact absurd h (by simp)
    · obtain ⟨rfl, -⟩ := Prod.mk.inj (Option.some.inj h)
      rfl
  refine ite_keep State.store (by simp [h2]) (ite_keep State.store h2 ?_)
  split
  all_goals
    rename_i hb
    simp [canBuild_store_of hb, h2]

@[simp] theorem canArb_store (n : Nat) (s : State) : (canArb n s).store = s.store := by unfold canArb; split <;> simp

@[simp] theorem canSent_store (n : Nat) (s : State) : (canSent n s).store = s.store := by
  unfold canSent
  dsimp only
  split
  · rfl
  refine ite_keep State.store rfl (ite_keep State.store (by simp) ?_)
  split
  · refine ite_keep State.store rfl ?_
    split
    · rename_i h
      simp [canBuild_store_of h]
    · rename_i h
      simp [canBuild_store_of h]
  · simp

@[simp] theorem wrCnCtrl_store (n : Nat) (v : Word) (s : State) : (wrCnCtrl n v s).store = s.store := by simp [wrCnCtrl]
@[simp] theorem canRecovered_store (n : Nat) (s : State) : (canRecovered n s).store = s.store := by simp [canRecovered]
@[simp] theorem canOut_store (n : Nat) (s : State) : (canOut n s).store = s.store := by simp [canOut]
@[simp] theorem canBack_store (n : Nat) (s : State) : (canBack n s).store = s.store := by simp [canBack]

/-! ## Ether -/

@[simp] theorem cutFrame_store (k a : Nat) (s : State) : (cutFrame k a s).1.store = s.store := by unfold cutFrame; split <;> simp

@[simp] theorem tsSent_store (n : Nat) (jabber : Bool) (s : State) : (tsSent n jabber s).store = s.store := by
  unfold tsSent
  dsimp only
  split <;> simp

@[simp] theorem tsCollide_store (n : Nat) (s : State) : (tsCollide n s).store = s.store := by
  unfold tsCollide
  dsimp only
  split <;> simp

@[simp] theorem tsBackoffEnd_store (n : Nat) (s : State) : (tsBackoffEnd n s).store = s.store := by
  unfold tsBackoffEnd
  dsimp only
  repeat' split
  all_goals simp

@[simp] theorem tsPlcaLost_store (n : Nat) (s : State) : (tsPlcaLost n s).store = s.store := by simp [tsPlcaLost]
@[simp] theorem tsPlcaBack_store (n : Nat) (s : State) : (tsPlcaBack n s).store = s.store := by simp [tsPlcaBack]
@[simp] theorem tsOut_store (n : Nat) (s : State) : (tsOut n s).store = s.store := by simp [tsOut]
@[simp] theorem tsBack_store (n : Nat) (s : State) : (tsBack n s).store = s.store := by simp [tsBack]
@[simp] theorem euPause_store (u : Nat) (b : List Byte) (s : State) : (euPause u b s).store = s.store := by simp [euPause]
@[simp] theorem euDown_store (u : Nat) (s : State) : (euDown u s).store = s.store := by simp [euDown]
@[simp] theorem euLost_store (u : Nat) (remote : Bool) (s : State) : (euLost u remote s).store = s.store := by simp [euLost]
@[simp] theorem euUp_store (u : Nat) (an remote : Bool) (s : State) : (euUp u an remote s).store = s.store := by simp [euUp]
@[simp] theorem wrEuCtrl_store (u : Nat) (v : Word) (s : State) : (wrEuCtrl u v s).store = s.store := by simp [wrEuCtrl]
@[simp] theorem closeTimer_store (n : Nat) (s : State) : (closeTimer n s).store = s.store := by simp [closeTimer]

@[simp] theorem txStamp_store (u : Nat) (cfg : Word) (r : Ref) (age : Nat) (s : State) :
    (txStamp u cfg r age s).store = s.store := by
  simp [txStamp]

@[simp] theorem closeDue_store (u : Nat) (s : State) : (closeDue u s).store = s.store := by simp [closeDue]

@[simp] theorem euSent_store (u age : Nat) (s : State) : (euSent u age s).store = s.store := by
  unfold euSent
  dsimp only
  repeat' split
  all_goals simp

@[simp] theorem txtsPop_store (a u : Nat) (s : State) : (txtsPop_ a u s).1.store = s.store := by
  unfold txtsPop_
  dsimp only
  split <;> simp

/-! ## Engine -/

@[simp] theorem smCause_store (b : Nat) (s : State) : (smCause b s).store = s.store := raise_store ..
@[simp] theorem giveItem_store (m : Nat) (it : EItem) (s : State) : (giveItem m it s).store = s.store := by simp [giveItem]

@[simp] theorem mergeTokens_store (m n : Nat) : ∀ s : State, (mergeTokens m n s).store = s.store := by
  induction n with
  | zero => intro s; rfl
  | succ n ih =>
    intro s
    unfold mergeTokens
    split
    · exact (ih _).trans (by simp)
    · rfl

@[simp] theorem pull_store (e : Nat) (s : State) : (pull e s).store = s.store := by simp [pull]

@[simp] theorem halt_store (r : Nat) (s : State) : (halt r s).store = s.store := by
  unfold halt
  refine ite_keep State.store rfl ?_
  dsimp only
  split
  · simp
  · split <;> simp

@[simp] theorem dropOwed_store (e : Nat) (s : State) : (dropOwed e s).store = s.store := by simp [dropOwed]
@[simp] theorem discard_store (m : Nat) (s : State) : (discard m s).store = s.store := by simp [discard]

@[simp] theorem startRestart_store (cause m : Nat) (s : State) : (startRestart cause m s).store = s.store := by
  simp [startRestart]

@[simp] theorem resyncStart_store (s : State) : (resyncStart s).store = s.store := by unfold resyncStart; split <;> simp
@[simp] theorem fence_store (e : Nat) (s : State) : (fence e s).store = s.store := by simp [fence]
@[simp] theorem resyncFail_store (e : Nat) (s : State) : (resyncFail e s).store = s.store := by simp [resyncFail]

@[simp] theorem reportOdd_store (e reason lane idx : Nat) (s : State) : (reportOdd e reason lane idx s).store = s.store := by
  simp [reportOdd]

@[simp] theorem oddEngine_store (e reason lane idx : Nat) (s : State) : (oddEngine e reason lane idx s).store = s.store := by
  simp [oddEngine]

@[simp] theorem seamHist_store (x : DecEntry) (s : State) : (seamHist x s).store = s.store := by simp [seamHist]
@[simp] theorem countChecks_store (d : Decision) (s : State) : (countChecks d s).store = s.store := by simp [countChecks]

@[simp] theorem releaseEffects_store (m : Nat) (x : DecEntry) (s : State) : (releaseEffects m x s).store = s.store := by
  unfold releaseEffects
  dsimp only
  split <;> simp

@[simp] theorem thirdEntry_store (e : Nat) (r x : DecEntry) (s : State) : (thirdEntry e r x s).store = s.store := by
  unfold thirdEntry
  repeat' split
  all_goals simp

theorem pushEntry_go_store (e : Nat) (x : DecEntry) (s : State) : (pushEntry.go e x s).store = s.store := by
  unfold pushEntry.go
  dsimp only
  split <;> simp

@[simp] theorem pushEntry_store (e : Nat) (x : DecEntry) (s : State) : (pushEntry e x s).store = s.store := by
  unfold pushEntry
  split
  · exact ite_keep State.store rfl (pushEntry_go_store ..)
  · exact pushEntry_go_store ..

@[simp] theorem popHeads_store (es : List Nat) (s : State) : (popHeads es s).store = s.store := by simp [popHeads]

@[simp] theorem lateGo_store (s : State) : (lateGo s).store = s.store := by
  unfold lateGo
  dsimp only
  repeat' split
  all_goals simp

@[simp] theorem mirrorTo_store (e before : Nat) (s : State) : (mirrorTo e before s).store = s.store := by simp [mirrorTo]

@[simp] theorem decideNext_store (e : Nat) (parityOk : Bool) (s0 : State) : (decideNext e parityOk s0).store = s0.store := by
  unfold decideNext
  dsimp only
  repeat' split
  all_goals simp

@[simp] theorem resumeNext_store (e : Nat) (ok : Bool) (s : State) : (resumeNext e ok s).store = s.store := by
  unfold resumeNext
  refine ite_keep State.store rfl ?_
  dsimp only
  split
  · refine ite_keep State.store rfl ?_
    split
    · rfl
    · rw [mirrorTo_store]
      split <;> simp
  · rfl

@[simp] theorem seamResume_store (s : State) : (seamResume s).store = s.store := by simp [seamResume]
@[simp] theorem fenceSeam_store (b : Nat) (s : State) : (fenceSeam b s).store = s.store := by unfold fenceSeam; rfl
@[simp] theorem disagreeGo_store (s : State) : (disagreeGo s).store = s.store := by simp [disagreeGo]

@[simp] theorem roundEnd_store (aPass bPass agree : Bool) (s : State) : (roundEnd aPass bPass agree s).store = s.store := by
  simp [roundEnd]

@[simp] theorem selfGo_store (e : Nat) (s : State) : (selfGo e s).store = s.store := by
  unfold selfGo
  repeat' split
  all_goals simp

@[simp] theorem copyParity_store (s : State) : (copyParity s).store = s.store := by unfold copyParity; split <;> simp
@[simp] theorem splitLate_store (e : Nat) (s : State) : (splitLate e s).store = s.store := by simp [splitLate]

@[simp] theorem scrubBlock_store (x : Nat × BitVec 3) (s : State) : (scrubBlock x s).store = s.store := by
  unfold scrubBlock
  repeat' split
  all_goals simp

@[simp] theorem scrubGo_store (blocks : List (Nat × BitVec 3)) (s : State) : (scrubGo blocks s).store = s.store := by
  simp [scrubGo]

@[simp] theorem copyDone_store (s : State) : (copyDone s).store = s.store := by unfold copyDone; split <;> simp
@[simp] theorem joinGo_store (s : State) : (joinGo s).store = s.store := by unfold joinGo; split <;> simp
@[simp] theorem cutAt_store (m : Nat) (s : State) : (cutAt m s).store = s.store := by simp [cutAt]
@[simp] theorem cutSoon_store (m i : Nat) (s : State) : (cutSoon m i s).store = s.store := by simp [cutSoon]
@[simp] theorem cutGo_store (s : State) : (cutGo s).store = s.store := by simp [cutGo]

@[simp] theorem commitCut_store (m : Nat) (c : Cut) (s : State) : (commitCut m c s).store = s.store := by
  unfold commitCut
  simp

@[simp] theorem mixSnap_store (w : Nat) (good : List Nat) (bl : List (Nat × BitVec 3)) (s : State) :
    (mixSnap w good bl s).store = s.store := by
  unfold mixSnap
  apply forAll_store
  intro x t
  split
  · rfl
  · split <;> simp

@[simp] theorem commitGo_store (ok : Bool) (bl : List (Nat × BitVec 3)) (s : State) : (commitGo ok bl s).store = s.store := by
  have hpull : (forAll [0, 1, 2] (fun e s => whenDo (engWorks s e) (pull e) s) s).store = s.store := by simp
  unfold commitGo
  dsimp only
  refine ite_keep State.store rfl ?_
  split
  · rfl
  · exact ite_keep State.store (by simp) (ite_keep State.store (by simp) (ite_keep State.store (by simp)
      (ite_keep State.store rfl (by simp))))

/-! ## Stitch -/

@[simp] theorem setBanks_store (b : Nat) (v : Bank) (s : State) : (setBanks b v s).store = s.store := by simp [setBanks]

@[simp] theorem loadTables_store (dom t n : Nat) (ws : List Word) (s : State) : (loadTables dom t n ws s).1.store = s.store := by
  simp [loadTables]

@[simp] theorem stitchLq_store (k : Nat) (s : State) : (stitchLq k s).store = s.store := by simp [stitchLq]

@[simp] theorem stitchCarve_store (b : Nat) (s : State) : (stitchCarve b s).store = s.store := by
  unfold stitchCarve
  dsimp only
  repeat' split
  all_goals simp

@[simp] theorem stitchWin_store (s : State) : (stitchWin s).store = s.store := by simp [stitchWin]

@[simp] theorem slotFaults_store {α : Type} (bad : Nat) (m : SMap α) (s : State) : (slotFaults bad m s).store = s.store := by
  simp [slotFaults]

@[simp] theorem applyUser_store (u : UserRec) (src : Nat) (s : State) : (applyUser u src s).store = s.store := by simp [applyUser]
@[simp] theorem storeUser_store (u : UserRec) (s : State) : (storeUser u s).store = s.store := by simp [storeUser]
@[simp] theorem stitchCal_store (s : State) : (stitchCal s).store = s.store := by unfold stitchCal; split <;> simp
@[simp] theorem stitchProfile_store (s : State) : (stitchProfile s).store = s.store := by unfold stitchProfile; split <;> simp
@[simp] theorem stitchFirst_store (s : State) : (stitchFirst s).store = s.store := by simp [stitchFirst]

@[simp] theorem stitchCell_store (old new : List Word) (c : Nat) (s : State) : (stitchCell old new c s).store = s.store := by
  simp [stitchCell]

@[simp] theorem stitchCells_store (old : Bank) (s : State) : (stitchCells old s).store = s.store := by simp [stitchCells]

@[simp] theorem stitchAt_store (sOf : Nat → Nat) (s0 : State) : (stitchAt sOf s0).store = s0.store := by
  unfold stitchAt
  split <;> simp

@[simp] theorem stitchGo_store (s : State) : (stitchGo s).store = s.store := by simp [stitchGo]
@[simp] theorem rebasteGo_store (s : State) : (rebasteGo s).store = s.store := by simp [rebasteGo]
@[simp] theorem rebasteEnd_store (s : State) : (rebasteEnd s).store = s.store := by simp [rebasteEnd]

@[simp] theorem fitCapture_store (second : Bool) (s : State) : (fitCapture second s).store = s.store := by
  unfold fitCapture
  split <;> simp

@[simp] theorem fitWritten_store (bank : Nat) (s : State) : (fitWritten bank s).store = s.store := by
  unfold fitWritten
  split <;> simp

/-! ## Issue -/

@[simp] theorem beforeIndex_store (m i : Nat) (s : State) : (beforeIndex m i s).store = s.store := by
  unfold beforeIndex
  dsimp only
  split <;> simp

@[simp] theorem stitchIssued_store (s : State) : (stitchIssued s).store = s.store := by simp [stitchIssued]

@[simp] theorem poisonHeader_store (a : Nat) (p : Pin) (h1 : Word) (clean : Bool) (s : State) :
    (poisonHeader a p h1 clean s).store = s.store := by
  simp [poisonHeader]

@[simp] theorem issueHead_store (m a : Nat) (h : Header) (pre : Option Nat) (s : State) :
    (issueHead m a h pre s).store = s.store := by
  unfold issueHead
  split
  · rfl
  · dsimp only
    refine ite_keep State.store (by simp) ?_
    split <;> simp

@[simp] theorem issueNext_store (m : Nat) (s : State) : (issueNext m s).store = s.store := by
  unfold issueNext
  refine ite_keep State.store rfl ?_
  dsimp only
  split
  · split <;> simp
  · rfl

@[simp] theorem repairBlock_store (m : Nat) (x : Nat × BitVec 3) (s : State) : (repairBlock m x s).store = s.store := by
  unfold repairBlock
  split <;> simp

@[simp] theorem restartMerger_store (m : Nat) (blocks : List (Nat × BitVec 3)) (ck : Ckpt) (s0 : State) :
    (restartMerger m blocks ck s0).store = s0.store := by
  simp [restartMerger]

@[simp] theorem restartEnd_store (slotOk : Bool) (blocks : List (Nat × BitVec 3)) (replayOk : Bool) (s : State) :
    (restartEnd slotOk blocks replayOk s).store = s.store := by
  unfold restartEnd
  dsimp only
  repeat' split
  all_goals simp

/-! ## SeamTest -/

theorem startHead_store {f : Cmd → State → State} (h : ∀ c t, (f c t).store = t.store) (op : Nat) (s : State) :
    (startHead op f s).store = s.store := by
  unfold startHead
  split
  · rfl
  · exact ite_keep State.store ((h ..).trans (modCmd_store ..)) rfl

@[simp] theorem setSeam_store (b v : Nat) (s : State) : (setSeam b v s).store = s.store := by simp [setSeam]
@[simp] theorem seamTestStart_store (c : Cmd) (s : State) : (seamTestStart c s).store = s.store := by simp [seamTestStart]

@[simp] theorem seamTestOver_store (pass : Bool) (s : State) : (seamTestOver pass s).store = s.store := by
  unfold seamTestOver
  split
  · rfl
  refine ite_keep State.store rfl ?_
  dsimp only
  split
  · simp
  · simp

/-! ## Peer -/

@[simp] theorem pbCause_store (b : Nat) (s : State) : (pbCause b s).store = s.store := raise_store ..
@[simp] theorem sendReq_store (pay : List Word) (s : State) : (sendReq pay s).store = s.store := by simp [sendReq]
@[simp] theorem releaseGo_store (s : State) : (releaseGo s).store = s.store := by unfold releaseGo; split <;> simp

@[simp] theorem cplPump_store (n : Nat) : ∀ s : State, (cplPump n s).store = s.store := by
  induction n with
  | zero => intro s; rfl
  | succ n ih =>
    intro s
    unfold cplPump
    split
    · rfl
    · exact ite_keep State.store ((ih _).trans (by simp)) rfl

@[simp] theorem sendCpl_store (pay : List Word) (s : State) : (sendCpl pay s).store = s.store := by simp [sendCpl]
@[simp] theorem setLock_store (n v : Nat) (s : State) : (setLock n v s).store = s.store := by simp [setLock]

@[simp] theorem readFails_store (tag off : Nat) (timeout : Bool) (s : State) : (readFails tag off timeout s).store = s.store := by
  simp [readFails]

@[simp] theorem bridgeWr_store (n o : Nat) (data : Word) (full : Bool) (s : State) :
    (bridgeWr n o data full s).store = s.store := by
  simp [bridgeWr]

@[simp] theorem bridgeRd_store (n o : Nat) (s : State) : (bridgeRd n o s).store = s.store := by simp [bridgeRd]
@[simp] theorem bridgeRd8_store (n o : Nat) (s : State) : (bridgeRd8 n o s).store = s.store := by simp [bridgeRd8]

@[simp] theorem bridgeLate_store (tag : Nat) (rd : Bool) (s : State) : (bridgeLate tag rd s).store = s.store := by
  unfold bridgeLate
  repeat' split
  all_goals simp

@[simp] theorem faultArrives_store (tag reason off : Nat) (s : State) : (faultArrives tag reason off s).store = s.store := by
  unfold faultArrives
  split <;> simp

@[simp] theorem writesAcked_store (tag : Nat) (s : State) : (writesAcked tag s).store = s.store := by simp [writesAcked]

@[simp] theorem cplArrives_store (w0 w1 : Word) (s : State) : (cplArrives w0 w1 s).store = s.store := by
  unfold cplArrives
  dsimp only
  repeat' split
  all_goals simp

@[simp] theorem lockAcquire_store (n : Nat) (s : State) : (lockAcquire n s).store = s.store := by simp [lockAcquire]
@[simp] theorem lockRelease_store (n : Nat) (s : State) : (lockRelease n s).store = s.store := by simp [lockRelease]
@[simp] theorem lockAsked_store (n : Nat) (s : State) : (lockAsked n s).store = s.store := by simp [lockAsked]

@[simp] theorem lockAnswered_store (granted : Bool) (s : State) : (lockAnswered granted s).store = s.store := by
  unfold lockAnswered
  split <;> simp

@[simp] theorem lockAgain_store (s : State) : (lockAgain s).store = s.store := by unfold lockAgain; split <;> simp

@[simp] theorem lockBroken_store (own : Bool) (s : State) : (lockBroken own s).store = s.store := by
  unfold lockBroken
  repeat' split
  all_goals simp

@[simp] theorem linkFalls_store (s : State) : (linkFalls s).store = s.store := by unfold linkFalls; dsimp only; split <;> simp
@[simp] theorem linkDownNow_store (s : State) : (linkDownNow s).store = s.store := by simp [linkDownNow]

@[simp] theorem linkTrained_store (far fl0 fl1 : Bool) (s : State) : (linkTrained far fl0 fl1 s).store = s.store := by
  simp [linkTrained]

@[simp] theorem linkRetrains_store (s : State) : (linkRetrains s).store = s.store := by simp [linkRetrains]
@[simp] theorem wrPbCtrl_store (v : Word) (s : State) : (wrPbCtrl v s).store = s.store := by simp [wrPbCtrl]
@[simp] theorem replay_store (s : State) : (replay s).store = s.store := by unfold replay; split <;> simp
@[simp] theorem flitsAcked_store (ack : Nat) (s : State) : (flitsAcked ack s).store = s.store := by simp [flitsAcked]
@[simp] theorem creditsBack_store (s : State) : (creditsBack s).store = s.store := by simp [creditsBack]

@[simp] theorem sentArrives_store (k : Nat) (pay : List Word) (s : State) : (sentArrives k pay s).store = s.store := by
  simp [sentArrives]

@[simp] theorem reqArrives_store (w0 : Word) (s : State) : (reqArrives w0 s).store = s.store := by simp [reqArrives]

@[simp] theorem linkArrives_store (w0 : Word) (s : State) : (linkArrives w0 s).store = s.store := by
  unfold linkArrives
  split <;> simp

@[simp] theorem flitAccepted_store (vc k : Nat) (pay : List Word) (s : State) : (flitAccepted vc k pay s).store = s.store := by
  unfold flitAccepted
  split <;> simp

@[simp] theorem pumpAll_store (s : State) : (pumpAll s).store = s.store := by simp [pumpAll]
@[simp] theorem flitHeader_store (hdr : Word) (s : State) : (flitHeader hdr s).store = s.store := by simp [flitHeader]
@[simp] theorem flitCredits_store (hdr : Word) (s : State) : (flitCredits hdr s).store = s.store := by simp [flitCredits]

@[simp] theorem flitIn_store (crcOk : Bool) (hdr : Word) (pay : List Word) (k : Nat) (s : State) :
    (flitIn crcOk hdr pay k s).store = s.store := by
  simp [flitIn]

@[simp] theorem frameAcked_store (k : Nat) (s : State) : (frameAcked k s).store = s.store := by unfold frameAcked; split <;> simp

/-! ## Host -/

@[simp] theorem badAccess_store (s : State) : (badAccess s).store = s.store := by simp [badAccess]
@[simp] theorem readFault_store (timeout : Bool) (s : State) : (readFault timeout s).store = s.store := by simp [readFault]
@[simp] theorem wrRingCfg_store (r : Nat) (v : Word) (s : State) : (wrRingCfg r v s).store = s.store := by simp [wrRingCfg]
@[simp] theorem wrRingBase_store (r o : Nat) (v : Word) (s : State) : (wrRingBase r o v s).store = s.store := by simp [wrRingBase]
@[simp] theorem wrWbBase_store (hi : Bool) (v : Word) (s : State) : (wrWbBase hi v s).store = s.store := by simp [wrWbBase]
@[simp] theorem wrGenOffer_store (v : Word) (s : State) : (wrGenOffer v s).store = s.store := by simp [wrGenOffer]
@[simp] theorem dbBad_store (r : Nat) (lo : Word) (s : State) : (dbBad r lo s).store = s.store := by simp [dbBad]
@[simp] theorem readDesc_store (r : Nat) (s : State) : (readDesc r s).store = s.store := by simp [readDesc]

@[simp] theorem readMore_store (n : Nat) : ∀ s : State, (readMore n s).store = s.store := by
  induction n with
  | zero => intro s; rfl
  | succ n ih =>
    intro s
    unfold readMore
    refine ite_keep State.store rfl ?_
    split
    · rfl
    · exact (ih _).trans (by simp)

@[simp] theorem issueReads_store (s : State) : (issueReads s).store = s.store := by simp [issueReads]
@[simp] theorem readEnds_store (r : Nat) (s : State) : (readEnds r s).store = s.store := by simp [readEnds]
@[simp] theorem ringZero_store (r : Nat) (c : Cmd) (s : State) : (ringZero r c s).store = s.store := by simp [ringZero]

@[simp] theorem readDropped_store (r : Nat) (s : State) : (readDropped r s).store = s.store := by
  unfold readDropped
  dsimp only
  split <;> simp

@[simp] theorem doorbell_store (d o : Nat) (lo hi : Word) (s : State) : (doorbell d o lo hi s).store = s.store := by
  unfold doorbell
  repeat' split
  all_goals simp

@[simp] theorem htConsume_store (r : Nat) (x : HtDesc) (st : Nat) (seq : Nat) (s : State) :
    (htConsume r x st seq s).store = s.store := by
  simp [htConsume]

@[simp] theorem hrFetch_store (r : Nat) (desc : List Word) (s : State) : (hrFetch r desc s).store = s.store := by simp [hrFetch]
@[simp] theorem imodEnds_store (r : Nat) (s : State) : (imodEnds r s).store = s.store := by simp [imodEnds]

@[simp] theorem hostImageRejected_store (code : Nat) (s : State) : (hostImageRejected code s).store = s.store := by
  simp [hostImageRejected]

@[simp] theorem hostReset_store (s : State) : (hostReset s).store = s.store := by simp [hostReset]
@[simp] theorem perstTo_store (level : Bool) (s : State) : (perstTo level s).store = s.store := by simp [perstTo]

@[simp] theorem cmdPush_store (w : List Word) (done : Option Nat) (s : State) : (cmdPush w done s).store = s.store := by
  simp [cmdPush]

@[simp] theorem cmdFetched_store (w : List Word) (s : State) : (cmdFetched w s).store = s.store := by simp [cmdFetched]
@[simp] theorem cmdReadFails_store (s : State) : (cmdReadFails s).store = s.store := by simp [cmdReadFails]
@[simp] theorem nopHead_store (s : State) : (nopHead s).store = s.store := by unfold nopHead; split <;> simp

@[simp] theorem cplWrite_store (c : Cmd) (st : Nat) (r0 r1 : Word) (s : State) : (cplWrite c st r0 r1 s).store = s.store := by
  simp [cplWrite]

@[simp] theorem muteGone_store (s : State) : (muteGone s).store = s.store := by simp [muteGone]

@[simp] theorem completeCmd_store (no : Word) (s0 : State) : (completeCmd no s0).store = s0.store := by
  unfold completeCmd
  dsimp only
  repeat' split
  all_goals simp

@[simp] theorem nopStart_store (s : State) : (nopStart s).store = s.store :=
  (nopHead_store _).trans (startHead_store (fun _ _ => rfl) 0 s)

@[simp] theorem stitchNowLate_store (s : State) : (stitchNowLate s).store = s.store := by unfold stitchNowLate; split <;> simp
@[simp] theorem runLoad_store (c : Cmd) (s : State) : (runLoad c s).store = s.store := by simp [runLoad]
@[simp] theorem bufferRead_store (c : Cmd) (len : Nat) (s : State) : (bufferRead c len s).store = s.store := by simp [bufferRead]

@[simp] theorem loadStart_store (buf : List Word) (ok : Bool) (c : Cmd) (s0 : State) :
    (loadStart buf ok c s0).store = s0.store := by
  simp [loadStart]

@[simp] theorem loadsGo_store (l : List Cmd) : ∀ s : State, (loadsGo l s).store = s.store := by
  induction l with
  | nil => intro s; rfl
  | cons c l ih =>
    intro s
    unfold loadsGo
    exact ite_keep State.store ((ih _).trans (by simp)) (ih _)

@[simp] theorem schedLate_store (st : Nat) (s : State) : (schedLate st s).store = s.store := by simp [schedLate]
@[simp] theorem stitchStart_store (c : Cmd) (s : State) : (stitchStart c s).store = s.store := by simp [stitchStart]
@[simp] theorem fittingStart_store (c : Cmd) (s : State) : (fittingStart c s).store = s.store := by simp [fittingStart]
@[simp] theorem powerStart_store (c : Cmd) (s : State) : (powerStart c s).store = s.store := by simp [powerStart]

@[simp] theorem calStart_store (buf : List Byte) (ok : Bool) (bad : Nat) (c : Cmd) (s0 : State) :
    (calStart buf ok bad c s0).store = s0.store := by
  unfold calStart
  dsimp only
  split <;> simp

@[simp] theorem fenceStart_store (c : Cmd) (s : State) : (fenceStart c s).store = s.store := by simp [fenceStart]
@[simp] theorem ringResetStart_store (c : Cmd) (s : State) : (ringResetStart c s).store = s.store := by simp [ringResetStart]

/-! ## Power -/

@[simp] theorem persStore_store (s : State) : (persStore s).store = s.store := by simp [persStore]
@[simp] theorem persLoad_store (bad : Nat) (s : State) : (persLoad bad s).store = s.store := by simp [persLoad]
@[simp] theorem persElapsed_store (s : State) : (persElapsed s).store = s.store := by simp [persElapsed]
@[simp] theorem slowStore_store (s : State) : (slowStore s).store = s.store := by simp [slowStore]
@[simp] theorem slowLoad_store (bad : Nat) (s : State) : (slowLoad bad s).store = s.store := by unfold slowLoad; split <;> simp
@[simp] theorem userTrims_store (bad : Nat) (s : State) : (userTrims bad s).store = s.store := by unfold userTrims; split <;> simp
@[simp] theorem thermal_store (t : List (BitVec 12)) (s : State) : (thermal t s).store = s.store := by simp [thermal]
@[simp] theorem supplies_store (out : Nat) (s : State) : (supplies out s).store = s.store := by simp [supplies]
@[simp] theorem wakeStart_store (s : State) : (wakeStart s).store = s.store := by simp [wakeStart]

@[simp] theorem wakeEvent_store (src port : Nat) (s : State) : (wakeEvent src port s).store = s.store := by
  unfold wakeEvent
  dsimp only
  repeat' split
  all_goals simp

@[simp] theorem portEdge_store (n : Nat) (s : State) : (portEdge n s).store = s.store := by simp [portEdge]
@[simp] theorem wakeIn_store (rising : Bool) (s : State) : (wakeIn rising s).store = s.store := by simp [wakeIn]
@[simp] theorem hostWakes_store (v : Word) (s : State) : (hostWakes v s).store = s.store := by simp [hostWakes]
@[simp] theorem timerWakes_store (s : State) : (timerWakes s).store = s.store := by simp [timerWakes]
@[simp] theorem wrWakeDt_store (o : Nat) (v : Word) (s : State) : (wrWakeDt o v s).store = s.store := by simp [wrWakeDt]

@[simp] theorem pushCaught_store (n : Nat) (hib : Bool) (s : State) : (pushCaught n hib s).store = s.store := by
  unfold pushCaught
  simp

@[simp] theorem chansStart_store (s : State) : (chansStart s).store = s.store := by simp [chansStart]
@[simp] theorem napReturn_store (s : State) : (napReturn s).store = s.store := by simp [napReturn]
@[simp] theorem finishChars_store (s : State) : (finishChars s).store = s.store := by simp [finishChars]
@[simp] theorem servoHolds_store (s : State) : (servoHolds s).store = s.store := by simp [servoHolds]
@[simp] theorem pmicLate_store (s : State) : (pmicLate s).store = s.store := by simp [pmicLate]
@[simp] theorem hibEngines_store (im : HibImage) (s : State) : (hibEngines im s).store = s.store := by simp [hibEngines]
@[simp] theorem hibCut_store (s : State) : (hibCut s).store = s.store := by simp [hibCut]
@[simp] theorem hibPort_store (im : HibImage) (n : Nat) (s : State) : (hibPort im n s).store = s.store := by simp [hibPort]

@[simp] theorem hibResume_store (bad : Nat) (im : HibImage) (s : State) : (hibResume bad im s).store = s.store := by
  simp [hibResume]

@[simp] theorem vaonUp_store (s : State) : (vaonUp s).store = s.store := by simp [vaonUp]

/-! ## Boot -/

@[simp] theorem bootStage_store (k : Nat) (s : State) : (bootStage k s).store = s.store := by simp [bootStage]
@[simp] theorem askPartner_store (s : State) : (askPartner s).store = s.store := by simp [askPartner]
@[simp] theorem bootFails_store (code : Nat) (s : State) : (bootFails code s).store = s.store := by simp [bootFails]
@[simp] theorem bootStops_store (code : Nat) (s : State) : (bootStops code s).store = s.store := by simp [bootStops]
@[simp] theorem scriptLook_store (s : State) : (scriptLook s).store = s.store := by unfold scriptLook; split <;> simp
@[simp] theorem scriptPop_store (s : State) : (scriptPop s).store = s.store := by simp [scriptPop]

@[simp] theorem imageTaken_store (src : Nat) (img : List Byte) (s : State) : (imageTaken src img s).store = s.store := by
  simp [imageTaken]

@[simp] theorem imageRefused_store (src code : Nat) (s : State) : (imageRefused src code s).store = s.store := by
  unfold imageRefused
  split <;> simp

@[simp] theorem imageDone_store (ok : Bool) (img : List Byte) (s : State) : (imageDone ok img s).store = s.store := by
  unfold imageDone
  split <;> simp

@[simp] theorem bootReads_store (s : State) : (bootReads s).store = s.store := by simp [bootReads]
@[simp] theorem bootGo_store (v : Word) (s : State) : (bootGo v s).store = s.store := by simp [bootGo]
@[simp] theorem bootWord_store (w : Word) (s : State) : (bootWord w s).store = s.store := by simp [bootWord]
@[simp] theorem bootWordsDone_store (s : State) : (bootWordsDone s).store = s.store := by simp [bootWordsDone]
@[simp] theorem ownersTaken_store (s : State) : (ownersTaken s).store = s.store := by simp [ownersTaken]

theorem selvageSet_store {s t : State} {b : Bool} (h : selvageSet s = (t, b)) : t.store = s.store := by
  have hs : (selvageSet s).1.store = s.store := by
    unfold selvageSet
    split
    · rfl
    · simp
  rwa [h] at hs

@[simp] theorem scriptLoad_store (t d : Nat) (ws : List Word) (s : State) : (scriptLoad t d ws s).store = s.store := by
  simp [scriptLoad]

@[simp] theorem scriptLock_store (s : State) : (scriptLock s).store = s.store := by
  unfold scriptLock
  refine ite_keep State.store ?_ rfl
  split
  · rename_i h
    exact (scriptPop_store _).trans (selvageSet_store h)
  · rename_i h
    exact (bootFails_store ..).trans (selvageSet_store h)

@[simp] theorem scriptStitches_store (s : State) : (scriptStitches s).store = s.store := by simp [scriptStitches]
@[simp] theorem scriptWaits_store (us : Nat) (s : State) : (scriptWaits us s).store = s.store := by simp [scriptWaits]
@[simp] theorem scriptLate_store (s : State) : (scriptLate s).store = s.store := by simp [scriptLate]

@[simp] theorem scriptEnd_store (s : State) : (scriptEnd s).store = s.store := by
  unfold scriptEnd
  repeat' split
  all_goals simp

@[simp] theorem seamBist_store (v : Nat) (s : State) : (seamBist v s).store = s.store := by simp [seamBist]
@[simp] theorem memBist_store (v seams : Nat) (s : State) : (memBist v seams s).store = s.store := by simp [memBist]
@[simp] theorem askSource_store (s : State) : (askSource s).store = s.store := by unfold askSource; split <;> simp

/-! ## Registers -/

@[simp] theorem latchDt_store (a : Nat) (s : State) : (latchDt a s).store = s.store := by simp [latchDt]

@[simp] theorem popFault_store (a : Nat) (inb : Bool) (s : State) : (popFault a inb s).store = s.store := by
  unfold popFault
  split <;> simp

@[simp] theorem readEffect_store (a o : Nat) (s : State) : (readEffect a o s).store = s.store := by
  unfold readEffect
  repeat' split
  all_goals simp

@[simp] theorem regRead_store (a o : Nat) (s : State) : (regRead a o s).1.store = s.store := by simp [regRead]
@[simp] theorem regRead8_store (a o : Nat) (s : State) : (regRead8 a o s).1.store = s.store := by simp [regRead8]

@[simp] theorem wrPlain_store (o : Nat) (v : Word) (s : State) : (wrPlain o v s).store = s.store := by
  unfold wrPlain
  split <;> simp

@[simp] theorem wrHost_store (o : Nat) (v : Word) (s : State) : (wrHost o v s).store = s.store := by simp [wrHost]
@[simp] theorem wrPower_store (o : Nat) (v : Word) (s : State) : (wrPower o v s).store = s.store := by simp [wrPower]
@[simp] theorem wrLin_store (n : Nat) (v : Word) (s : State) : (wrLin n v s).store = s.store := by simp [wrLin]
@[simp] theorem wrPeer_store (o : Nat) (v : Word) (s : State) : (wrPeer o v s).store = s.store := by simp [wrPeer]
@[simp] theorem lockDeny_store (o : Nat) (s : State) : (lockDeny o s).store = s.store := by simp [lockDeny]
@[simp] theorem pageDeny_store (s : State) : (pageDeny s).store = s.store := by simp [pageDeny]
@[simp] theorem aerPoison_store (s : State) : (aerPoison s).store = s.store := by simp [aerPoison]

@[simp] theorem hostRead_store (o : Nat) (wide : Bool) (s : State) : (hostRead o wide s).store = s.store := by
  unfold hostRead
  split <;> simp

@[simp] theorem ackWrites_store (s : State) : (ackWrites s).store = s.store := by simp [ackWrites]

@[simp] theorem inboundAnswer_store (o tag e : Nat) (posted : Bool) (s : State) :
    (inboundAnswer o tag e posted s).store = s.store := by
  simp [inboundAnswer]

@[simp] theorem inboundRead_store (o tag : Nat) (s : State) : (inboundRead o tag s).store = s.store := by simp [inboundRead]
@[simp] theorem ackTimer_store (s : State) : (ackTimer s).store = s.store := by simp [ackTimer]

@[simp] theorem scriptPolls_store (o : Nat) (mask val : Word) (us : Nat) (s : State) :
    (scriptPolls o mask val us s).store = s.store := by
  simp [scriptPolls]

@[simp] theorem scriptPollLate_store (s : State) : (scriptPollLate s).store = s.store := by simp [scriptPollLate]

/-! ## Operands -/

@[simp] theorem rxSeen_store (n : Nat) (rx : Bool) (s : State) : (rxSeen n rx s).store = s.store := by simp [rxSeen]

/-! ## Tap -/

@[simp] theorem tapRise_store (tms tdi : Bool) (s : State) : (tapRise tms tdi s).store = s.store := by
  unfold tapRise
  dsimp only
  exact ite_keep (fun x : Nat × State => x.2.store) rfl rfl

@[simp] theorem tapFall_store (s : State) : (tapFall s).store = s.store := by simp [tapFall]

@[simp] theorem tapEdge_store (rising tms tdi : Bool) (s : State) : (tapEdge rising tms tdi s).store = s.store := by
  simp [tapEdge]

@[simp] theorem tapReset_store (s : State) : (tapReset s).store = s.store := by simp [tapReset]

/-! ## Idle -/

@[simp] theorem stalls_store (n : Nat) (s : State) : (stalls n s).store = s.store := by simp [stalls]
@[simp] theorem runSecond_store (before : State) (s : State) : (runSecond before s).store = s.store := by simp [runSecond]
@[simp] theorem oscTick_store (s : State) : (oscTick s).store = s.store := by simp [oscTick]

end Sys2Proof.Machine
end

section
/-!
SUPPORT. What writes store words keeps the store's form (R220): one lemma for each function of the model that does, in the order of
the definitions. The rules for a choice, for a conditional change and for a change of every element of a list come first.
-/
namespace Sys2Proof.Machine

/-- The form of storeWf, as a fact of the store alone. -/
def wordsWf (m : SMap StoreWord) : Prop := mapWf (dflt 0#33) m = true ∧ m.all (fun e => decide (e.1 < 0x200000)) = true

theorem storeWf_iff (s : State) : storeWf s = true ↔ wordsWf s.store := by
  unfold storeWf wordsWf
  rw [Bool.and_eq_true]

theorem wordsWf_nil : wordsWf [] := ⟨rfl, rfl⟩

@[simp] theorem wordsWf_ite {p : Prop} [Decidable p] {a b : SMap StoreWord} (ha : wordsWf a) (hb : wordsWf b) :
    wordsWf (if p then a else b) := by
  split
  · exact ha
  · exact hb

theorem ite_wf {p : Prop} [Decidable p] {s t : State} (hs : wordsWf s.store) (ht : wordsWf t.store) :
    wordsWf (if p then s else t).store := by
  split
  · exact hs
  · exact ht

@[simp] theorem whenDo_wf {c : Bool} {f : State → State} {s : State} (hf : wordsWf (f s).store) (h : wordsWf s.store) :
    wordsWf (whenDo c f s).store := by
  unfold whenDo
  split
  · exact hf
  · exact h

theorem forAll_wf {β : Type} {f : β → State → State} (hf : ∀ b t, wordsWf t.store → wordsWf (f b t).store) (l : List β)
    {s : State} (h : wordsWf s.store) : wordsWf (forAll l f s).store :=
  (storeWf_iff _).mp (storeWf_forAll l f (fun b t ht => (storeWf_iff _).mpr (hf b t ((storeWf_iff t).mp ht)))
    ((storeWf_iff s).mpr h))

@[simp] theorem setWord_wf {s : State} (a : Nat) (w : Word) (h : wordsWf s.store) : wordsWf (s.setWord a w).store :=
  (storeWf_iff _).mp (storeWf_setWord a w ((storeWf_iff s).mpr h))

@[simp] theorem pushWord_wf {s : State} (b : Nat) (w : Word) (h : wordsWf s.store) : wordsWf (pushWord b w s).store :=
  (storeWf_iff _).mp (storeWf_pushWord b w ((storeWf_iff s).mpr h))

@[simp] theorem pushWords_wf {s : State} (b : Nat) (ws : List Word) (h : wordsWf s.store) : wordsWf (pushWords b ws s).store :=
  (storeWf_iff _).mp (storeWf_pushWords b ws ((storeWf_iff s).mpr h))

/-! ## Ops -/

@[simp] theorem addRecord_wf (hd : List Word) (pay : List Byte) (x : RecMeta) {s : State} (h : wordsWf s.store) :
    wordsWf (addRecord hd pay x s).1.store := by
  unfold addRecord
  dsimp only
  split
  · exact h
  · split <;> simp [h]

theorem addRecord_wf_of {hd : List Word} {pay : List Byte} {x : RecMeta} {s t : State} {o : RecOut} (h : wordsWf s.store)
    (e : addRecord hd pay x s = (t, o)) : wordsWf t.store := by
  have ht := addRecord_wf hd pay x h
  rwa [e] at ht

theorem addRecord_match_wf {hd : List Word} {pay : List Byte} {x : RecMeta} {s f : State} {g : State → State}
    (h : wordsWf s.store) (hf : wordsWf f.store) (hg : ∀ t, wordsWf t.store → wordsWf (g t).store) :
    wordsWf (match addRecord hd pay x s with
      | (_, .full) => f
      | (t, _) => g t).store := by
  split
  · exact hf
  · rename_i hr
    exact hg _ (addRecord_wf_of h hr)

@[simp] theorem lanePut_wf (k b : Nat) (r : Ref) {s : State} (h : wordsWf s.store) : wordsWf (lanePut k b r s).store := by
  unfold lanePut
  dsimp only
  split <;> simp [h]

@[simp] theorem pushRef_wf (k : Nat) (cfg : Word) (r : Ref) {s : State} (h : wordsWf s.store) :
    wordsWf (pushRef k cfg r s).1.store := by
  unfold pushRef
  dsimp only
  repeat' split
  all_goals simp [h]

/-! ## Fanout -/

@[simp] theorem deliver_wf (e : DecEntry) (k cls : Nat) (held mirror : Bool) (a : Nat) {s : State} (h : wordsWf s.store) :
    wordsWf (deliver e k cls held mirror a s).store := by
  unfold deliver
  dsimp only
  repeat' split
  all_goals simp [h]

@[simp] theorem deliverSet_wf (e : DecEntry) (cls : Nat) (held : Bool) (a : Nat) {s : State} (h : wordsWf s.store) :
    wordsWf (deliverSet e cls held a s).store :=
  forAll_wf (fun _ _ ht => deliver_wf _ _ _ _ _ _ ht) _ h

@[simp] theorem deliverMirrors_wf (e : DecEntry) {s : State} (h : wordsWf s.store) : wordsWf (deliverMirrors e s).store :=
  forAll_wf (fun _ _ ht => deliver_wf _ _ _ _ _ _ ht) _ h

@[simp] theorem writeDerived_wf (b : Nat) (p0 : Pin) (ws : List Word) (full : Bool) {s : State} (h : wordsWf s.store) :
    wordsWf (writeDerived b p0 ws full s).1.store := by
  unfold writeDerived
  split <;> simp [h]

@[simp] theorem buildDerived_wf (m : Nat) (e : DecEntry) {s : State} (h : wordsWf s.store) :
    wordsWf (buildDerived m e s).1.store := by
  unfold buildDerived
  dsimp only
  repeat' split
  all_goals simp [h]

@[simp] theorem buildLast_wf (x : Build) (pd : Pin) (fmt : Nat) {s : State} (h : wordsWf s.store) :
    wordsWf (buildLast x pd fmt s).store := by
  unfold buildLast
  dsimp only
  generalize hs1 : (checkFrom 2 0 x.orig (6 + x.read) (!x.bad) s).1 = s1
  have h1 : wordsWf s1.store := by
    rw [← hs1, checkFrom_store]
    exact h
  refine ite_wf (by simp [h1]) ?_
  rw [modPin_store, unpinCheck_store, cutFeed_store]
  exact pushWords_wf _ _ (setWord_wf _ _ (setWord_wf _ _ (by simp [h1])))

@[simp] theorem buildStep_wf (x : Build) {s : State} (h : wordsWf s.store) : wordsWf (buildStep x s).store := by
  unfold buildStep
  repeat' split
  all_goals simp [h]

@[simp] theorem buildsFor_wf (a : Nat) {s : State} (h : wordsWf s.store) : wordsWf (buildsFor a s).store :=
  forAll_wf (fun _ _ => buildStep_wf _) _ h

@[simp] theorem beginBuild_wf (m : Nat) (e : DecEntry) {s : State} (h : wordsWf s.store) :
    wordsWf (beginBuild m e s).1.store := by
  unfold beginBuild
  dsimp only
  generalize hs0 : readWords _ 6 _ s = x
  have h0 : wordsWf x.1.store := by
    rw [← hs0, readWords_store]
    exact h
  generalize hs1 : writeDerived _ _ _ _ x.1 = y
  have h1 : wordsWf y.1.store := by
    rw [← hs1]
    exact writeDerived_wf _ _ _ _ h0
  split
  · exact h1
  · exact buildsFor_wf _ h1

@[simp] theorem placeHeld_wf (x : Held) {s : State} (h : wordsWf s.store) : wordsWf (placeHeld x s).store := by
  simp [placeHeld, h]

@[simp] theorem fireHeld_wf (x : Held) {s : State} (h : wordsWf s.store) : wordsWf (fireHeld x s).store := by simp [fireHeld, h]
@[simp] theorem lostHeld_wf (x : Held) {s : State} (h : wordsWf s.store) : wordsWf (lostHeld x s).store := by simp [lostHeld, h]

@[simp] theorem lateHeld_wf (x : Held) {s : State} (h : wordsWf s.store) : wordsWf (lateHeld x s).store := by
  unfold lateHeld
  dsimp only
  split <;> simp [h]

theorem acceptHold_store_of {e : DecEntry} {x : HoldSpec} {s t : State} {r : HoldOut} (h : acceptHold e x s = (t, r)) :
    t.store = s.store := by
  have ht := acceptHold_store e x s
  rwa [h] at ht

@[simp] theorem finishJob_wf (j : FanJob) (a : Option Nat) {s : State} (h : wordsWf s.store) :
    wordsWf (finishJob j a s).store := by
  unfold finishJob
  repeat' split
  all_goals simp [h]

theorem fanGo_wf (n : Nat) : ∀ (l : List FanJob) {s : State}, wordsWf s.store → wordsWf (fanGo n l s).2.store := by
  induction n with
  | zero => exact fun _ _ h => h
  | succ n ih =>
    intro l s h
    cases l with
    | nil => exact h
    | cons j t =>
      have hb := beginBuild_wf j.mrg j.ent h
      unfold fanGo
      split
      · exact ih _ (finishJob_wf _ _ h)
      split
      · exact ih _ h
      split
      · dsimp only
        generalize beginBuild j.mrg j.ent s = x at hb ⊢
        exact ih _ (finishJob_wf _ _ hb)
      · exact h

@[simp] theorem fanRun_wf {s : State} (h : wordsWf s.store) : wordsWf (fanRun s).store :=
  fanGo_wf (s.fan.length + 1) s.fan (s := { s with fan := [] }) h

@[simp] theorem fanRelease_wf (m : Nat) (e : DecEntry) {s : State} (h : wordsWf s.store) : wordsWf (fanRelease m e s).store := by
  unfold fanRelease
  dsimp only
  split
  · simp [h]
  refine ite_wf (by simp [h]) ?_
  split
  all_goals
    rename_i ha
    have ht := acceptHold_store_of ha
    apply fanRun_wf
    simp [ht, h]

@[simp] theorem heldReady_wf (j : FanJob) (a : Option Nat) {s : State} (h : wordsWf s.store) :
    wordsWf (heldReady j a s).store := by
  unfold heldReady
  repeat' split
  all_goals simp [h]

@[simp] theorem deriveNext_wf {s : State} (h : wordsWf s.store) : wordsWf (deriveNext s).store := by
  unfold deriveNext
  split
  · exact h
  · rename_i j _
    have hb := buildDerived_wf j.mrg j.ent (s := { s with fan := s.fan.erase j }) h
    dsimp only
    apply fanRun_wf
    apply finishJob_wf
    split
    · exact heldReady_wf _ _ hb
    · exact hb

/-! ## Tape -/

@[simp] theorem enterLost_wf (n st : Nat) {s : State} (h : wordsWf s.store) : wordsWf (enterLost n st s).store := by
  unfold enterLost
  dsimp only
  rw [skipLost_store, schedLost_store]
  exact forAll_wf (fun _ _ => lostHeld_wf _) _ (by simp [h])

@[simp] theorem carriedPast_wf (n : Nat) (old new : Int) {s : State} (h : wordsWf s.store) :
    wordsWf (carriedPast n old new s).store := by
  unfold carriedPast
  dsimp only
  rw [schedPast_store]
  exact forAll_wf (fun _ _ => lateHeld_wf _) _ h

@[simp] theorem chanEvent_wf (n : Nat) (force : Bool) (x : RefEv) {s : State} (h : wordsWf s.store) :
    wordsWf (chanEvent n force x s).1.store := by
  unfold chanEvent
  dsimp only
  repeat' split
  all_goals simp [h]

@[simp] theorem zcEvent_wf (n te : Nat) {s : State} (h : wordsWf s.store) : wordsWf (zcEvent n te s).store := by simp [zcEvent, h]
@[simp] theorem ppEvent_wf (n te : Nat) {s : State} (h : wordsWf s.store) : wordsWf (ppEvent n te s).store := by simp [ppEvent, h]

@[simp] theorem qeCount_wf (n te : Nat) (d : Int) {s : State} (h : wordsWf s.store) : wordsWf (qeCount n te d s).store := by
  simp [qeCount, h]

@[simp] theorem refEvent_wf (n kind : Nat) (b : Bool) (age : Nat) {s : State} (h : wordsWf s.store) :
    wordsWf (refEvent n kind b age s).store := by
  unfold refEvent
  dsimp only
  repeat' split
  all_goals simp [h]

@[simp] theorem wrExt_wf (n : Nat) (v : Word) {s : State} (h : wordsWf s.store) : wordsWf (wrExt n v s).store := by
  unfold wrExt
  dsimp only
  split <;> simp [h]

@[simp] theorem toLost_wf (n : Nat) {s : State} (h : wordsWf s.store) : wordsWf (toLost n s).store := by simp [toLost, h]

@[simp] theorem wrPr_wf (n : Nat) (cpr : Bool) (v : Word) {s : State} (h : wordsWf s.store) : wordsWf (wrPr n cpr v s).store := by
  unfold wrPr
  dsimp only
  repeat' split
  all_goals simp [h]

@[simp] theorem heldFire_wf {s : State} (h : wordsWf s.store) : wordsWf (heldFire s).store := by
  unfold heldFire
  split <;> simp [h]

/-! ## Cells -/

@[simp] theorem cellForm_wf (c dt el : Nat) {s : State} (h : wordsWf s.store) : wordsWf (cellForm c dt el s).store := by
  unfold cellForm
  dsimp only
  refine ite_wf (by simp [h]) (ite_wf (by simp [h]) (ite_wf (by simp [h]) ?_))
  exact addRecord_match_wf (by simp [h]) (by simp [h]) (fun t ht => by simp [ht])

@[simp] theorem emitCell_wf {s : State} (h : wordsWf s.store) : wordsWf (emitCell s).store := by
  unfold emitCell
  split <;> simp [h]

/-! ## Early -/

@[simp] theorem earlyBegin_wf (hd : List Word) (pay : List Byte) (hits keyLen : Nat) (tag : Bool) {s : State}
    (h : wordsWf s.store) :
    wordsWf (earlyBegin hd pay hits keyLen tag s).1.store := by
  unfold earlyBegin
  dsimp only
  split
  · exact h
  · split <;> simp [h]

theorem earlyBegin_wf_of {hd : List Word} {pay : List Byte} {hits keyLen : Nat} {tag : Bool} {s t : State}
    {o : Option Nat × RecOut} (h : wordsWf s.store) (e : earlyBegin hd pay hits keyLen tag s = (t, o)) : wordsWf t.store := by
  have ht := earlyBegin_wf hd pay hits keyLen tag h
  rwa [e] at ht

@[simp] theorem earlyGrow_wf (a : Nat) (pay : List Byte) {s : State} (h : wordsWf s.store) :
    wordsWf (earlyGrow a pay s).1.store := by
  unfold earlyGrow
  dsimp only
  split
  · exact h
  split
  · exact h
  split
  · exact h
  · simp [h]

theorem earlyGrow_wf_of {a : Nat} {pay : List Byte} {s t : State} {b : Bool} (h : wordsWf s.store)
    (e : earlyGrow a pay s = (t, b)) : wordsWf t.store := by
  have ht := earlyGrow_wf a pay h
  rwa [e] at ht

@[simp] theorem earlyBad_wf (a : Nat) (full : Bool) {s : State} (h : wordsWf s.store) : wordsWf (earlyBad a full s).store := by
  unfold earlyBad
  split
  · exact h
  split
  · simp [h]
  · have hcut : ∀ t : State, wordsWf t.store → wordsWf (forAll (List.range 16) (fun n s =>
        match (s.eg (48 + n)).cur with
        | some c => if c.ref.cut && ((s.pin c.ref.addr).map (·.bad)).getD false then canDestroy n .poison s else s
        | none => s) t).store := by
      intro t ht
      rw [forAll_store]
      · exact ht
      · intro n u
        split
        · exact ite_keep State.store (by simp) rfl
        · rfl
    dsimp only
    rw [unpinCheck_store, ingressRp_store]
    apply fanRun_wf
    apply hcut
    simp [h]

@[simp] theorem earlyEnd_wf (a : Nat) (h5 : Option Word) (pay : List Byte) {s : State} (h : wordsWf s.store) :
    wordsWf (earlyEnd a h5 pay s).1.store := by
  have hword : ∀ (b k : Nat) (v w : Word) (ws : List Word), wordsWf (pushWords b ws ((s.setWord a v).setWord k w)).store :=
    fun b k v w ws => pushWords_wf _ _ (setWord_wf _ _ (setWord_wf _ _ h))
  unfold earlyEnd
  split
  · exact h
  · dsimp only
    split
    · exact earlyBad_wf _ _ h
    · rw [unpinCheck_store, ingressRp_store, cutFeed_store]
      generalize hs4 : fanRun _ = s4
      have h4 : wordsWf s4.store := by
        rw [← hs4]
        apply fanRun_wf
        apply buildsFor_wf
        rw [mergePut_store, forAll_store (fun _ _ => mergePut_store ..)]
        exact hword ..
      exact ite_wf (by simp [h4]) h4

theorem earlyEnd_wf_of {a : Nat} {h5 : Option Word} {pay : List Byte} {s t : State} {b : Bool} (h : wordsWf s.store)
    (e : earlyEnd a h5 pay s = (t, b)) : wordsWf t.store := by
  have ht := earlyEnd_wf a h5 pay h
  rwa [e] at ht

/-! ## Framing -/

@[simp] theorem unitEnd_wf (n : Nat) (u : UnitSt) (st : Nat) {s : State} (h : wordsWf s.store) :
    wordsWf (unitEnd n u st s).store := by
  have h0 : wordsWf (count (ctAp n st) 1 (modPort n (fun p => { p with unit := none }) s)).store := by simp [h]
  unfold unitEnd
  dsimp only
  split
  · exact h0
  split
  · split
    · split
      · rename_i he
        exact earlyEnd_wf_of h0 he
      · rename_i he
        simp [earlyEnd_wf_of h0 he]
    · exact earlyBad_wf _ _ h0
  · split
    · simp [h]
    · split
      · simp [h]
      · rename_i hr
        simp [addRecord_wf_of h0 hr]

@[simp] theorem unitEarly_wf (n : Nat) (u : UnitSt) {s : State} (h : wordsWf s.store) : wordsWf (unitEarly n u s).store := by
  unfold unitEarly
  dsimp only
  split
  all_goals
    rename_i he
    simp [earlyBegin_wf_of h he]

@[simp] theorem unitMore_wf (n : Nat) (u : UnitSt) {s : State} (h : wordsWf s.store) : wordsWf (unitMore n u s).store := by
  unfold unitMore
  dsimp only
  split
  · simp [h]
  split
  · split
    all_goals
      rename_i he
      simp [earlyGrow_wf_of h he]
  · split <;> simp [h]

@[simp] theorem unitTook_wf (n : Nat) (r : ParseOut UnitSt) {s : State} (h : wordsWf s.store) :
    wordsWf (unitTook n r s).store := by
  unfold unitTook
  dsimp only
  repeat' split
  all_goals simp [h]

@[simp] theorem charOutside_wf (n : Nat) (c : RxChar) {s : State} (h : wordsWf s.store) : wordsWf (charOutside n c s).store := by
  unfold charOutside
  dsimp only
  repeat' split
  all_goals simp [h]

@[simp] theorem linEnd_wf (n : Nat) (u : UnitSt) (st : Nat) {s : State} (h : wordsWf s.store) :
    wordsWf (linEnd n u st s).store := by
  simp [linEnd, h]

@[simp] theorem linOver_wf (n : Nat) (u : UnitSt) {s : State} (h : wordsWf s.store) : wordsWf (linOver n u s).store := by
  unfold linOver
  split <;> simp [h]

@[simp] theorem linChar_wf (n : Nat) (u : UnitSt) (c : RxChar) {s : State} (h : wordsWf s.store) :
    wordsWf (linChar n u c s).store := by
  unfold linChar
  split <;> simp [h]

@[simp] theorem charInside_wf (n : Nat) (u : UnitSt) (c : RxChar) {s : State} (h : wordsWf s.store) :
    wordsWf (charInside n u c s).store := by
  unfold charInside
  repeat' split
  all_goals simp [h]

@[simp] theorem frameChar_wf (n : Nat) {s : State} (h : wordsWf s.store) : wordsWf (frameChar n s).store := by
  unfold frameChar
  dsimp only
  repeat' split
  all_goals simp [h]

@[simp] theorem unitAbort_wf (n : Nat) {s : State} (h : wordsWf s.store) : wordsWf (unitAbort n s).store := by
  unfold unitAbort
  repeat' split
  all_goals simp [h]

@[simp] theorem gapEnd_wf (n : Nat) {s : State} (h : wordsWf s.store) : wordsWf (gapEnd n s).store := by
  unfold gapEnd
  split <;> simp [h]

@[simp] theorem silence_wf (n : Nat) {s : State} (h : wordsWf s.store) : wordsWf (silence n s).store := by
  unfold silence
  split <;> simp [h]

@[simp] theorem linSlotEnd_wf (n : Nat) {s : State} (h : wordsWf s.store) : wordsWf (linSlotEnd n s).store := by
  unfold linSlotEnd
  split <;> simp [h]

/-! ## Async -/

@[simp] theorem wrRateNow_wf (n : Nat) (v : Word) {s : State} (h : wordsWf s.store) : wordsWf (wrRateNow n v s).store := by
  simp [wrRateNow, h]

@[simp] theorem wrApCtrl_wf (n : Nat) (v : Word) {s : State} (h : wordsWf s.store) : wordsWf (wrApCtrl n v s).store := by
  simp [wrApCtrl, h]

@[simp] theorem portOut_wf (n : Nat) {s : State} (h : wordsWf s.store) : wordsWf (portOut n s).store := by simp [portOut, h]
@[simp] theorem portBack_wf (n : Nat) {s : State} (h : wordsWf s.store) : wordsWf (portBack n s).store := by simp [portBack, h]

/-! ## Bobbins -/

@[simp] theorem scanBad_wf (a : Nat) {s : State} (h : wordsWf s.store) : wordsWf (scanBad a s).store := by
  unfold scanBad
  dsimp only
  split <;> simp [h]

@[simp] theorem scanSpan_wf (lo hi : Nat) {s : State} (h : wordsWf s.store) : wordsWf (scanSpan lo hi s).store :=
  forAll_wf (fun _ _ => scanBad_wf _) _ h

theorem upsetWord_wf {a : Nat} (i : Nat) {s : State} (ha : a < 0x200000) (h : wordsWf s.store) :
    wordsWf (upsetWord a i s).store :=
  (storeWf_iff _).mp (storeWf_mapSet _ ha ((storeWf_iff s).mpr h))

@[simp] theorem scanRead_wf (a : Nat) (upset : Option Nat) {s : State} (h : wordsWf s.store) :
    wordsWf (scanRead a upset s).store := by
  unfold scanRead
  dsimp only
  generalize htop : (if s.pw.store4 = true then 0x100000 else 0x200000) = top
  have hle : top ≤ 0x200000 := by rw [← htop]; split <;> decide
  by_cases hc : (s.awake && s.rb 0x8F10 0 && decide (a < top)) = true
  · have ha : a < 0x200000 := by
      simp only [Bool.and_eq_true, decide_eq_true_eq] at hc
      omega
    have h0 : wordsWf (match upset with
        | some i => upsetWord a i s
        | none => s).store := by
      cases upset with
      | some i => exact upsetWord_wf i ha h
      | none => exact h
    rw [if_pos hc]
    generalize hs1 : (if (if s.scan < top then s.scan else 0) ≤ a then _ else _) = s1
    have h1 : wordsWf s1.store := by
      rw [← hs1]
      refine ite_wf (scanSpan_wf _ _ h0) (scanSpan_wf _ _ ?_)
      rw [scanPass_store]
      exact scanSpan_wf _ _ h0
    split
    · simp [h1]
    · exact h1
  · rw [if_neg hc]
    exact h

/-! ## CanPort -/

@[simp] theorem packetRecord_wf (t : Nat) (cap : Cap) (fmt : Nat) (h5 : Word) (pay : List Byte) (ctr : Nat) {s : State}
    (h : wordsWf s.store) : wordsWf (packetRecord t cap fmt h5 pay ctr s).store := by
  unfold packetRecord
  dsimp only
  split
  · simp [h]
  · rename_i hr
    simp [addRecord_wf_of h hr]

@[simp] theorem packetEarly_wf (t : Nat) (cap : Cap) (fmt : Nat) (h5 : Word) (head : List Byte) (keyLen ctr : Nat) {s : State}
    (h : wordsWf s.store) : wordsWf (packetEarly t cap fmt h5 head keyLen ctr s).store := by
  unfold packetEarly
  dsimp only
  split
  all_goals
    rename_i he
    simp [earlyBegin_wf_of h he]

@[simp] theorem packetEnd_wf (t : Nat) (pay : Option (List Byte)) {s : State} (h : wordsWf s.store) :
    wordsWf (packetEnd t pay s).store := by
  unfold packetEnd
  split
  · exact h
  · dsimp only
    split
    · exact h
    · exact earlyBad_wf _ _ h
    · split
      all_goals
        rename_i he
        have ht := earlyEnd_wf_of (s := { s with early := mapDel s.early t }) h he
        simp [ht]

@[simp] theorem canRecord_wf (n kind : Nat) (ty : Word) (pay : List Byte) (age : Nat) {s : State} (h : wordsWf s.store) :
    wordsWf (canRecord n kind ty pay age s).store := by
  simp [canRecord, h]

@[simp] theorem canReceive_wf (n kind : Nat) (ide : Bool) (id dlc : Nat) (sec : Bool) (vcid sdt : Byte) (af : Word)
    (data : List Byte) (own : Bool) (age : Nat) {s : State} (h : wordsWf s.store) :
    wordsWf (canReceive n kind ide id dlc sec vcid sdt af data own age s).store := by
  unfold canReceive
  dsimp only
  repeat' split
  all_goals simp [h]

@[simp] theorem canSpan_wf (n kind : Nat) (ide : Bool) (id len : Nat) (sec : Bool) (vcid sdt : Byte) (age : Nat) {s : State}
    (h : wordsWf s.store) : wordsWf (canSpan n kind ide id len sec vcid sdt age s).store := by
  unfold canSpan
  repeat' split
  all_goals simp [h]

@[simp] theorem canErr_wf (n kind : Nat) (tx flag except : Bool) {s : State} (h : wordsWf s.store) :
    wordsWf (canErr n kind tx flag except s).store := by
  unfold canErr
  dsimp only
  repeat' split
  all_goals simp [h]

/-! ## Ether -/

@[simp] theorem tsRecord_wf (n : Nat) (b : List Byte) (age : Nat) {s : State} (h : wordsWf s.store) :
    wordsWf (tsRecord n b age s).store := by
  simp [tsRecord, h]

@[simp] theorem tsReceive_wf (n : Nat) (bytes : List Byte) (fcsOk own : Bool) (symbols age : Nat) {s0 : State}
    (h : wordsWf s0.store) : wordsWf (tsReceive n bytes fcsOk own symbols age s0).store := by
  unfold tsReceive
  dsimp only
  repeat' split
  all_goals simp [h]

@[simp] theorem tsSpan_wf (n : Nat) (head : List Byte) (age : Nat) {s : State} (h : wordsWf s.store) :
    wordsWf (tsSpan n head age s).store := by
  simp [tsSpan, h]

@[simp] theorem streamUnit_wf (n : Nat) (g : IecCfg) (cap : Cap) (i : Iec) (st : Nat) {s : State} (h : wordsWf s.store) :
    wordsWf (streamUnit n g cap i st s).store := by
  unfold streamUnit
  dsimp only
  split
  · simp [h]
  split
  · simp [h]
  · rename_i hr
    simp [addRecord_wf_of h hr]

theorem splitStart_wf (n : Nat) (g : IecCfg) (cap : Cap) (b : Byte) (x : Split) {s : State} (h : wordsWf s.store) :
    wordsWf (splitStart n g cap b x s).2.store := by
  unfold splitStart
  split
  · split
    · exact h
    · exact streamUnit_wf _ _ _ _ _ h
  · simp [h]

theorem splitByte_wf (n : Nat) (g : IecCfg) (cap : Cap) (a : Split × State) (b : Byte) (h : wordsWf a.2.store) :
    wordsWf (splitByte n g cap a b).2.store := by
  unfold splitByte
  dsimp only
  split
  · exact splitStart_wf _ _ _ _ _ h
  · split
    · exact h
    · split
      · exact streamUnit_wf _ _ _ _ _ h
      · exact splitStart_wf _ _ _ _ _ (streamUnit_wf _ _ _ _ _ h)

theorem foldl_splitByte_wf (n : Nat) (g : IecCfg) (cap : Cap) (l : List Byte) : ∀ a : Split × State, wordsWf a.2.store →
    wordsWf (l.foldl (splitByte n g cap) a).2.store := by
  induction l with
  | nil => exact fun _ h => h
  | cons b l ih => exact fun a h => ih _ (splitByte_wf n g cap a b h)

@[simp] theorem datagramSplit_wf (n : Nat) (cap : Cap) (age : Nat) (p : List Byte) {s : State} (h : wordsWf s.store) :
    wordsWf (datagramSplit n cap age p s).store := by
  unfold datagramSplit
  split
  · simp [h]
  · have hs := foldl_splitByte_wf n (streamIec s n age) cap (p.drop 6) ({}, s) h
    dsimp only
    split
    · exact streamUnit_wf _ _ _ _ _ hs
    · exact hs

theorem bundleGo_wf (n : Nat) (cap : Cap) (k : Nat) : ∀ (p : List Byte) {s : State}, wordsWf s.store →
    wordsWf (bundleGo n cap k p s).store := by
  induction k with
  | zero => exact fun _ _ h => h
  | succ k ih =>
    intro p s h
    unfold bundleGo
    dsimp only
    split
    · simp [h]
    · exact ih _ (packetRecord_wf _ _ _ _ _ _ h)

@[simp] theorem bundleSplit_wf (n : Nat) (cap : Cap) (p : List Byte) {s : State} (h : wordsWf s.store) :
    wordsWf (bundleSplit n cap p s).store := by
  unfold bundleSplit
  split
  · simp [h]
  · exact bundleGo_wf _ _ _ _ h

@[simp] theorem euBad_wf (u : Nat) {s : State} (h : wordsWf s.store) : wordsWf (euBad u s).store :=
  forAll_wf (fun _ _ => packetEnd_wf _ _) _ h

@[simp] theorem euReceive_wf (u : Nat) (b : List Byte) (fcsOk : Bool) (pcs age : Nat) {s : State} (h : wordsWf s.store) :
    wordsWf (euReceive u b fcsOk pcs age s).store := by
  have hpcs : wordsWf (whenDo (decide (pcs ≠ 0)) (fun s => raise (euOff u 0x18) 4 (count (ctEu u 13) pcs s)) s).store := by
    simp [h]
  unfold euReceive
  dsimp only
  generalize whenDo (decide (pcs ≠ 0)) _ s = v at hpcs ⊢
  split
  · exact h
  split
  · simp [hpcs]
  split
  · simp [hpcs]
  split
  · simp [hpcs]
  split
  · simp [hpcs]
  have h2 : wordsWf (whenDo (isPause (macBytes (v.reg (euOff u 8)) (v.reg (euOff u 0x0C))) b) (count (ctEu u 5) 1)
      (count (ctEu u 1) (b.length + 4) (count (ctEu u 0) 1 v))).store := by simp [hpcs]
  generalize whenDo (isPause _ b) (count (ctEu u 5) 1) _ = w at h2 ⊢
  split
  · simp [h2]
  split
  · simp [h2]
  · simp [h2]
  · split
    · split
      · simp [h2]
      split
      · simp [h2]
      split
      · simp [h2]
      · rename_i hr
        simp [addRecord_wf_of h2 hr]
    · simp [h2]
    · simp [h2]

@[simp] theorem euSpan_wf (n : Nat) (head : List Byte) (age : Nat) {s : State} (h : wordsWf s.store) :
    wordsWf (euSpan n head age s).store := by
  unfold euSpan
  dsimp only
  split
  · split
    all_goals
      rename_i he
      simp [earlyBegin_wf_of h he]
  · exact h

@[simp] theorem headerSpan_wf (t kind : Nat) (ide : Bool) (id len : Nat) (sec : Bool) (vcid sdt : Byte) (head : List Byte)
    (age : Nat) {s : State} (h : wordsWf s.store) : wordsWf (headerSpan t kind ide id len sec vcid sdt head age s).store := by
  unfold headerSpan
  repeat' split
  all_goals simp [h]

/-! ## Engine -/

@[simp] theorem release_wf (m : Nat) (x : DecEntry) {s : State} (h : wordsWf s.store) : wordsWf (release m x s).store := by
  simp [release, h]

@[simp] theorem voteDuplex_wf {s : State} (h : wordsWf s.store) : wordsWf (voteDuplex s).store := by
  unfold voteDuplex
  split <;> simp [h]

@[simp] theorem voteTwo_wf (a b : Nat) (x : DecEntry) (third : Option (Nat × DecEntry)) {s : State} (h : wordsWf s.store) :
    wordsWf (voteTwo a b x third s).store := by
  unfold voteTwo
  split <;> simp [h]

@[simp] theorem voteTriple_wf {s : State} (h : wordsWf s.store) : wordsWf (voteTriple s).store := by
  unfold voteTriple
  repeat' split
  all_goals simp [h]

@[simp] theorem voteParity_wf (e : Nat) (x : DecEntry) {s : State} (h : wordsWf s.store) : wordsWf (voteParity e x s).store := by
  unfold voteParity
  dsimp only
  repeat' split
  all_goals simp [h]

@[simp] theorem voteGo_wf {s : State} (h : wordsWf s.store) : wordsWf (voteGo s).store := by unfold voteGo; split <;> simp [h]

@[simp] theorem passGo_wf (e : Nat) {s : State} (h : wordsWf s.store) : wordsWf (passGo e s).store := by
  unfold passGo
  split <;> simp [h]

@[simp] theorem seamGo_wf (e : Nat) {s : State} (h : wordsWf s.store) : wordsWf (seamGo e s).store := by
  unfold seamGo
  repeat' split
  all_goals simp [h]

/-! ## Peer -/

@[simp] theorem frameRecord_wf (k : Nat) (f : List Word) {s : State} (h : wordsWf s.store) :
    wordsWf (frameRecord k f s).1.store := by
  unfold frameRecord
  dsimp only
  split
  · simp [h]
  · split
    · exact h
    · rename_i hr
      have ht := addRecord_wf_of h hr
      simp [ht]

theorem frameRecord_wf_of {k : Nat} {f : List Word} {s t : State} {b : Bool} (h : wordsWf s.store)
    (e : frameRecord k f s = (t, b)) : wordsWf t.store := by
  have ht := frameRecord_wf k f h
  rwa [e] at ht

@[simp] theorem frameIn_wf (k : Nat) {s : State} (h : wordsWf s.store) : wordsWf (frameIn k s).store := by
  unfold frameIn
  split
  · exact h
  split
  · exact h
  split
  · rename_i hr
    simp [frameRecord_wf_of h hr]
  · exact h

/-! ## Host -/

@[simp] theorem htEnter_wf (r : Nat) (x : HtDesc) {s : State} (h : wordsWf s.store) : wordsWf (htEnter r x s).1.store := by
  unfold htEnter
  dsimp only
  split
  · simp [h]
  split
  · exact h
  split
  · exact h
  · rename_i hr
    simp [addRecord_wf_of h hr]

theorem htEnter_wf_of {r : Nat} {x : HtDesc} {s t : State} {b : Bool} (h : wordsWf s.store) (e : htEnter r x s = (t, b)) :
    wordsWf t.store := by
  have ht := htEnter_wf r x h
  rwa [e] at ht

@[simp] theorem htDrain_wf (r n : Nat) : ∀ {s : State}, wordsWf s.store → wordsWf (htDrain r n s).store := by
  induction n with
  | zero => exact fun h => h
  | succ n ih =>
    intro s h
    unfold htDrain
    split
    · exact h
    split
    · split
      · rename_i he
        exact ih (htEnter_wf_of h he)
      · rename_i he
        exact htEnter_wf_of h he
    · exact h

@[simp] theorem htFetch_wf (r : Nat) (desc : List Word) (pay : List Byte) (ok : Bool) {s : State} (h : wordsWf s.store) :
    wordsWf (htFetch r desc pay ok s).store := by
  unfold htFetch
  dsimp only
  split
  · exact h
  split
  · simp [h]
  split
  · exact h
  · exact htDrain_wf r 8 (by simp [h])

@[simp] theorem htRefresh_wf {s : State} (h : wordsWf s.store) : wordsWf (htRefresh s).store := by
  unfold htRefresh
  split
  · exact h
  · dsimp only
    apply forAll_wf
    · intro r t ht
      simp [ht]
    · exact h

@[simp] theorem serviceStart_wf (c : Cmd) {s : State} (h : wordsWf s.store) : wordsWf (serviceStart c s).store := by
  unfold serviceStart
  dsimp only
  repeat' split
  all_goals simp [h]

@[simp] theorem hostReadFails_wf (who : Nat) (timeout : Bool) {s : State} (h : wordsWf s.store) :
    wordsWf (hostReadFails who timeout s).store := by
  unfold hostReadFails
  dsimp only
  repeat' split
  all_goals simp [h]

/-! ## Power -/

@[simp] theorem napEnter_wf {s : State} (h : wordsWf s.store) : wordsWf (napEnter s).store := by
  unfold napEnter
  dsimp only
  generalize hs1 : servoHolds _ = s1
  have h1 : wordsWf s1.store := by
    rw [← hs1, servoHolds_store]
    exact forAll_wf (fun n t ht => ite_wf (by simp [ht]) ht) _ (by simp [h])
  generalize hs2 : forAll (mapKeys s1.early) _ s1 = s2
  have h2 : wordsWf s2.store := by
    rw [← hs2]
    exact forAll_wf (fun _ _ => packetEnd_wf _ _) _ h1
  split <;> simp [h2]

@[simp] theorem napEntered_wf {s : State} (h : wordsWf s.store) : wordsWf (napEntered s).store := by simp [napEntered, h]
@[simp] theorem coreReset_wf (s : State) : wordsWf (coreReset s).store := wordsWf_nil
theorem hibLeft_wf (s : State) : wordsWf (hibLeft s).store := wordsWf_nil

@[simp] theorem hibEnter_wf (s : State) : wordsWf (hibEnter s).store := by
  rw [hibEnter_eq]
  exact ite_wf (by simp [hibLeft_wf]) (by simp [hibLeft_wf])

@[simp] theorem hibEntered_wf {s : State} (h : wordsWf s.store) : wordsWf (hibEntered s).store := by simp [hibEntered, h]
@[simp] theorem toReset_wf (s : State) : wordsWf (toReset s).store := wordsWf_nil
@[simp] theorem resetLow_wf (s : State) : wordsWf (resetLow s).store := wordsWf_nil

@[simp] theorem testEnTo_wf (level : Bool) {s : State} (h : wordsWf s.store) : wordsWf (testEnTo level s).store := by
  simp [testEnTo, h]

@[simp] theorem brownedOut_wf {s : State} (h : wordsWf s.store) : wordsWf (brownedOut s).store := by simp [brownedOut, h]
@[simp] theorem vaonFails_wf (s : State) : wordsWf (vaonFails s).store := wordsWf_nil

/-! ## Boot -/

@[simp] theorem bootUp_wf (boot : Nat) (rank : Bool) (vio33 bist seams mram : Nat) (s : State) :
    wordsWf (bootUp boot rank vio33 bist seams mram s).store := by
  simp [bootUp]

@[simp] theorem coldBoots_wf (boot : Nat) (rank : Bool) (vio33 bist seams mram : Nat) {s : State} (h : wordsWf s.store) :
    wordsWf (coldBoots boot rank vio33 bist seams mram s).store := by
  simp [coldBoots, h]

@[simp] theorem powerGood_wf (ok : Bool) (bist seams mram : Nat) {s : State} (h : wordsWf s.store) :
    wordsWf (powerGood ok bist seams mram s).store := by
  unfold powerGood
  repeat' split
  all_goals simp [h]

/-! ## Flags -/

@[simp] theorem flow_wf {s : State} (h : wordsWf s.store) : wordsWf (flow s).store := by simp [flow, h]

/-! ## Registers -/

@[simp] theorem wrTape_wf (o : Nat) (v : Word) {s : State} (h : wordsWf s.store) : wordsWf (wrTape o v s).store := by
  unfold wrTape
  repeat' split
  all_goals simp [h]

@[simp] theorem wrAp_wf (n k : Nat) (v : Word) {s : State} (h : wordsWf s.store) : wordsWf (wrAp n k v s).store := by
  unfold wrAp
  split <;> simp [h]

@[simp] theorem wrMedia_wf (o : Nat) (v : Word) {s : State} (h : wordsWf s.store) : wordsWf (wrMedia o v s).store := by
  unfold wrMedia
  repeat' split
  all_goals simp [h]

@[simp] theorem writeReg_wf (o : Nat) (v : Word) {s0 : State} (h : wordsWf s0.store) : wordsWf (writeReg o v s0).store := by
  unfold writeReg
  split <;> simp [h]

@[simp] theorem hostRegWrite_wf (o : Nat) (v : Word) {s : State} (h : wordsWf s.store) : wordsWf (hostRegWrite o v s).store := by
  unfold hostRegWrite
  dsimp only
  repeat' split
  all_goals simp [h]

@[simp] theorem hostWrite_wf (o : Nat) (data : DWord) (size : Nat) (full poisoned : Bool) {s : State} (h : wordsWf s.store) :
    wordsWf (hostWrite o data size full poisoned s).store := by
  unfold hostWrite
  repeat' split
  all_goals simp [h]

@[simp] theorem inboundEffect_wf (o : Nat) (v : Word) {s : State} (h : wordsWf s.store) :
    wordsWf (inboundEffect o v s).store := by
  unfold inboundEffect
  repeat' split
  all_goals simp [h]

@[simp] theorem inboundWrite_wf (o : Nat) (v : Word) (full : Bool) (tag : Nat) (posted : Bool) {s : State}
    (h : wordsWf s.store) : wordsWf (inboundWrite o v full tag posted s).store := by
  simp [inboundWrite, h]

@[simp] theorem inbound_wf (wr : Bool) (o : Nat) (v : Word) (full : Bool) (tag win : Nat) (posted : Bool) {s : State}
    (h : wordsWf s.store) : wordsWf (inbound wr o v full tag win posted s).store := by
  unfold inbound
  split <;> simp [h]

@[simp] theorem scriptWriteEffect_wf (o : Nat) (v : Word) {s : State} (h : wordsWf s.store) :
    wordsWf (scriptWriteEffect o v s).store := by
  unfold scriptWriteEffect
  split <;> simp [h]

@[simp] theorem scriptWrite_wf (o : Nat) (v : Word) {s : State} (h : wordsWf s.store) : wordsWf (scriptWrite o v s).store := by
  unfold scriptWrite
  split
  · exact h
  split
  · split
    all_goals
      rename_i hl
      simp [selvageSet_store hl, h]
  · simp [h]

/-! ## Operands -/

@[simp] theorem agentWrite_wf (a : Nat) (o : Nat) (v : Word) {s : State} (h : wordsWf s.store) :
    wordsWf (agentWrite a o v s).store := by
  unfold agentWrite
  split <;> simp [h]

@[simp] theorem agentRead_wf (a : Nat) (o : Nat) (wide : Bool) {s : State} (h : wordsWf s.store) :
    wordsWf (agentRead a o wide s).store := by
  unfold agentRead
  split <;> simp [h]

@[simp] theorem accessWrite_wf (a o : Nat) (data : DWord) (size : Nat) (full poisoned : Bool) {s : State} (h : wordsWf s.store) :
    wordsWf (accessWrite a o data size full poisoned s).store := by
  unfold accessWrite
  split <;> simp [h]

@[simp] theorem readFailsOf_wf (who : Nat) (timeout : Bool) {s : State} (h : wordsWf s.store) :
    wordsWf (readFails_ who timeout s).store := by
  simp [readFails_, h]

end Sys2Proof.Machine
end

section
/-!
SUPPORT. Every command, and the tick of a device with no command waiting, keeps the store's form (R220).
-/
namespace Sys2Proof.Machine

@[simp] theorem core_wf {f : State → State} {s : State} (hf : wordsWf (f s).store) (h : wordsWf s.store) :
    wordsWf (core f s).store := ite_wf hf h

theorem startHead_wf {f : Cmd → State → State} (hf : ∀ c t, wordsWf t.store → wordsWf (f c t).store) (op : Nat) {s : State}
    (h : wordsWf s.store) : wordsWf (startHead op f s).store := by
  unfold startHead
  split
  · exact h
  · exact ite_wf (hf _ _ (by simp [h])) h

/-- A start that leaves the store alone keeps its form. -/
theorem startHead_keeps {f : Cmd → State → State} (hf : ∀ c t, (f c t).store = t.store) (op : Nat) {s : State}
    (h : wordsWf s.store) : wordsWf (startHead op f s).store := by
  rw [startHead_store hf]
  exact h

/-- The tick of a device with no command waiting. -/
theorem idle_wf {s : State} (h : wordsWf s.store) : wordsWf (idle s).store := by
  unfold idle
  exact ite_wf (ite_wf (flow_wf (by simp [h])) (by simp [h])) (by simp [h])

/-- What a command does before IRQ_N settles keeps the store's form. -/
theorem exec_wf (c : Instr) {s : State} (h : wordsWf s.store) : ∃ u, exec c s = .next (settle s u) ∧ wordsWf u.store := by
  cases c
  case stitch => exact ⟨_, rfl, core_wf (startHead_keeps stitchStart_store 2 h) h⟩
  case fitting => exact ⟨_, rfl, core_wf (startHead_keeps fittingStart_store 3 h) h⟩
  case seamTest => exact ⟨_, rfl, core_wf (startHead_keeps seamTestStart_store 4 h) h⟩
  case power => exact ⟨_, rfl, core_wf (startHead_keeps powerStart_store 5 h) h⟩
  case peerFence => exact ⟨_, rfl, core_wf (startHead_keeps fenceStart_store 7 h) h⟩
  case ringReset => exact ⟨_, rfl, core_wf (startHead_keeps ringResetStart_store 8 h) h⟩
  case portService => exact ⟨_, rfl, core_wf (startHead_wf (fun c _ => serviceStart_wf c) 9 h) h⟩
  case loadTable buf ok => exact ⟨_, rfl, core_wf (whenDo_wf (startHead_keeps (loadStart_store buf ok) 1 h) h) h⟩
  case calApply buf ok mram => exact ⟨_, rfl, core_wf (whenDo_wf (startHead_keeps (calStart_store buf ok _) 6 h) h) h⟩
  case htFetchComplete ring desc pay ok =>
    exact ⟨_, rfl, core_wf (flow_wf (ite_wf (hostReadFails_wf _ _ h) (htFetch_wf _ _ _ _ h))) h⟩
  case readCompletionError who => exact ⟨_, rfl, core_wf (flow_wf (readFailsOf_wf _ _ h)) h⟩
  case cplTimeout who => exact ⟨_, rfl, core_wf (flow_wf (readFailsOf_wf _ _ h)) h⟩
  case canError cn kind tx flag except => exact ⟨_, rfl, core_wf (flow_wf (canErr_wf _ _ _ _ _ h)) h⟩
  case seamRelease eng => exact ⟨_, rfl, core_wf (flow_wf (seamGo_wf _ h)) h⟩
  case derivedRecordBuild => exact ⟨_, rfl, core_wf (flow_wf (deriveNext_wf h)) h⟩
  case heldRelease => exact ⟨_, rfl, core_wf (flow_wf (ite_wf h (heldFire_wf h))) h⟩
  case cellEmission => exact ⟨_, rfl, core_wf (flow_wf (emitCell_wf h)) h⟩
  case flush agent bob => exact ⟨_, rfl, core_wf (flow_wf (agentWrite_wf _ _ _ h)) h⟩
  case sentenceFrameReceived sub => exact ⟨_, rfl, core_wf (flow_wf (frameIn_wf _ h)) h⟩
  all_goals exact ⟨_, rfl, by simp [h]⟩

theorem step_wf {s t : State} (h : wordsWf s.store) (ht : step s = .next t) : wordsWf t.store := by
  obtain ⟨u, hu, hwf⟩ : ∃ u, step s = .next (settle { s with pending := s.pending.tail } u) ∧ wordsWf u.store := by
    match hp : s.pending with
    | [] => exact ⟨idle s, by rw [step_nil hp, List.tail_nil, ← hp], idle_wf h⟩
    | c :: rest =>
      obtain ⟨u, hu, hwf⟩ := exec_wf c (s := { s with pending := rest }) h
      exact ⟨u, by rw [step_cons hp, hu, List.tail_cons], hwf⟩
  rw [hu] at ht
  rw [← Host.Outcome.next.inj ht, settle_store]
  exact hwf

/-- Settles O5: the store is written by setWord, pushWord and the scan's upset alone, each within the 2^21 words, and every other
function of the model leaves it alone. -/
theorem stepKeepsStore : Obligations.StepKeepsStore := by
  intro s t h ht
  exact (storeWf_iff t).mpr (step_wf ((storeWf_iff s).mp h) ht)

end Sys2Proof.Machine
end
